-- ==== Sys2Proof/Word.lean ====
section
/-! DEFINITION. The plain words of the model: bytes, 32-bit register contents and 64-bit safety words. -/

namespace Sys2Proof

/-- One byte of a frame, payload, image or record. -/
abbrev Byte := BitVec 8

/-- The contents of one BAR0 register or parameter (R302, R316). -/
abbrev Word32 := BitVec 32

/-- One safety word or one quoin row (R21, R108). -/
abbrev Word64 := BitVec 64

/-- A 456-bit Ed448 public key (57 bytes, Table 18-4); all zero means none. -/
abbrev KeyBits := BitVec 456

/-- A 64-byte SHAKE256 digest. -/
abbrev Digest := BitVec 512

end Sys2Proof
end

