-- ==== Sys2Proof/Syntax.lean ====
section
/-! DEFINITION. The commands of the PSX-3840: one constructor of `Instr` per row of spec/opcode_table.json, with
what the environment supplies to that command (readings, received frames, mailbox entries) as operands. -/

namespace Sys2Proof

/-- The three voting lanes (Table 0-5). -/
inductive LaneId where
  | a | b | c
  deriving DecidableEq, Repr

/-- The four Ahnong ports (Table 12-1). -/
inductive PortId where
  | xe | xw | ye | yw
  deriving DecidableEq, Repr

/-- The fourteen clock islands (Table 20-5). -/
inductive Island where
  | alwaysOn | steward | laneA | laneB | laneC | netTx | rxXE | rxXW | rxYE | rxYW | pcie | maintEth | fieldSide | crypto
  deriving DecidableEq, Repr

/-- What a crossing that timed out was carrying (R403). -/
inductive Crossing where
  /-- a value read: the reader keeps its previous value -/
  | value
  /-- a field or network word on its way to a lane: that lane has no word for the input -/
  | laneWord (lane : LaneId) (word : Nat)
  /-- an event raise: the event is lost, the source keeps the count -/
  | event (number : Nat)
  /-- a doorbell write of a host-producer queue -/
  | doorbell (queue : Nat)
  /-- a correction or an alignment mark on its way to a port's guardian (R254) -/
  | guardian (port : PortId)
  deriving DecidableEq, Repr

/-- A mailbox command entry as fetched from its slot (Table 15-10). The opcode is the constructor that carries it. -/
structure Entry where
  /-- the command queue it was fetched from, 0 to 14 over PCIe, 15 over UDP -/
  queue : Nat
  tag : Nat
  /-- the length field of the header -/
  length : Nat
  flags : Nat
  target : Nat
  session : Nat
  payload : List Byte
  /-- the CRC-32C that stands after the payload -/
  crc : Word32
  /-- source address and port of the datagram (UDP only) -/
  srcAddr : Nat
  srcPort : Nat
  deriving DecidableEq, Repr

/-- A signature as the crypto island sees it: the public key it verifies under, and whether it covers the bytes
presented (RFC 8032 is outside this manual). -/
structure Sig where
  key : KeyBits
  ok : Bool
  deriving DecidableEq, Repr

/-- A forme image as bytes: its length and the bytes that are not zero. -/
structure Image where
  len : Nat
  cells : List (Nat × Byte)
  deriving DecidableEq, Repr

/-- One reading of a block's test controller (R372, R373). -/
structure ProofReading where
  block : Nat
  applied : Nat
  expected : Nat
  signature : Word64
  wanted : Word64
  endSeal : Word32
  /-- blocks 0x30 to 0x37: what the engine gives over "123456789" for each parameter set of Table 2-7 (R34) -/
  checks : List Nat
  /-- twice the block's duration passed without an end seal -/
  late : Bool
  deriving DecidableEq, Repr

/-- What a start of the module finds outside the state (Table 20-2). -/
structure StartFacts where
  /-- ticks of the always-on clock since the lanes entered reset -/
  offTicks : Nat
  /-- the always-on island kept its contents (R394) -/
  islandValid : Bool
  /-- GA0 to GA4 as the supervisor samples them (R396) -/
  ga : Nat
  /-- supply at start, mV -/
  vsMv : Nat
  /-- readings of the start-up proofs; a block not listed passes -/
  failing : List ProofReading
  /-- lanes whose slot contents no longer match the sealed digest (R88) -/
  digestBad : List LaneId
  /-- firmware slots (type, slot) with a chunk that fails its check (R358) -/
  badSlots : List (Nat × Nat)
  /-- checkpoint halves (lane, 0 or 1) whose seal fails (R18) -/
  badHalves : List (LaneId × Nat)
  /-- recorder items whose seal fails (R386) -/
  badItems : List Nat
  /-- boot records (0, 1) whose CRC fails (R355) -/
  badBoot : List Nat
  /-- the trial counter fails its CRC (Table 17-6) -/
  badCounter : Bool
  /-- life-cycle record copies (0, 1) whose seal fails (R371) -/
  badLife : List Nat
  /-- plaintext of the forme in the NAND slot on trial (R356) -/
  image : Image
  deriving DecidableEq, Repr

/-- What the field side, the lanes' hardware and the isolators supply to one cycle (R89, R12, R16). Everything not
listed reads its ordinary way. -/
structure Sample where
  /-- universal channels whose level behind the threshold and the analogue filter reads on -/
  inputsOn : List Nat
  /-- channels whose level changed since the strobe before: the levels one after another, each with how long it stood, µs (R193) -/
  levels : List (Nat × List (Bool × Nat))
  /-- vital outputs whose readback reads on -/
  voOn : List Nat
  /-- load current of vital outputs, mA -/
  voMa : List (Nat × Nat)
  /-- vital banks whose rail behind the bank switch reads on -/
  railOn : List Nat
  /-- line current of universal inputs in units of 10 µA (L variant); a channel not listed has none -/
  lineUa : List (Nat × Nat)
  /-- switches (item, switch 0 to 5) of an output 0-15 or bank 16-17 that read open while closed -/
  stuckOpen : List (Nat × Nat)
  /-- isolator faults: lane, input word address, word delivered instead -/
  corrupt : List (LaneId × Nat × Word64)
  /-- lanes with an uncorrectable SRAM error in this cycle -/
  sram : List LaneId
  /-- writes that a die's firmware attempts in its MRAM: die 0 to 2 a lane, 3 the steward; region of Table 1-6; address (R17) -/
  mramWrites : List (Nat × Nat × Nat)
  /-- corrected SRAM errors per lane -/
  corrected : List (LaneId × Nat)
  /-- evaluation time of each lane, µs -/
  evalUs : List (LaneId × Nat)
  /-- completion of each lane's galley after its evaluation, µs (Table 19-4) -/
  galleyUs : List (LaneId × Nat)
  /-- lane faults: lane, galley position, word computed instead -/
  wrong : List (LaneId × Nat × Word64)
  /-- faults of a platen copy: copy, galley position, word it emits instead (Table 3-10) -/
  emitted : List (LaneId × Nat × Word64)
  /-- identities of nodes that report a restart (Table 5-5) -/
  restarted : List Nat
  /-- last 1 ms mean of a bank's supply, mV (R208) -/
  supplyMv : List (Nat × Nat)
  /-- hottest junction of the field side, °C (R208) -/
  fieldTemp : Option Nat
  /-- junction temperature of a lane die, °C (R325) -/
  laneTemp : List (LaneId × Nat)
  /-- last 1 ms mean of VS, mV (R406) -/
  vsMv : Option Nat
  /-- supercapacitor voltage, mV (R406) -/
  holdupMv : Option Nat
  deriving DecidableEq, Repr

/-- A base page of Clause 37 (R229). -/
structure BasePage where
  fullDuplex : Bool
  halfDuplex : Bool
  /-- the two pause bits -/
  pause : Nat
  remoteFault : Nat
  nextPage : Bool
  /-- of a partner's page: it came whole and was acknowledged -/
  accepted : Bool
  deriving DecidableEq, Repr

/-- The times of one qualification frame as it came (Table 12-2), in units of 0.8 ns modulo 2^32: when it was received, the own send stamp
that it echoes, and the partner's turnaround. -/
structure QualStamp where
  received : Nat
  echoed : Nat
  turnaround : Nat
  deriving DecidableEq, Repr

/-- The 2 ms of qualification frames on one port (R230). -/
structure QualResult where
  /-- invalid code groups -/
  codeErrors : Nat
  /-- mismatches of the PRBS-31 sequence -/
  prbsErrors : Nat
  /-- the frames' time stamps -/
  stamps : List QualStamp
  /-- the port the partner says it is: 0 XE, 1 XW, 2 YE, 3 YW -/
  partnerPort : Nat
  partnerNode : Nat
  /-- identity of a bypass node that announced itself on this port, or 0 (R232) -/
  bypass : Nat
  deriving DecidableEq, Repr

/-- A received Ahnong frame copy (Table 12-6) and how it arrived. -/
structure Frame where
  typ : Nat
  version : Nat
  flags : Nat
  slot : Nat
  sender : Nat
  length : Nat
  netCycle : Nat
  count : Nat
  phase : Nat
  tag : Nat
  payload : List Byte
  crc : Word32
  /-- no invalid code group or /V/, and /T/ where the length says (check 1) -/
  codeOk : Bool
  /-- the static slot, or 512 + minislot, in whose acceptance window /S/ arrived -/
  window : Option Nat
  /-- arrival minus nominal arrival, units of 0.8 ns -/
  dev : Int
  deriving DecidableEq, Repr

/-- One pulse pair seen by a counting pair (R196). -/
structure AxlePulse where
  evenLeads : Bool
  /-- the sequence ran through to its end in order -/
  complete : Bool
  /-- pulse of the system that rose first, µs -/
  pulseUs : Nat
  /-- pulse of the other system, µs; 0 where it gave none -/
  otherUs : Nat
  overlapUs : Nat
  /-- a pulse of one system passed with no overlap of the other -/
  lone : Bool
  /-- time since the previous pulse on a system, µs -/
  gapUs : Nat
  /-- a fault of the counting unit: the first counter (1) or the second (2) misses this pulse (R12) -/
  miss : Nat
  deriving DecidableEq, Repr

/-- The samples of one dark-test slot of an output (R61). -/
structure DarkSample where
  /-- the output's readback at 300 µs or at 380 µs reads on -/
  readsOn : Bool
  /-- switches 0 to 5 of the output that conduct at one of the two samples -/
  conducting : List Nat
  /-- other vital outputs that were on and read off at one of the two samples -/
  othersOff : List Nat
  /-- the bank's supply dipped during the pulse (Table 10-9) -/
  dip : Bool
  deriving DecidableEq, Repr

/-- Ports and nodes heard while a coldstart node runs one of its own cycles (R253). -/
inductive ColdstartHeard where
  | nothing
  /-- a coldstart frame of another node, of a lower identity or a higher one, passes the checks: its sender and its network cycle number -/
  | lowerIdentity (node : Nat) (netCycle : Nat)
  | collision
  deriving DecidableEq, Repr

/-- A tunnel queue entry as fetched (Table 16-1). -/
structure TunnelEntry where
  typ : Nat
  tag : Nat
  length : Nat
  peer : Nat
  port : Nat
  addr : Nat
  payload : List Byte
  crc : Word32
  deriving DecidableEq, Repr

/-- A received tunnel segment (Table 16-3) with the node that sent it. -/
structure Segment where
  sender : Nat
  kind : Nat
  channel : Nat
  reset : Bool
  last : Bool
  dest : Nat
  tag : Nat
  index : Nat
  creditChannel : Nat
  creditValid : Bool
  consumed : Nat
  detail : Nat
  data : List Byte
  deriving DecidableEq, Repr

/-- A STOP frame (Table 13-2). -/
structure StopMsg where
  cause : Nat
  attempt : Nat
  deriving DecidableEq, Repr

/-- One entry of a sweep or result frame (Table 13-2). -/
structure SweepEntry where
  vehicle : Nat
  flags : Nat
  facing : Nat
  coupled : Nat
  deriving DecidableEq, Repr

/-- A sweep or result frame (Table 13-2). -/
structure SweepMsg where
  overflow : Bool
  attempt : Nat
  entries : List SweepEntry
  deriving DecidableEq, Repr

/-- A RS-485 telegram as received on a port (R339). -/
structure Telegram where
  address : Nat
  length : Nat
  data : List Byte
  crc : BitVec 16
  deriving DecidableEq, Repr

/-- A pulse on a frequency input and the period that its rising edge completes (R197). -/
structure FreqPulse where
  pulseUs : Nat
  periodUs : Nat
  /-- time between the rising edge and the row -/
  sinceUs : Nat
  deriving DecidableEq, Repr

/-- What the verification of an image finds when it reads the slot back (R353). -/
structure ChunkReads where
  /-- the chunks that read otherwise than they were stored (R351) -/
  reads : List (Nat × List Byte)
  /-- a chunk that decrypts with a failing tag -/
  badTag : Option Nat
  deriving DecidableEq, Repr

/-- One command or event that reaches the block: one constructor per row of the operation table. -/
inductive Instr where
  | powerUp (f : StartFacts)
  | powerFail
  | vsRange (mv : Nat)
  | reset
  | resetRelease (f : StartFacts)
  | resetStuck
  | holdupOk (mv : Nat)
  | holdupLow (mv : Nat)
  | clockFault (i : Island)
  | laneRailFault (l : LaneId)
  | tempHigh (die : Nat) (celsius : Nat)
  | cdcTimeout (i : Island) (x : Crossing)
  | strobeTimeout (l : LaneId)
  | cycleStrobe (x : Sample)
  | quoinScrubFault (l : LaneId) (row : Nat)
  | timerExpiry (t : Nat)
  | approachLockExpiry (r : Nat)
  | overlapReleaseExpiry (o : Nat)
  | routeStalled (r : Nat)
  | pointStroke (p : Nat)
  | pointLost (p : Nat)
  | signalM0Restore (g : Nat)
  | sweepTimeout (n : Nat)
  | warningTimeExpiry (x : Nat)
  | crossingFail (x : Nat)
  | crossingLightsRestored (x : Nat)
  | openingLoweringExpiry (x : Nat)
  | guardDiscrepancy (f : Nat)
  | guardFeedback (f : Nat)
  | standstillProven (f : Nat)
  | simultaneityExpiry (f : Nat)
  | auxWindowExpiry (authority : Nat)
  | auxNotCounted (authority : Nat)
  | evaluationDeadline (late : List LaneId)
  | overrunLimit (late : List LaneId)
  | galleyReceived (copy lane : LaneId) (bad : List (Nat × Word64))
  | galleyWindowClose (copy : LaneId)
  | permitExpiry (l : LaneId) (item : Nat)
  | gateDriveLoss (l : LaneId)
  | cycleClose
  | exchangeCycle (x : Sample) (failed : List LaneId)
  | inServiceProofRequest
  | proofDeferred
  | laneIsolation
  | proofComplete (r : ProofReading)
  | proofTimeout (r : ProofReading)
  | laneRejoin (x : Sample)
  | darkTestOutput (vo : Nat) (d : DarkSample)
  | darkTestBankPath (bank path : Nat) (conducting : List Nat)
  | externalEnergyProcedure (bank : Nat)
  | axleSequence (even : Nat) (p : AxlePulse)
  | wireBreak (channel : Nat)
  | fieldSupplyOutOfRange (bank mv : Nat)
  | fieldSupplyInRange (bank mv : Nat)
  | outputOverload (vital : Bool) (channel : Nat)
  | thermalRetry (wholeBank : Bool) (n : Nat)
  | bankOverload (bank : Nat)
  | fieldLink
  | linkSyncAcquired (p : PortId)
  | autoNegotiation (p : PortId) (page : BasePage)
  | linkQualification (p : PortId) (q : QualResult)
  | linkDown (p : PortId) (cause : Nat)
  | linkRetry (p : PortId)
  | staticSlotTransmit (slot : Nat) (devs : List (PortId × Int))
  | minislot (heard : Option Nat)
  | frameReceive (p : PortId) (f : Frame)
  | receiveBufferUpdate (entry : Nat)
  | networkCycleBoundary
  | kern (missed : List PortId)
  | noSync
  | guardianTrip (p : PortId)
  | listenTimeout
  | coldstart (heard : ColdstartHeard)
  | backoffExpiry
  | integrationComplete
  | nodeLost (entry : Nat)
  | endChange (e : Nat)
  | stopFrame (p : PortId) (f : Frame)
  | sweepSend
  | sweepFrame (p : PortId) (f : Frame)
  | resultFrame (p : PortId) (f : Frame)
  | noAgree
  | inaugurationTimeout
  | trainFailRetry
  | trainProofRequest
  | refereeDecide
  | markAccepted
  | dupColdTakeover (f : StartFacts)
  | dupSwitchBackFail
  | ilkRouteSet (e : Entry)
  | ilkRouteCancel (e : Entry)
  | ilkRouteReclear (e : Entry)
  | elmPointMove (e : Entry)
  | elmBlockSet (e : Entry)
  | ilkAuxStage (e : Entry)
  | ilkAuxWithdraw (e : Entry)
  | ilkAuxCounters (e : Entry)
  | ilkExchangePrepare (e : Entry)
  | formeLoad (image : Image) (sigs : Sig × Sig) (faults : List (LaneId × Bool))
  | exchangePrepared
  | ilkExchangeCommit (e : Entry)
  | ilkExchangeAbort (e : Entry)
  | ilkExchangeStatus (e : Entry)
  | ilkForceSet (e : Entry) (sig : Sig)
  | ilkForceClear (e : Entry)
  | ilkForceList (e : Entry)
  | fldBlockClear (e : Entry) (sig : Sig)
  | motStatus (e : Entry)
  | grdStatus (e : Entry)
  | sysRestart (e : Entry) (f : StartFacts)
  | sysParamGet (e : Entry)
  | sysParamSet (e : Entry)
  | sysIdentify (e : Entry)
  | netStart (e : Entry)
  | netStop (e : Entry)
  | netStatus (e : Entry)
  | netCounters (e : Entry)
  | trnStatus (e : Entry)
  | trnComposition (e : Entry)
  | trnInaugurate (e : Entry)
  | dupStatus (e : Entry)
  | dupSwitchBack (e : Entry) (sig : Sig)
  | hstSessionOpen (e : Entry)
  | hstSessionProve (e : Entry) (sig : Sig)
  | hstSessionClose (e : Entry)
  | hstSessionList (e : Entry)
  | hstPortRestart (e : Entry)
  | pendingSessionExpiry (session : Nat)
  | authLockoutEnd (udp : Bool)
  | sessionIdleExpiry (session : Nat)
  | crcOpen (e : Entry)
  | crcFeed (e : Entry)
  | crcRead (e : Entry)
  | crcWrite (e : Entry)
  | crcClose (e : Entry)
  | brgStart (e : Entry)
  | brgStop (e : Entry)
  | brgStatus (e : Entry)
  | brgPollStatus (e : Entry)
  | updBegin (e : Entry) (helfinor approval : Sig) (unwraps : Bool)
  | updChunk (e : Entry) (tagOk : Bool)
  | updStatus (e : Entry)
  | updVerify (e : Entry)
  | verificationComplete (digest : Digest) (chunks : ChunkReads)
  | updActivate (e : Entry) (f : StartFacts)
  | updConfirm (e : Entry) (sig : Sig)
  | updAbort (e : Entry) (sig : Sig)
  | updAttest (e : Entry)
  | updExpired
  | lcsTransition (e : Entry) (sig : Sig)
  | lcsKeyWrite (e : Entry) (sig : Sig)
  | lcsStatus (e : Entry)
  | prfRun (e : Entry)
  | prfResult (e : Entry)
  | recList (e : Entry)
  | recRead (e : Entry) (during : Nat)
  | recClear (e : Entry) (sig : Sig)
  | recStatus (e : Entry)
  | recorderBatch
  | pwrStatus (e : Entry)
  | queueStall (e : Entry)
  | qProdWrite (queue : Nat) (v : Word32) (unknown : List (Nat × Entry))
  | qConsWrite (queue : Nat) (v : Word32)
  | qCfgWrite (queue : Nat) (v : Word32)
  | stewardCtrlRestart (v : Word32) (backplane : Bool)
  | cdcStatusClear (v : Word32)
  | cycleCountRead (stopped : Bool)
  | registerWrite (offset : Nat) (v : Word32) (enables : Nat) (high : Option Word32)
  | reservedAccess (offset : Nat) (write : Bool) (wide : Bool)
  | msixVectorUnmask (vector : Nat)
  | pcieReset (linkStays : Bool)
  | linkTraining (partnerGen2 : Bool)
  | udpDatagram (bytes : Nat) (opcode : Nat) (e : Entry)
  | arpRequest (target : Nat)
  | icmpEcho (target : Nat) (data : List Byte)
  | ipReassemblyTimeout (id : Nat)
  | tunnelTransmitEntry (channel : Nat) (e : TunnelEntry)
  | tunnelSegment (g : Segment)
  | peerReset (g : Segment)
  | creditReport (channel peer : Nat)
  | brgReasmTimeout (channel peer : Nat)
  | readTimeout (tag : Nat)
  | brgWriteError (tag : Nat) (detail : Nat)
  | brgDiscard (channel : Nat)
  | telegramReceive (port : Nat) (t : Telegram)
  | telegramGap (port : Nat)
  | sideBandPoll (slot : Nat) (block : Option (List Byte))
  | busMasterEnableChange (enabled d0 : Bool)
  | networkClockReturn
  | checkpointSeal (l : LaneId)
  | telegramSent (port : Nat)
  | frequencyPulse (channel : Nat) (pulse : FreqPulse) (miss : Nat)
  | recorderClearComplete
  | stewardBack
  | reportSigned
  deriving DecidableEq, Repr

end Sys2Proof
end

