-- ==== Sys2Proof/Config.lean ====
section
/-! DEFINITION. What the spec leaves open and the machine goes on with: constants with no body, so that no proof can
see their values (log 2). -/

namespace Sys2Proof

/-- The movement sum D of a motion function whose source is a frequency group, from the frequency word and the window:
R213 defines D only for counts. -/
opaque Config.freqMovement : Nat → Nat → Int

/-- x that STW or STM leaves at a position whose kind the accumulator does not have (Table 4-17: "kinds must match"):
from the accumulator's kind and x and the position's kind. -/
opaque Config.mismatchedX : Nat → Nat → Nat → Nat

/-- The n-th 32-byte nonce of the crypto island's random generator (R317). -/
opaque Config.nonce : Nat → BitVec 256

/-- The Ed448 signature of the module's identity key over a message (R363): RFC 8032 is outside this manual. -/
opaque Config.signature : List Byte → BitVec 912

/-- Patterns that the proof of a block applies (R372): Table 18-5 gives none. -/
opaque Config.patterns : Nat → Nat

/-- Response signature of a block's passing proof (R373): the spec gives none. -/
opaque Config.proofSignature : Nat → Word64

/-- Seconds for which a session has been idle when hst.session_list is answered (R318), from the n-th free value. -/
opaque Config.idleSeconds : Nat → Nat

/-- Byte i of the stamps and the PRBS-31 part of the n-th frame that the node sends, a qualification frame (Table 12-2): the times are
those of the link, and the spec names no seed (R230). -/
opaque Config.qualByte : Nat → Nat → Byte

/-- Source code in the header of a recorder item (Table 19-2): the catalogue gives no quantity codes. -/
opaque Config.recSource : Nat → Word32

end Sys2Proof
end

