-- ==== Sys2Proof/Machine/FormeTypes.lean ====
section
/-! DEFINITION. The records of a forme (Tables 4-2 to 4-16, 9-4, 11-1, 11-2, 12-8 to 12-10 and 13-1) as plain data,
with every field as the number the image holds, so that the load checks can judge it. -/

namespace Sys2Proof.Machine

/-- Table 4-2. `zerosOk` says that every unlisted byte is 0x00 (R65). -/
structure Header where
  magic : Nat
  format : Nat
  personality : Nat
  variant : Nat
  installation : Nat
  version : Nat
  m : Nat
  node : Nat
  cycleNs : Nat
  hold : Nat
  duplex : Nat
  stride : Nat
  evalBound : Nat
  quoinBound : Nat
  storeSize : Nat
  build : Nat
  zerosOk : Bool
  deriving DecidableEq, Repr

/-- Table 4-3. -/
structure DirEntry where
  code : Nat
  wordsPer : Nat
  offset : Nat
  length : Nat
  count : Nat
  base : Nat
  reserved : Nat
  deriving DecidableEq, Repr

/-- Table 4-10, local channel record. Vital outputs VO00 to VO15 are channels 32 to 47 (log 6). -/
structure ChannelRec where
  channel : Nat
  dir : Nat
  func : Nat
  typ : Nat
  filter : Nat
  group : Nat
  member : Nat
  partner : Nat
  vital : Nat
  reserved : Nat
  deriving DecidableEq, Repr

/-- Table 12-8. -/
structure NodeRec where
  id : Nat
  typ : Nat
  roles : Nat
  reserved : Nat
  deriving DecidableEq, Repr

/-- Table 12-10. -/
structure ImpEntry where
  slot : Nat
  k : Nat
  f : Nat
  owner : Nat
  len : Nat
  flags : Nat
  deriving DecidableEq, Repr

/-- Table 12-9 with its entries. -/
structure Imposition where
  cycleNs : Nat
  slots : Nat
  minislots : Nat
  allowance : Nat
  idle : Nat
  hop : Nat
  nodes : Nat
  entryCount : Nat
  tag : Nat
  topology : Nat
  reserved : Nat
  entries : List ImpEntry
  deriving DecidableEq, Repr

/-- Table 13-1. -/
structure VehicleTemplate where
  cycleNs : Nat
  cab1 : Nat
  cab2 : Nat
  t0 : Nat
  slotUse : Nat
  maxAge : Nat
  reserved : Nat
  deriving DecidableEq, Repr

/-- Table 4-5. -/
structure PointRec where
  id : Nat
  typ : Nat
  machines : Nat
  driveN : Nat
  driveR : Nat
  detN : Nat
  detR : Nat
  stroke : Nat
  filter : Nat
  sec : Nat
  coupled : Nat
  flank : Nat
  reserved : Nat
  deriving DecidableEq, Repr

/-- Table 4-6. -/
structure SignalRec where
  id : Nat
  typ : Nat
  aspects : Nat
  output : Nat
  lamps : Nat
  approach : Nat
  low : Nat
  high : Nat
  proving : Nat
  linked : Nat
  table : List Nat
  reserved : Nat
  deriving DecidableEq, Repr

/-- Table 4-7. -/
structure SectionRec where
  id : Nat
  nHeads : Nat
  resetClass : Nat
  heads : List Nat
  mask : Nat
  sweep : Nat
  aux : Nat
  reserved : Nat
  deriving DecidableEq, Repr

/-- Table 4-8. -/
structure HeadRec where
  id : Nat
  source : Nat
  even : Nat
  count : Nat
  minPulse : Nat
  maxFreq : Nat
  overlap : Nat
  health : Nat
  reserved : Nat
  deriving DecidableEq, Repr

/-- Table 4-9. -/
structure CrossingRec where
  id : Nat
  typ : Nat
  barriers : Nat
  strikes : List Nat
  barrierCmd : Nat
  downs : List Nat
  light : Nat
  proving : Nat
  warning : Nat
  lowering : Nat
  island : Nat
  reserved : Nat
  deriving DecidableEq, Repr

/-- Table 4-11, route. -/
structure RouteRec where
  entry : Nat
  exit : Nat
  first : Nat
  n : Nat
  cls : Nat
  overlap : Nat
  approachN : Nat
  release : Nat
  timer : Nat
  reserved : Nat
  deriving DecidableEq, Repr

/-- Table 4-11, overlap. -/
structure OverlapRec where
  start : Nat
  trigger : Nat
  first : Nat
  n : Nat
  timer : Nat
  alt : Nat
  reserved : Nat
  deriving DecidableEq, Repr

/-- Table 4-12. -/
structure PoolEntry where
  id : Nat
  role : Nat
  state : Nat
  flags : Nat
  deriving DecidableEq, Repr

/-- Table 4-13. -/
structure FlankRec where
  prot : Nat
  trigger : Nat
  depth : Nat
  pid : Nat
  prole : Nat
  ppos : Nat
  next : Nat
  reserved : Nat
  deriving DecidableEq, Repr

/-- Table 4-14, timer. -/
structure TimerRec where
  owner : Nat
  ord : Nat
  cls : Nat
  preset : Nat
  reserved : Nat
  deriving DecidableEq, Repr

/-- Table 4-14, edge detector. -/
structure EdgeRec where
  owner : Nat
  ord : Nat
  typ : Nat
  member : Nat
  addr : Nat
  deriving DecidableEq, Repr

/-- Table 4-10, remote I/O point. -/
structure RemoteRec where
  group : Nat
  member : Nat
  ordinal : Nat
  output : Nat
  node : Nat
  maxAge : Nat
  word : Nat
  vital : Nat
  deriving DecidableEq, Repr

/-- Table 4-10, galley position. -/
structure GalleyRec where
  id : Nat
  kind : Nat
  target : Nat
  index : Nat
  reserved : Nat
  deriving DecidableEq, Repr

/-- Tables 11-1 and 11-2: a motion or guard function with its type-specific fields. -/
structure FuncRec where
  id : Nat
  typ : Nat
  resetMode : Nat
  resetIn : Nat
  feedback : Nat
  monitored : Nat
  fbDelay : Nat
  /-- motion: source kind and identity -/
  srcKind : Nat
  srcId : Nat
  scale : Nat
  window : Nat
  dir : Nat
  limit : Nat
  tolerance : Nat
  still : Nat
  posLow : Int
  posHigh : Int
  refIn : Nat
  refPos : Int
  hyst : Nat
  /-- guard: channels A to D -/
  chA : Nat
  chB : Nat
  chC : Nat
  chD : Nat
  mode : Nat
  startTest : Nat
  disc : Nat
  simul : Nat
  /-- the reserved bytes of its type are 0 -/
  zerosOk : Bool
  deriving DecidableEq, Repr

/-- Table 9-4, authority. -/
structure AuthorityRec where
  node : Nat
  confirm : Nat
  offer : Nat
  offerTarget : Nat
  timer : Nat
  deriving DecidableEq, Repr

/-- Table 9-4, range. -/
structure RangeRec where
  first : Nat
  last : Nat
  codes : Nat
  auths : Nat
  deriving DecidableEq, Repr

/-- R78, level table entry. -/
structure LevelRec where
  first : Nat
  count : Nat
  strand : Nat
  cost : Nat
  deriving DecidableEq, Repr

/-- Table 4-16. -/
structure Term where
  op : Nat
  m : Nat
  k : Nat
  a : Nat
  deriving DecidableEq, Repr

/-- A forme: the records of every region of Table 4-1. -/
structure Forme where
  header : Header
  imageLen : Nat
  dir : List DirEntry
  channels : List ChannelRec
  nodes : List NodeRec
  imp : Imposition
  template : VehicleTemplate
  points : List PointRec
  signals : List SignalRec
  sections : List SectionRec
  heads : List HeadRec
  crossings : List CrossingRec
  routes : List RouteRec
  overlaps : List OverlapRec
  pool : List PoolEntry
  flanks : List FlankRec
  timers : List TimerRec
  edges : List EdgeRec
  remotes : List RemoteRec
  galley : List GalleyRec
  funcs : List FuncRec
  authCount : Nat
  rangeCount : Nat
  authorities : List AuthorityRec
  ranges : List RangeRec
  levels : List LevelRec
  strands : List Nat
  terms : List Term
  deriving DecidableEq, Repr

end Sys2Proof.Machine
end

