-- ==== Sys2Proof/Machine/State.lean ====
section
/-! DEFINITION. The state of a PSX-3840 as plain data. Each field's docstring ends with
[width | file of spec/ and rule | value at reset]; D0 means DESIGN CHOICE zero (log 1). -/

namespace Sys2Proof.Machine

/-- One value for each lane, port copy or platen copy A, B, C. -/
structure Tri (α : Type) where
  a : α
  b : α
  c : α
  deriving DecidableEq, Repr

/-- One value for each Ahnong port. -/
structure Quad (α : Type) where
  xe : α
  xw : α
  ye : α
  yw : α
  deriving DecidableEq, Repr

/-- The two personalities of Table 0-2. -/
inductive Personality where
  | interlocking | train
  deriving DecidableEq, Repr

/-- The ordering variants of Table 0-1. -/
inductive Variant where
  | l | f
  deriving DecidableEq, Repr

/-- The life-cycle states of Table 18-1. -/
inductive LifeState where
  | manufacture | commissioning | operation | maintenance | retired
  deriving DecidableEq, Repr

/-- The status codes of Table 15-11. -/
inductive Status where
  | done | busy | refused | framing | state | auth | unknown | limit
  deriving DecidableEq, Repr

/-- What the factory and the fuses fix: never written (R1, R24, Table 1-8, Table 15-3). -/
structure Ident where
  /-- module variant [enumeration | 00 R1 | D0: L] -/
  variant : Variant
  /-- hardware revision [8 | 15 R325 | D0] -/
  hwRev : Nat
  /-- module serial [64 | 15 R304 | D0] -/
  serial : Nat
  /-- Gweten version [32 | 15 R304 | D0] -/
  fwVersion : Word32
  /-- Helfinor root public key [456 | 01 Table 1-8 | D0] -/
  rootKey : KeyBits
  /-- module X448 public key [448 | 17 R362 | D0] -/
  x448Key : BitVec 448
  /-- module Ed448 identity key [456 | 01 Table 1-8 | D0] -/
  identityKey : KeyBits
  deriving DecidableEq, Repr

/-- Supervisor and always-on island. -/
structure Power where
  /-- every die runs: the module is powered and out of reset [1 | 20 R395 | 0] -/
  running : Bool
  /-- VS is present [1 | 20 R392 | 0] -/
  powered : Bool
  /-- reset accepted and held [1 | 20 R398 | 0] -/
  resetHeld : Bool
  /-- `RESET_STUCK` latch [1 | 20 R399 | 0] -/
  resetStuck : Bool
  /-- always-on contents valid [1 | 20 R394 | 0] -/
  islandValid : Bool
  /-- off-time count runs [1 | 20 R393 | 0] -/
  offCounting : Bool
  /-- lanes held in reset by rail or clock faults while reset was held [3 x 1 | 20 R405 | 0] -/
  laneHeld : Tri Bool
  /-- crypto island failed until the next restart [1 | 20 R401 | 0] -/
  cryptoDown : Bool
  /-- network die held in reset by its clock [1 | 20 R401, R404 | 0] -/
  netDown : Bool
  /-- `PWR.VS_MV` [32 | 20 Table 20-8 | D0] -/
  vsMv : Nat
  /-- `PWR.HOLDUP_MV` [32 | 20 Table 20-8 | D0] -/
  holdupMv : Nat
  /-- `PWR.HOLDUP_OK` [1 | 20 R394 | 0] -/
  holdupOk : Bool
  /-- `PWR.START_CAUSE` [8 | 20 Table 20-8 | D0] -/
  startCause : Nat
  /-- `PWR.POWERUP_TOTAL` [32 | 20 R406 | 0] -/
  powerups : Nat
  /-- `PWR.RESET_TOTAL` [32 | 20 R406 | 0] -/
  resets : Nat
  /-- `PWR.PF_TOTAL` [32 | 20 R406 | 0] -/
  pfs : Nat
  /-- `PWR.GA` sampled geographic address [5 | 20 R396 | D0] -/
  ga : Nat
  /-- `PWR.TEMP_MAX_C` [32 | 20 Table 20-8 | D0] -/
  tempMax : Nat
  /-- `PWR.CDC_TIMEOUT` per island [14 x 32 | 20 R403 | 0] -/
  cdc : List Nat
  /-- nanoseconds of the present second, as network cycles count them [30 | 15 R325 | 0] -/
  subNs : Nat
  /-- `SYS.POWERED_S` [32 | 15 R325 | 0] -/
  poweredS : Nat
  /-- the restart that runs was asked for with profile cold [1 | 05 R103 | 0] -/
  coldAsked : Bool
  deriving DecidableEq, Repr

/-- The state of one lane MRAM forme slot (R86, R88, R164). -/
inductive SlotState where
  | empty | loaded | running
  deriving DecidableEq, Repr

/-- The fields of a colophon the model uses (Table 17-2). -/
structure Colophon where
  bytes : List Byte
  typ : Nat
  version : Nat
  rollback : Nat
  length : Nat
  chunks : Nat
  installation : Nat
  digest : Digest
  format : Nat
  helfinor : Sig
  approval : Sig
  deriving DecidableEq, Repr

/-- A lane MRAM forme slot with its slot record (R86). -/
structure FormeSlot where
  /-- slot record state [2 | 04 R86 | empty] -/
  state : SlotState
  /-- the forme the slot's image describes [24 MiB | 01 R17 | none] -/
  forme : Option Forme
  /-- digest sealed in the slot record [512 | 04 R86 | 0] -/
  digest : Digest
  /-- load sequence number [32 | 04 R86 | 0] -/
  loadSeq : Nat
  /-- running sequence [32 | 08 R164 | 0] -/
  runSeq : Nat
  /-- colophon sealed in the slot record [512 B | 04 R86 | none] -/
  colophon : Option Colophon
  deriving DecidableEq, Repr

/-- A frisket entry (Table 8-8). -/
structure Force where
  id : Nat
  kind : Nat
  path : Nat
  word : Nat
  flags : Nat
  mask : Nat
  x : Nat
  num : Nat
  cycle : Nat
  deriving DecidableEq, Repr

/-- What the point evaluator keeps between scans beside the words of Table 7-1 (R129 to R131). -/
structure PointMem where
  /-- position whose drive is commanded on: 0 none, 1 normal, 2 reverse [2 | 07 R129 | 0] -/
  drive : Nat
  /-- position being sought: 0 none, 1 normal, 2 reverse [2 | 07 R129 | 0] -/
  goal : Nat
  /-- scans since detection was lost with no drive on [16 | 07 R131 | 0] -/
  loss : Nat
  /-- position last detected with no drive on [2 | 07 R131 | 0] -/
  last : Nat
  /-- request slot of an accepted element request [9 | 09 R179 | none] -/
  slot : Option Nat
  /-- the loss failure of R131 is latched [1 | 07 R131 | 0] -/
  failed : Bool
  /-- position that the request in the slot asks for [2 | 09 R179 | 0] -/
  asked : Nat
  /-- the position sought was asked by an accepted element request [1 | 07 R131 | 0] -/
  byRequest : Bool
  /-- a trailable point lost its detection while its section was occupied [1 | 07 R134 | 0] -/
  trailed : Bool
  deriving DecidableEq, Repr

/-- What the signal evaluator keeps between scans (R137, R138). -/
structure SignalMem where
  /-- aspect commanded in the previous cycle [4 | 07 R137 | 0] -/
  cmd : Nat
  /-- lamp outputs commanded on in the previous cycle [8 | 07 R136 | 0] -/
  lampsOn : Nat
  /-- consecutive cycles in which aspect 0 was proved [2 | 07 R138 | 0] -/
  stops : Nat
  /-- the aspect request word read 0 at the previous scan [1 | 07 R138 | 0] -/
  reqZero : Bool
  /-- the latest judgement found aspect 0 not proved [1 | 07 R138 | 0] -/
  stopFail : Bool
  deriving DecidableEq, Repr

/-- What the crossing evaluator keeps between scans (R147). -/
structure CrossingMem where
  /-- failure cause: 0 none, 1 light proving, 2 barrier lowering [2 | 07 R147 | 0] -/
  cause : Nat
  /-- consecutive scans without light proving [2 | 07 R147 | 0] -/
  dark : Nat
  /-- consecutive scans with lights proved while failed [2 | 07 R147 | 0] -/
  lit : Nat
  /-- the next scan is step 1 of the closure sequence anew [1 | 05 R104 | 0] -/
  again : Bool
  /-- a type 0x01 crossing left state 5 for want of lights and returns to it without a new warning [1 | 07 R147 | 0] -/
  back : Bool
  deriving DecidableEq, Repr

/-- What a motion or guard function keeps between scans beside its 21 words (R213, R218 to R221). -/
structure FuncMem where
  /-- counts taken since the source became sound, at most w + 1 [5 | 11 R213 | 0] -/
  sound : Nat
  /-- source counts that words 4 to 20 hold since the history was empty, at most 17 [5 | 11 R213, R224 | 0] -/
  held : Nat
  /-- motion: feedback count and reset-press count, whose words hold source counts [2 x 16 | 11 R219, R220 | 0] -/
  fb : Nat
  press : Nat
  /-- two-hand: discrepancy count of the second button [16 | 11 R218 | 0] -/
  disc2 : Nat
  /-- two-hand: discrepancy latched on the first and second button [2 x 1 | 11 R218 | 0] -/
  latch1 : Bool
  latch2 : Bool
  /-- two-hand: the second press is awaited [1 | 11 R221 | 0] -/
  awaiting : Bool
  /-- two-hand: both presses came in time and both buttons are still pressed [1 | 11 R221 | 0] -/
  granted : Bool
  /-- the previous scan was in demand [1 | 11 Table 11-11 | 0] -/
  inDemand : Bool
  deriving DecidableEq, Repr

/-- What the route strand keeps for one route beside its state word (R107, R117, R183). -/
structure RouteMem where
  /-- request slot held [9 | 06 R122 | none] -/
  slot : Option Nat
  /-- request slot of the latest request, named in later records [8 | 06 Table 6-7 | 0] -/
  lastSlot : Nat
  /-- clear request set [1 | 06 Table 6-1 | 0] -/
  clearReq : Bool
  /-- clear request withdrawn until reclear [1 | 09 R178 | 0] -/
  withdrawn : Bool
  /-- auxiliary mark [1 | 09 R183 | 0] -/
  auxMark : Bool
  /-- cycles of setting timeout left [16 | 06 R117 | 0] -/
  timeout : Nat
  /-- overlap locked with the route [15 | 06 R116 | none] -/
  ovl : Option Nat
  /-- release groups already released [8 | 06 R119 | 0] -/
  released : Nat
  /-- pool indices of sections seen occupied since the signal was last proved cleared (log 5) [256 | 06 R119 | none] -/
  seen : List Nat
  deriving DecidableEq, Repr

/-- One open staging of an authority (R185 to R187). -/
structure Staging where
  code : Nat
  target : Nat
  ticket : Nat
  slot : Nat
  /-- cycle of the staging [32 | 09 R185 | none] -/
  cycle : Nat
  /-- cycle of the confirmation, once confirmed [32 | 09 R186 | none] -/
  confirmed : Option Nat
  deriving DecidableEq, Repr

/-- A bank held open while the lanes judge an external source (Table 10-8). -/
structure BankHold where
  bank : Nat
  /-- channels judged [16 | 10 R205 | none] -/
  vos : List Nat
  /-- strobes since step 1 [2 | 10 R205 | none] -/
  strobes : Nat
  deriving DecidableEq, Repr

/-- A request frozen for the lanes (R93, R176): what it asks and the slot it holds. -/
inductive ReqKind where
  | routeSet (r : Nat)
  | routeCancel (r : Nat)
  | reclear (r : Nat)
  | pointMove (id pos : Nat)
  | block (id : Nat)
  | auxStage (id code authority : Nat)
  | auxWithdraw (id : Nat)
  | auxAck (authority ticket : Nat)
  | forceSet (e : Force)
  | forceClear (num : Nat)
  | blockClear (target index : Nat)
  deriving DecidableEq, Repr

/-- One frozen request. `slot` is none for a request of the steward's own (acknowledgement, block list). -/
structure Req where
  kind : ReqKind
  slot : Option Nat
  deriving DecidableEq, Repr

/-- An outcome record of Table 6-7 or 9-2 as a lane hands it over (R123, R181). -/
structure OutRec where
  /-- true: Table 6-7; false: Table 9-2 -/
  isRoute : Bool
  target : Nat
  slot : Option Nat
  outcome : Nat
  reason : Nat
  secondary : Nat
  ident : Nat
  owner : Nat
  ovl : Nat
  code : Nat
  ticket : Nat
  authority : Nat
  cycle : Nat
  /-- frisket entries that a force request set or removed (R166, R174) -/
  forces : List Force
  deriving DecidableEq, Repr

/-- A raise of an event source with its payload (R322). -/
structure Raise where
  num : Nat
  payload : List Byte
  deriving DecidableEq, Repr

/-- One update of one recorder item (R382, R383). -/
structure RecUpd where
  item : Nat
  value : Int
  times : Nat
  detail : List Byte
  deriving DecidableEq, Repr

/-- Train evaluator memory in a lane (R275, R276). -/
structure TrainMem where
  /-- claim taken at the strobe: number, orientation, count, attempt [4 x 16 | 13 R274 | none] -/
  claim : Option (Nat × Nat × Nat × Nat)
  /-- proof passes in this cycle [1 | 13 R275 | 0] -/
  passed : Bool
  /-- the proof has passed since the claim was taken [1 | 13 R275 | 0] -/
  everPassed : Bool
  /-- cycles since running without a pass, or consecutive failures after one [16 | 13 R275 | 0] -/
  fails : Nat
  /-- request flag of the descriptor [1 | 13 R264 | 0] -/
  request : Bool
  deriving DecidableEq, Repr

/-- The evaluation state of a lane: what a checkpoint, a rejoin and an exchange carry (R95, R377). -/
structure LaneCore where
  /-- cycle count of the cycle last evaluated [32 | 05 R89 | 0] -/
  cycle : Nat
  /-- word store: address and coded word; an unlisted address holds the all-zero word [262 144 x 64 | 04 R77 | empty] -/
  store : List (Nat × Word64)
  /-- quoin rows that are valid: row number and entry [65 536 x 64 | 06 R108 | empty] -/
  quoin : List (Nat × Word64)
  /-- frisket entries held [256 x 128 | 08 R166 | empty] -/
  frisket : List Force
  /-- the program's own value of each forced position, by address [256 x 16 | 08 R169 | empty] -/
  shadow : List (Nat × Nat)
  /-- point evaluator memory by record [2 048 | 07 R129 | empty] -/
  points : List (Nat × PointMem)
  /-- signal evaluator memory by record [4 096 | 07 R137 | empty] -/
  signals : List (Nat × SignalMem)
  /-- sections whose tally has been above 0 since their reset [8 192 | 07 R144 | empty] -/
  swept : List Nat
  /-- sweep counts above what a word holds, by section [8 192 | 07 R144 | empty] -/
  sweeps : List (Nat × Nat)
  /-- crossing evaluator memory by record [256 | 07 R147 | empty] -/
  crossings : List (Nat × CrossingMem)
  /-- route memory by record [32 768 | 06 R107 | empty] -/
  routes : List (Nat × RouteMem)
  /-- overlaps under auxiliary release [16 384 | 09 Table 9-3 | empty] -/
  ovlAux : List Nat
  /-- open stagings by authority, and confirmed ones by authority + 8 x ticket [8 | 09 R185, R187 | empty] -/
  stagings : List (Nat × Staging)
  /-- identities under an operator block [65 534 x 1 | 09 R180 | empty] -/
  opBlocks : List Nat
  /-- vital outputs blocked under R63 [16 x 1 | 03 R63 | empty] -/
  voBlocked : List Nat
  /-- vital banks (4, 5) blocked under R63 [2 x 1 | 03 R63 | empty] -/
  bankBlocked : List Nat
  /-- of these, the banks that the lanes' own reaction to a fault has blocked [2 x 1 | 03 R63, 18 R378 | empty] -/
  bankFaults : List Nat
  /-- banks held provisionally [2 | 10 R205 | empty] -/
  holds : List BankHold
  /-- edge detector stored values by record [32 768 x 1 | 05 R101 | empty] -/
  edges : List (Nat × Bool)
  /-- voted value of every galley position at the last cycle close, 0 where there was none [16 384 x 16 | 10 R200, 11 R220 | empty] -/
  lastGalley : List Nat
  /-- motion and guard function memory by record [1 024 | 11 R213 | empty] -/
  funcs : List (Nat × FuncMem)
  /-- addresses of input words that are invalid in the cycle: the availability member of a count reads 0 [| 04 R75 | empty] -/
  unavail : List Nat
  /-- sections whose checkpoint state waits for its heads' counts after a warm restart, with that state [8 192 | 05 Table 5-5 | empty] -/
  restore : List (Nat × Nat)
  /-- reference counts of heads from the checkpoint at a warm restart [8 192 | 05 Table 5-5 | empty] -/
  headRef : List (Nat × Nat)
  /-- train evaluator memory [| 13 R275 | empty] -/
  train : TrainMem
  /-- duplex standby: identity x 65 536 + owner of the last quoin row swept in this pass, plus 1 [33 | 14 R292 | 0] -/
  sweepRow : Nat
  /-- duplex standby: swept row or frisket words (identity, kind, x) whose group is not complete yet [7 x 36 | 14 R292 | empty] -/
  sweepTail : List (Nat × Nat × Nat)
  /-- duplex standby: a swept item of this pass was missed [1 | 14 R292 | 0] -/
  sweepLost : Bool
  deriving DecidableEq, Repr

/-- A checkpoint half (R18, R95). -/
structure Checkpoint where
  /-- the half's seal checks [1 | 01 R18 | 0] -/
  isSealed : Bool
  /-- cycle count sealed in the half [32 | 05 R95 | 0] -/
  count : Nat
  /-- digest of the running forme when the half was written [512 | 05 R103 | 0] -/
  digest : Digest
  /-- sealed while this member commanded or was ready [1 | 14 R283 | 0] -/
  clean : Bool
  /-- the half's contents [4 MiB | 01 R18 | empty] -/
  core : LaneCore
  deriving DecidableEq, Repr

/-- One lane die. -/
structure LaneState where
  /-- held in reset by the supervisor [1 | 03 R51 | 1] -/
  held : Bool
  /-- gate drive alive inside its band [1 | 03 R58 | 0] -/
  gate : Bool
  /-- forme slot 0 [24 MiB | 01 R17 | empty] -/
  slot0 : FormeSlot
  /-- forme slot 1 [24 MiB | 01 R17 | empty] -/
  slot1 : FormeSlot
  /-- checkpoint half 0 [4 MiB | 01 R18 | unsealed] -/
  half0 : Checkpoint
  /-- checkpoint half 1 [4 MiB | 01 R18 | unsealed] -/
  half1 : Checkpoint
  /-- the half written last, 0 or 1 [1 | 01 R18 | D0] -/
  lastHalf : Nat
  /-- half being written, with the snapshot [1 | 05 R95 | none] -/
  writing : Option (Nat × LaneCore)
  /-- evaluation state [| 05 R95 | empty] -/
  core : LaneCore
  /-- the galley of the present cycle, once evaluated [16 384 x 64 | 03 R41 | none] -/
  galley : Option (List Word64)
  /-- outcome records of the cycle [| 06 R123 | empty] -/
  records : List OutRec
  /-- events of the cycle [| 15 R322 | empty] -/
  events : List Raise
  /-- recorder updates of the cycle [| 19 R384 | empty] -/
  recs : List RecUpd
  /-- guard functions that entered demand in the cycle [11 | 11 Table 11-11 | 0] -/
  demands : Nat
  /-- accepted resets of guard functions in the cycle [11 | 11 Table 11-11 | 0] -/
  resets : Nat
  /-- duplex sweep items adopted in the cycle [16 | 14 R292 | 0] -/
  adopted : Nat
  /-- no quoin row has failed its check [1 | 06 R111 | 1] -/
  quoinSound : Bool
  /-- quoin rows known to fail their check [65 536 x 1 | 06 R111 | empty] -/
  badRows : List Nat
  /-- input words lost in a crossing until the next strobe [| 20 R403 | empty] -/
  lostWords : List Nat
  /-- `ILK.EVAL_US` [32 | 05 R105 | D0] -/
  evalUs : Nat
  /-- `LANE.ECC_CORRECTED` [32 | 15 R325 | 0] -/
  eccCorrected : Nat
  /-- `LANE.ECC_UNCORRECTABLE` [32 | 15 R325 | 0] -/
  eccBad : Nat
  /-- `LANE.REGION_FAULTS` [32 | 15 R325 | 0] -/
  regionFaults : Nat
  /-- `LANE.TEMP_C` [32 | 15 R325 | D0] -/
  temp : Nat
  /-- firmware image whose lane part the lane's region holds: its digest [| 01 Table 1-6, 17 R358 | none] -/
  firmware : Option Digest
  deriving DecidableEq, Repr

/-- The states of Table 3-4. -/
inductive LaneMode where
  | inService (count : Nat)
  | isolated
  | excluded
  deriving DecidableEq, Repr

/-- One platen copy (R42 to R49). -/
structure Copy where
  /-- the galleys received complete from lanes A, B, C [3 x 16 384 x 64 | 03 R43 | none] -/
  got : Tri (Option (List Word64))
  /-- the vote's result per position and the verdict mask, once voted [| 03 R45 | none] -/
  voted : Option (List (Option Nat))
  /-- verdict: bits 0 to 2 lanes A to C disagreeing, bit 3 no majority [4 | 03 R49 | 0] -/
  verdict : Nat
  deriving DecidableEq, Repr

/-- The voter and its results. -/
structure Platen where
  /-- states of lanes A, B, C [3 | 03 R50 | excluded] -/
  lanes : Tri LaneMode
  /-- the three copies [| 03 R41 | empty] -/
  copies : Tri Copy
  /-- safe state [1 | 03 R55 | 0] -/
  safe : Bool
  /-- cause of the last safe-state entry, in the order of R54 [8 | 19 Table 19-4 | 0] -/
  safeCause : Nat
  /-- lanes that ask for the safe state alone [3 x 1 | 03 R54 | 0] -/
  safeAsked : Tri Bool
  /-- lanes whose copy was reported as differing [3 x 1 | 03 R48 | 0] -/
  reported : Tri Bool
  /-- `PLT.EXCLUDE_AFTER` in use [4 | 03 R44 | 2] -/
  excludeAfter : Nat
  /-- `PLT.GALLEY_WINDOW_US` in use [11 | 03 R44 | 1000] -/
  windowUs : Nat
  /-- the vote of this cycle is complete [1 | 03 R43 | 0] -/
  complete : Bool
  /-- voted words in code set 0xA by position, as the lanes' copies deliver them [3 x 16 384 x 64 | 03 R47 | empty] -/
  out : Tri (List Word64)
  /-- overrun run counter, `ILK.OVERRUN_RUN` [2 | 05 R97 | 0] -/
  overrunRun : Nat
  /-- `ILK.OVERRUN_TOTAL` [32 | 05 R97 | 0] -/
  overruns : Nat
  /-- the present cycle is stretched [1 | 05 R96 | 0] -/
  stretched : Bool
  /-- the present cycle was lengthened by an exchange or a rejoin [1 | 08 R157, 18 R377 | 0] -/
  lengthened : Bool
  /-- a cycle is open: strobe seen, close not yet [1 | 05 R91 | 0] -/
  cycleOpen : Bool
  /-- words that a faulty copy emits instead of its own in this cycle: copy, position, word [| 03 Table 3-10 | none] -/
  emitted : List (LaneId × Nat × Word64)
  deriving DecidableEq, Repr

/-- A permit of one lane for one output or bank switch (R59). -/
structure Permit where
  lane : LaneId
  /-- 0 to 15 vital outputs, 16 and 17 bank switches of banks 4 and 5 -/
  item : Nat
  /-- tag of the last word that refreshed it [8 | 03 R59 | none] -/
  tag : Nat
  deriving DecidableEq, Repr

/-- The field side. -/
structure Field where
  /-- permits held [18 x 3 | 03 R59 | none] -/
  permits : List Permit
  /-- lanes latched out at the field side [3 x 1 | 03 R51 | 0] -/
  latchedOut : Tri Bool
  /-- after an overload: lane and output whose word must go off, plus 32 once it has, before it may get a permit again [| 10 R199 | none] -/
  needOff : List (LaneId × Nat)
  /-- tag with which the inputs were sealed at the latest strobe [8 | 03 R59 | 0] -/
  sealTag : Nat
  /-- `SAFE_N` driven low [1 | 20 Table 20-4 | 1] -/
  safeN : Bool
  /-- universal channels commanded on by the latest words of each lane; plus 32 when the words came one vote ago [| 10 R192 | none] -/
  uoCmd : Tri (List Nat)
  /-- universal outputs switched on [32 x 1 | 10 R192 | 0] -/
  uoOn : List Nat
  /-- universal outputs in thermal shutdown [32 x 1 | 10 R198 | 0] -/
  uoThermal : List Nat
  /-- universal banks switched off by overload [4 x 1 | 10 R198 | 0] -/
  ubankOff : List Nat
  /-- vital outputs whose dark test or off sampling failed [16 x 1 | 10 Table 10-3 | 0] -/
  voBad : List Nat
  /-- bank paths (bank x 3 + path) unsound at their last test [6 x 1 | 10 Table 10-3 | 0] -/
  pathBad : List Nat
  /-- switches (item, switch) found stuck open [18 x 6 | 03 Table 3-10 | 0] -/
  stuckOpen : List (Nat × Nat)
  /-- vital banks with an overload not yet recovered, m13 = 0 [2 x 1 | 10 R199 | 0] -/
  overload : List Nat
  /-- switches (item, switch) found stuck closed [18 x 6 | 03 Table 3-7, Table 3-10 | 0] -/
  stuckClosed : List (Nat × Nat)
  /-- vital outputs that count as latched after an overload [16 x 1 | 10 R199 | 0] -/
  voLatched : List Nat
  /-- universal banks whose proof failed or runs: blocked under R63 until the next restart [4 x 1 | 18 Table 18-5 | 0] -/
  ubankBlocked : List Nat
  /-- banks whose supply is out of range [6 x 1 | 10 R202 | 0] -/
  outOfRange : List Nat
  /-- line sound reads 0 on these channels [16 x 1 | 10 R195 | 0] -/
  lineBad : List Nat
  /-- the field link works [1 | 10 R203 | 0] -/
  link : Bool
  /-- net axle count of each counting pair in its first counter, by even channel [16 x 16 | 10 R196, 01 R12 | D0] -/
  counts : List (Nat × Nat)
  /-- the same in its second counter [16 x 16 | 01 R12 | D0] -/
  counts2 : List (Nat × Nat)
  /-- the last count in which both agreed, which the code unit seals [16 x 16 | 01 R12 | D0] -/
  agreed : List (Nat × Nat)
  /-- pairs whose rate member m1 was cleared in this interval [16 x 1 | 10 R196 | 0] -/
  rateBad : List Nat
  /-- pairs whose sequence member m2 was cleared in this interval [16 x 1 | 10 R196 | 0] -/
  seqBad : List Nat
  /-- periods completed in the last 100 ms per frequency channel, in its first counter: age in ns at the latest strobe (negative where it
  completed after it), and µs [| 10 R197, 01 R12 | empty] -/
  periods : List (Nat × List (Int × Nat))
  /-- the same in its second counter [| 01 R12 | empty] -/
  periods2 : List (Nat × List (Int × Nat))
  /-- the last frequency in which both agreed, in units of 0.25 Hz [32 x 16 | 01 R12 | D0] -/
  agreedHz : List (Nat × Nat)
  /-- frequency channels whose m0 was cleared in this interval [32 x 1 | 10 R197 | 0] -/
  freqBad : List Nat
  /-- words the field side sealed at the latest strobe: address in the forme's store and word [| 10 R191 | empty] -/
  sealed : List (Nat × Word64)
  /-- `FLD.SUPPLY_MV` FV0 to FV5 [6 x 32 | 10 R208 | D0] -/
  supplyMv : List Nat
  /-- `FLD.INPUT` bit 0: channels whose filtered input read on at the last strobe [32 x 1 | 10 R208 | D0] -/
  inputsOn : List Nat
  /-- channels whose level behind threshold and analogue filter was on at the last strobe [32 x 1 | 10 R193 | D0] -/
  rawOn : List Nat
  /-- how long that level has differed from the filtered one, µs [32 x 32 | 10 R193 | D0] -/
  pendingUs : List (Nat × Nat)
  /-- vital outputs that read on at the last strobe [16 x 1 | 10 R191 | D0] -/
  voOn : List Nat
  /-- `FLD.VO_CURRENT_MA` [16 x 32 | 10 R208 | D0] -/
  voMa : List (Nat × Nat)
  /-- `FLD.LINE_UA`, units of 10 µA [16 x 32 | 10 R208 | D0] -/
  lineUa : List (Nat × Nat)
  /-- bank rails that read on at the last strobe [2 x 1 | 10 Table 10-3 | D0] -/
  railOn : List Nat
  /-- bank-path tests skipped [32 | 03 R62 | 0] -/
  skips : Nat
  /-- `FLD.TEMP_C` [32 | 10 R208 | D0] -/
  temp : Nat
  /-- dark-test findings of the present interval, carried to the lanes: kind 1 off-pulse missing, 2 cross-connected, 3 switch [| 03 R61 | empty] -/
  findings : List (Nat × Nat)
  deriving DecidableEq, Repr

/-- The states of Table 12-11, with R266's seventh. -/
inductive NetMode where
  | stopped | links | listen | coldstart | backoff | integrate | running | inaugurating
  deriving DecidableEq, Repr

/-- The states of Table 12-3. -/
inductive LinkMode where
  | down | negotiating | qualifying | up
  deriving DecidableEq, Repr

/-- One Ahnong port. -/
structure Port where
  /-- link state [2 | 12 R231 | down] -/
  mode : LinkMode
  /-- latency L of the last qualification, units of 0.8 ns [32 | 12 R230 | D0] -/
  latency : Nat
  /-- held down by its proof [1 | 18 Table 18-5 | 0] -/
  heldDown : Bool
  /-- counters 0 to 7 of Table 12-15 [8 x 32 | 12 R260 | 0] -/
  counters : List Nat
  /-- the port takes part from the next network-cycle boundary [1 | 12 R231 | 0] -/
  joined : Bool
  /-- guardian tripped [1 | 12 R255 | 0] -/
  tripped : Bool
  /-- the guardian's gate stays closed for this network cycle after a crossing timeout [1 | 12 R254 | 0] -/
  shut : Bool
  /-- offset and rate corrections of the guardian's own timeline, clamped, units of 0.8 ns [2 x 32 | 12 R254 | D0] -/
  guardOff : Int
  guardRc : Int
  /-- the base page that the port advertises in auto-negotiation [16 | 12 R229 | none] -/
  page : Option BasePage
  deriving DecidableEq, Repr

/-- A frame that has left on a port: header, payload and CRC-32C, each field most significant byte first (R6, R239), and whether it ends
with /V/ in place of /T/ (R236). -/
structure TxFrame where
  port : PortId
  bytes : List Byte
  broken : Bool
  deriving DecidableEq, Repr

/-- One receive buffer (R245, R246). -/
structure Buffer where
  /-- static entry number in region 0x05 -/
  entry : Nat
  /-- the eight words of the payload [8 x 64 | 12 R245 | empty] -/
  words : List Word64
  /-- age [8 | 12 R246 | 255] -/
  age : Nat
  /-- refreshed in this network cycle [1 | 12 R245 | 0] -/
  refreshed : Bool
  /-- loss reported [1 | 12 R256 | 0] -/
  lost : Bool
  deriving DecidableEq, Repr

/-- The network die. -/
structure Net where
  /-- `NET.STATE` [3 | 12 R252 | stopped] -/
  mode : NetMode
  /-- the four ports [| 12 R228 | down] -/
  ports : Quad Port
  /-- network cycle in use, ns [20 | 12 R259 | 1000000] -/
  cycleNs : Nat
  /-- 32-bit interlocking cycle count, `ILK.CYCLE_COUNT` [32 | 05 R89 | 0] -/
  count : Nat
  /-- the next strobe is the first after a restart and carries the count itself [1 | 05 Table 5-5 | 0] -/
  atStart : Bool
  /-- the count is known [1 | 12 R248 | 0] -/
  countKnown : Bool
  /-- network cycle within the interlocking cycle, 0 to M [8 | 12 R248 | 0] -/
  phase : Nat
  /-- count and phase to take at the next boundary [40 | 12 R248 | none] -/
  adopt : Option (Nat × Nat)
  /-- network cycle number modulo 256 [8 | 12 Table 12-6 | 0] -/
  netCycle : Nat
  /-- minislot counter [9 | 12 R237 | 1] -/
  minislot : Nat
  /-- receive buffers [8 184 | 12 R245 | empty] -/
  buffers : List Buffer
  /-- snapshot of the buffers at the last strobe [| 05 R91 | empty] -/
  snapshot : List Buffer
  /-- copies of the present slots that passed R240: entry, port, payload [| 12 R245 | empty] -/
  copies : List (Nat × PortId × List Byte)
  /-- transmit words by galley position [16 384 x 64 | 05 R94 | empty] -/
  tx : List (Nat × Word64)
  /-- words waiting for the next network-cycle boundary [16 384 x 64 | 05 R94 | none] -/
  txNext : Option (List (Nat × Word64))
  /-- frames that have left since start, own and forwarded, newest first [| 12 R234, R236 | empty] -/
  sent : List TxFrame
  /-- the node's own frames start: a network-cycle boundary has passed in running [1 | 12 R252 | 0] -/
  sends : Bool
  /-- deviations of this network cycle: sync node, and arrival less nominal arrival of its earliest copy [4 | 12 R249 | empty] -/
  arrivals : List (Nat × Int)
  /-- network cycles in the present listen or backoff [16 | 12 R252 | 0] -/
  waited : Nat
  /-- last off, units of 0.8 ns [32 | 12 R249 | D0] -/
  off : Int
  /-- rate correction rc, units of 0.8 ns [32 | 12 R249 | D0] -/
  rc : Int
  /-- last dev, units of 0.8 ns [32 | 12 R249 | D0] -/
  dev : Int
  /-- previous deviation of each sync node [4 | 12 R249 | empty] -/
  prev : List (Nat × Int)
  /-- sync nodes heard in the last cycle [3 | 12 Table 12-15 | 0] -/
  syncSeen : Nat
  /-- consecutive cycles with dev within the bound while integrating [2 | 12 R252 | 0] -/
  good : Nat
  /-- consecutive cycles with no sync [2 | 12 R251 | 0] -/
  silent : Nat
  /-- coldstart cycles sent [3 | 12 R253 | 0] -/
  coldSent : Nat
  /-- network cycles since the cycle master entered running [32 | 12 R256 | 0] -/
  sinceRun : Nat
  /-- `NET.SELF_SILENCE_TOTAL` [32 | 12 R250 | 0] -/
  selfSilence : Nat
  /-- `NET.GUARDIAN_TRIP_TOTAL` [32 | 12 R255 | 0] -/
  trips : Nat
  /-- `NET.COLDSTART_TOTAL` [32 | 12 Table 12-15 | 0] -/
  coldstarts : Nat
  /-- `NET.COUNT_SLIP_TOTAL` [32 | 12 R248 | 0] -/
  slips : Nat
  /-- `NET.COPY_MISMATCH_TOTAL` [32 | 12 R245 | 0] -/
  mismatches : Nat
  /-- `NET.NOT_ADMITTED` [16 | 12 R232 | 0] -/
  notAdmitted : Nat
  /-- frame engine proof failed: the network stays stopped [1 | 18 Table 18-5 | 0] -/
  engineBad : Bool
  /-- imposition in use (the forme's, or the one derived at inauguration) [64 KiB | 12 R242, 13 R270 | none] -/
  imp : Option Imposition
  /-- node records in use [1 024 x 32 B | 12 R241 | empty] -/
  nodes : List NodeRec
  /-- own node identity [16 | 12 R232 | 0] -/
  self : Nat
  deriving DecidableEq, Repr

/-- A ligature record (Table 13-8). -/
structure Ligature where
  near : Nat
  far : Nat
  orient : Nat
  rings : Nat
  count : Nat
  deriving DecidableEq, Repr

/-- The inauguration unit. -/
structure Train where
  /-- own attempt number a, the largest seen [16 | 13 R265 | 0] -/
  attempt : Nat
  /-- cause of the present attempt [8 | 13 R265 | 0] -/
  cause : Nat
  /-- coupled ends 1 and 2 as last seen [2 x 1 | 13 R261 | 0] -/
  coupled1 : Bool
  coupled2 : Bool
  /-- results held: ring (0 X, 1 Y) and message [| 13 R268 | empty] -/
  results : List (Nat × SweepMsg)
  /-- sweeps sent in this attempt [2 | 13 R268 | 0] -/
  sweeps : Nat
  /-- sweeps (code 2) and results (code 3) the unit has sent on, newest first: port, code and message [| 13 R268 | empty] -/
  sent : List (PortId × Nat × SweepMsg)
  /-- STOP frames the unit has flooded, newest first [| 13 R267 | empty] -/
  stops : List (PortId × StopMsg)
  /-- `TRN.STATE` [3 | 13 Table 13-11 | 0] -/
  state : Nat
  /-- `TRN.CAUSE` [3 | 13 Table 13-5 | 0] -/
  failCause : Nat
  /-- claimed number, orientation, node count [3 x 16 | 13 R269 | 0] -/
  number : Nat
  orient : Nat
  count : Nat
  /-- network cycles since the entry of the present attempt [32 | 13 R267 | 0] -/
  sinceEntry : Nat
  /-- consecutive attempts ended by a failed proof [2 | 13 Table 13-5 | 0] -/
  proofFails : Nat
  /-- ligature records [63 x 16 B | 13 R277 | empty] -/
  ligatures : List Ligature
  /-- `TRN.INAUG_COUNT` [16 | 13 R277 | 0] -/
  inaugCount : Nat
  /-- `TRN.LAST_US` [32 | 13 Table 13-11 | 0] -/
  lastUs : Nat
  /-- `TRN.FAIL_TOTAL` [32 | 13 R272 | 0] -/
  fails : Nat
  /-- voted CAB_ACT members and request flag of the last identical descriptor [3 x 1 | 13 R264 | 0] -/
  cab1 : Bool
  cab2 : Bool
  request : Bool
  deriving DecidableEq, Repr

/-- The duplex unit, and the referee's state for a node that carries that role. -/
structure Duplex where
  /-- last mark holder accepted: 0 none, 1 member 0, 2 member 1 [2 | 14 R285 | 0] -/
  mark : Nat
  /-- mark sequence last accepted [16 | 14 R282 | 0] -/
  markSeq : Nat
  /-- holder that the mark accepted in the present network cycle names, with its sequence [2 + 16 | 14 R285 | none] -/
  named : Option (Nat × Nat)
  /-- a mark was accepted in the network cycle before [1 | 14 R296 | 0] -/
  markHeld : Bool
  /-- this member commands [1 | 14 R285 | 0] -/
  commanding : Bool
  /-- this member is ready, heartbeat m2 [1 | 14 R283 | 0] -/
  ready : Bool
  /-- yield, heartbeat m3, with the network cycles it has stood [7 | 14 R295 | none] -/
  yielding : Option Nat
  /-- consecutive network cycles without a mark holder [5 | 14 R294 | 0] -/
  noHolder : Nat
  /-- a partner heartbeat with m1 = 1 has been seen since the restart [1 | 14 R283 | 0] -/
  partnerSeen : Bool
  /-- the restart was cold, or from a checkpoint sealed while commanding or ready [1 | 14 R283 | 0] -/
  cleanStart : Bool
  /-- `DUP.SWEEP_PASSES` [16 | 14 Table 14-5 | 0] -/
  passes : Nat
  /-- mismatches in the present pass [1 | 14 R292 | 0] -/
  dirty : Bool
  /-- next sweep index to send or expected, in frames of 7 items [16 | 14 R290 | 0] -/
  sweepAt : Nat
  /-- `DUP.MISMATCH_TOTAL` [32 | 14 R292 | 0] -/
  mismatches : Nat
  /-- `DUP.SWITCH_TOTAL` [32 | 14 Table 14-5 | 0] -/
  switches : Nat
  /-- `DUP.LAST_GAP_US` [32 | 14 Table 14-5 | 0] -/
  gapUs : Nat
  /-- network cycles since the partner's last heartbeat with m1 = 1 [32 | 14 Table 14-5 | 0] -/
  sincePartner : Nat
  /-- referee: heartbeat word 0 of members 0 and 1 [2 x 16 | 14 R284 | 0] -/
  hb0 : Nat
  hb1 : Nat
  /-- referee: missed heartbeats of members 0 and 1 [2 x 8 | 14 R284 | 0] -/
  miss0 : Nat
  miss1 : Nat
  /-- referee: holder 0 none, 1 member 0, 2 member 1 [2 | 14 R284 | 0] -/
  holder : Nat
  /-- referee: mark sequence [16 | 14 R284 | 0] -/
  seq : Nat
  deriving DecidableEq, Repr

/-- An entry the module has written into a queue in host memory (Table 15-10 or 16-1). -/
structure OutEntry where
  /-- opcode echoed, 0xFF00 + event number, or tunnel entry type -/
  op : Nat
  tag : Nat
  flags : Nat
  /-- command queue of origin, event queue, or tunnel peer -/
  origin : Nat
  session : Nat
  status : Status
  detail : Nat
  /-- cycle count when written -/
  cycle : Nat
  payload : List Byte
  /-- CRC-32C appended after the payload (R35) -/
  crc : Word32
  deriving DecidableEq, Repr

/-- One queue block of BAR0 with what the queue holds (Tables 15-7 to 15-9). -/
structure Queue where
  /-- `Q_BASE_LO` [32 | 15 Table 15-7 | 0] -/
  baseLo : Word32
  /-- `Q_BASE_HI` [32 | 15 Table 15-7 | 0] -/
  baseHi : Word32
  /-- `Q_CFG` [32 | 15 Table 15-8 | 0x00000046] -/
  cfg : Word32
  /-- `Q_PROD` index [16 | 15 R308 | 0] -/
  prod : Nat
  /-- `Q_CONS` index [16 | 15 R308 | 0] -/
  cons : Nat
  /-- STALLED [1 | 15 Table 15-9 | 0] -/
  stalled : Bool
  /-- ERROR [1 | 15 Table 15-9 | 0] -/
  error : Bool
  /-- ERR_CODE [8 | 15 Table 15-9 | 0] -/
  errCode : Nat
  /-- OVERFLOW [16 | 15 Table 15-9 | 0] -/
  overflow : Nat
  /-- entries were dropped since the last one written [1 | 15 R322 | 0] -/
  dropped : Bool
  /-- next event sequence of the queue [16 | 15 Table 15-10 | 0] -/
  seq : Nat
  /-- entries between consumer and producer index of a module-producer queue [| 15 R308 | empty] -/
  held : List OutEntry
  deriving DecidableEq, Repr

/-- An open or pending session (R317, R318). -/
structure Session where
  num : Nat
  udp : Bool
  key : Nat
  opened : Bool
  nonce : Nat
  srcAddr : Nat
  srcPort : Nat
  deriving DecidableEq, Repr

/-- A command whose answer is still due (R310, R312). -/
structure Outstanding where
  op : Nat
  queue : Nat
  tag : Nat
  flags : Nat
  target : Nat
  session : Nat
  srcAddr : Nat
  srcPort : Nat
  /-- request slot that will answer it -/
  slot : Option Nat
  deriving DecidableEq, Repr

/-- A response sent over UDP, kept for re-sending (R320). -/
structure UdpSent where
  session : Nat
  tag : Nat
  entry : OutEntry
  deriving DecidableEq, Repr

/-- A frame or datagram the maintenance port has sent. -/
inductive PortOut where
  | arpReply
  | echoReply (data : List Byte)
  | datagram (addr port : Nat) (e : OutEntry)
  deriving DecidableEq, Repr

/-- The steward's host side. -/
structure HostLink where
  /-- queues Q00 to Q63 [64 blocks | 15 R307 | reset blocks] -/
  queues : List Queue
  /-- `SCRATCH` [32 | 15 R304 | 0] -/
  scratch : Word32
  /-- `CDC_TIMEOUT` flag [1 | 15 R304 | 0] -/
  cdcFlag : Bool
  /-- island of the last crossing timeout [4 | 15 R304 | 0] -/
  cdcIsland : Nat
  /-- crossing timeouts since reset [16 | 15 R304 | 0] -/
  cdcCount : Nat
  /-- `ABORT_LOG` offset, reason and count [16 + 4 + 12 | 15 R304 | 0] -/
  abortOff : Nat
  abortReason : Nat
  abortCount : Nat
  /-- AER has logged a Completer Abort of a posted write [1 | 15 R302 | D0] -/
  aerAbort : Bool
  /-- `EVT_ROUTE` registers [64 x 32 | 15 Table 15-5 | 0x10101010] -/
  evtRoute : List Word32
  /-- MSI-X vectors masked [32 x 1 | 15 R323 | masked (PRESUMED, log 9)] -/
  masked : List Nat
  /-- MSI-X pending bits [32 x 1 | 15 R323 | 0] -/
  pba : List Nat
  /-- MSI-X message addresses and data, by BAR0 offset of the DWORD; one not listed reads 0 [32 x 96 | 15 Table 15-1 | 0 (PRESUMED, log 9)] -/
  msix : List (Nat × Word32)
  /-- MSI-X messages sent, newest first [| 15 R323 | empty] -/
  messages : List Nat
  /-- Bus Master Enable [1 | 15 R299 | 0] -/
  busMaster : Bool
  /-- function in D0 [1 | 15 R299 | 1 (PRESUMED, log 9)] -/
  inD0 : Bool
  /-- `HST.LINK_SPEED` [2 | 15 Table 15-13 | 0] -/
  linkSpeed : Nat
  /-- sessions open or pending [4 | 15 R317 | empty] -/
  sessions : List Session
  /-- next session number [16 | 15 R317 | 1] -/
  nextSession : Nat
  /-- nonces drawn so far: index of the next free nonce [| 15 R317 | D0 (free value)] -/
  nonces : Nat
  /-- consecutive AUTH answers over PCIe and UDP [2 x 3 | 15 R317 | 0] -/
  authRunPcie : Nat
  authRunUdp : Nat
  /-- opens locked out over PCIe and UDP [2 x 1 | 15 R317 | 0] -/
  lockPcie : Bool
  lockUdp : Bool
  /-- commands outstanding [256 | 15 R310 | empty] -/
  outstanding : List Outstanding
  /-- occurrence count of each event source [256 x 32 | 15 R322 | 0] -/
  evtCount : List (Nat × Nat)
  /-- raises held back while the steward is down [| 01 R11 | empty] -/
  heldEvents : List Raise
  /-- `HST.AUTH_FAIL_TOTAL` [32 | 15 Table 15-13 | 0] -/
  authFails : Nat
  /-- `HST.BUSY_TOTAL` [32 | 15 Table 15-13 | 0] -/
  busyTotal : Nat
  /-- `HST.FRAMING_TOTAL` [32 | 15 Table 15-13 | 0] -/
  framing : Nat
  /-- `HST.RESP_DISCARD_TOTAL` [32 | 15 R300 | 0] -/
  discards : Nat
  /-- entries waiting in Q15: opcode and entry [| 15 R319 | empty] -/
  udpQueue : List (Nat × Entry)
  /-- last responses sent per UDP session [16 each | 15 R320 | empty] -/
  udpSent : List UdpSent
  /-- what the maintenance port has sent, newest first [| 15 R319 | empty] -/
  portOut : List PortOut
  /-- reassemblies open, by identification [8 | 15 R319 | empty] -/
  reassemblies : List Nat
  /-- J1 works [1 | 20 Table 20-5 | 0] -/
  j1Up : Bool
  /-- Gweten serves [1 | 01 R11 | 0] -/
  stewardUp : Bool
  deriving DecidableEq, Repr

/-- Parameters the host may write: stored value and value in use, by ID (R315). -/
structure ParamCell where
  id : Nat
  stored : Nat
  inUse : Nat
  deriving DecidableEq, Repr

/-- The exchange states of Table 8-3. -/
inductive XchgState where
  | idle | loading | prepared | committing
  deriving DecidableEq, Repr

/-- The exchange as the lanes and the steward run it. -/
structure Xchg where
  /-- `ILK.XCHG_STATE` [2 | 08 R153 | 0] -/
  state : XchgState
  /-- `ILK.XCHG_TARGET` [32 | 08 R154 | 0] -/
  target : Nat
  /-- `ILK.XCHG_REASON` [8 | 08 R173 | 0] -/
  reason : Nat
  /-- `ILK.XCHG_TOTAL` [32 | 08 R173 | 0] -/
  total : Nat
  /-- a load runs [1 | 04 R87 | 0] -/
  loading : Bool
  /-- the `ilk.exchange_prepare` that waits for its answer [| 08 R152 | none] -/
  asked : Option Outstanding
  /-- digest the prepare names [512 | 08 R152 | 0] -/
  digest : Digest
  deriving DecidableEq, Repr

/-- What the steward holds of the lanes' safety words: copies of the latest closed cycle (R15, R32). -/
structure Copies where
  /-- cycle count of the copies -/
  cycle : Nat
  /-- the lane whose word store is copied -/
  lane : LaneId
  /-- galleys as the lanes sealed them -/
  galleys : Tri (List Word64)
  store : List (Nat × Word64)
  /-- the program's own values of forced positions (R169) -/
  shadow : List (Nat × Nat)
  /-- effective age bound of each remote input point, network cycles -/
  bounds : List (Nat × Nat)
  deriving DecidableEq, Repr

/-- The steward's request slots and what it holds for the lanes (R122, R188, R419). -/
structure Requests where
  /-- occupied request slots: slot number and what it asks; a force request, which takes none of the 256, has a number above 255 (log 33) [256 | 06 R122 | empty] -/
  slots : List (Nat × ReqKind)
  /-- per slot that holds a force, block clear or staging: session, key index and token sequence for the recorder [256 x 56 | 08 R174, 09 R188 | empty] -/
  origins : List (Nat × Nat × Nat × Nat)
  /-- requests waiting to be frozen at the next strobe [| 05 R93 | empty] -/
  waiting : List Req
  /-- requests frozen into the present cycle [| 05 R93 | empty] -/
  frozen : List Req
  /-- duplex: requests in the mirror of the present cycle, to be frozen into the next [| 14 R291 | empty] -/
  mirrored : List Req
  /-- auxiliary counters, index (code - 1) x 8 + authority [48 x 32 | 09 R188 | 0] -/
  auxCounts : List Nat
  /-- operator block list in steward MRAM [| 09 R419 | empty] -/
  blockList : List Nat
  /-- diagnostic copies of the lanes' words [| 01 R15, 02 R32, 05 Table 5-1 | none] -/
  copies : Option Copies
  /-- `QUO.LIMIT_TOTAL` [32 | 06 Table 6-10 | 0] -/
  limitTotal : Nat
  /-- `QUO.REFUSED_TOTAL` [32 | 06 Table 6-10 | 0] -/
  refusedTotal : Nat
  /-- `QUO.HIGH_WATER` [32 | 06 Table 6-10 | 0] -/
  highWater : Nat
  /-- `QUO.HELD` of lanes A, B, C at the last cycle close [3 x 32 | 06 Table 6-10 | 0] -/
  heldRows : Tri Nat
  /-- `QUO.SCRUB_FAULTS` of lanes A, B, C [3 x 32 | 06 Table 6-10 | 0] -/
  scrubFaults : Tri Nat
  /-- `ILK.RESTART_KIND` [8 | 05 R103 | D0] -/
  restartKind : Nat
  /-- `ILK.RESTART_CAUSE` [8 | 05 R103 | D0] -/
  restartCause : Nat
  /-- `ILK.OFF_TIME_S` [32 | 05 R103 | D0] -/
  offTimeS : Nat
  /-- `MOT.VIOLATION_TOTAL` [32 | 11 Table 11-11 | 0] -/
  motViolations : Nat
  /-- `MOT.SOURCE_FAULT_TOTAL` [32 | 11 Table 11-11 | 0] -/
  motFaults : Nat
  /-- `GRD.DEMAND_TOTAL` [32 | 11 Table 11-11 | 0] -/
  grdDemands : Nat
  /-- `GRD.DISCREPANCY_TOTAL` [32 | 11 Table 11-11 | 0] -/
  grdDiscs : Nat
  /-- `GRD.FEEDBACK_FAULT_TOTAL` [32 | 11 Table 11-11 | 0] -/
  grdFbs : Nat
  /-- `GRD.RESET_TOTAL` [32 | 11 Table 11-11 | 0] -/
  grdResets : Nat
  deriving DecidableEq, Repr

/-- A saved CRC context (R37 to R40). -/
structure CrcContext where
  num : Nat
  poly : Nat
  raw : Nat
  bytes : Nat
  session : Nat
  deriving DecidableEq, Repr

/-- A request waiting in a channel of the bridge for its minislot. -/
structure TunnelReq where
  channel : Nat
  peer : Nat
  seg : Segment
  /-- second segment of an Ethernet frame -/
  next : Option Segment
  deriving DecidableEq, Repr

/-- An outstanding read or write (R335 to R337). -/
structure Txn where
  tag : Nat
  channel : Nat
  peer : Nat
  addr : Nat
  isRead : Bool
  deriving DecidableEq, Repr

/-- A frame being reassembled, or waiting for its host queue (R332, R338). -/
structure Reassembly where
  channel : Nat
  peer : Nat
  tag : Nat
  data : List Byte
  /-- its sender spent a credit on it -/
  credited : Bool
  /-- complete and waiting for space in the receive queue -/
  whole : Bool
  entry : Option OutEntry
  deriving DecidableEq, Repr

/-- Credit state of one channel and peer (R332, R333). -/
structure Credit where
  channel : Nat
  peer : Nat
  sent : Nat
  consumed : Nat
  /-- frames consumed here -/
  mine : Nat
  /-- consumptions not yet reported -/
  unreported : Nat
  deriving DecidableEq, Repr

/-- One RS-485 port. -/
structure Serial where
  /-- the driver is enabled and a telegram goes out [1 | 16 R339 | 0] -/
  sending : Bool
  /-- telegrams waiting, oldest first [8 | 16 R340 | empty] -/
  waiting : List Telegram
  /-- telegrams sent, newest first [| 16 R340 | empty] -/
  out : List Telegram
  deriving DecidableEq, Repr

/-- One side-band poll (R341). -/
structure Poll where
  slot : Nat
  block : List Byte
  /-- time since the block was read, as network cycles count it -/
  ageNs : Nat
  fails : Nat
  lost : Bool
  deriving DecidableEq, Repr

/-- The bridge and tunnel unit. -/
structure Bridge where
  /-- running [1 | 16 R342 | 0] -/
  on : Bool
  /-- channels whose transmit queues held entries at `brg.stop`: they wait for `brg.start` [8 x 1 | 16 Table 16-7 | empty] -/
  paused : List Nat
  /-- requests waiting for a dynamic frame, oldest first [| 16 R334 | empty] -/
  tx : List TunnelReq
  /-- replies and completions waiting [| 16 R334 | empty] -/
  replies : List Segment
  /-- second segments due [| 16 R334 | empty] -/
  seconds : List Segment
  /-- credit-only segments due [| 16 R332 | empty] -/
  credits : List Segment
  /-- segments sent, newest first [| 16 R331 | empty] -/
  sent : List Segment
  /-- credit state per channel and peer [128 | 16 R332 | empty] -/
  credit : List Credit
  /-- outstanding reads and writes [256 + 256 | 16 R337 | empty] -/
  txns : List Txn
  /-- reassembly buffers in use [512 x 1536 B | 16 R332 | empty] -/
  reasm : List Reassembly
  /-- RS-485 port S0 [| 16 R339 | idle] -/
  s0 : Serial
  /-- RS-485 port S1 [| 16 R339 | idle] -/
  s1 : Serial
  /-- polls [64 | 16 R341 | empty] -/
  polls : List Poll
  /-- `BRG.TX_FRAMES` [8 x 32 | 16 Table 16-5 | 0] -/
  txFrames : List Nat
  /-- `BRG.RX_FRAMES` [8 x 32 | 16 Table 16-5 | 0] -/
  rxFrames : List Nat
  /-- `BRG.DROP_TOTAL` [32 | 16 Table 16-5 | 0] -/
  drops : Nat
  /-- next channel of the round robin [3 | 16 R334 | 0] -/
  turn : Nat
  /-- frame sequence of tunnel segments [16 | 16 Table 16-3 | 0] -/
  seq : Nat
  deriving DecidableEq, Repr

/-- A NAND slot of one image type (R344). -/
structure NandSlot where
  /-- sealed as verified [1 | 17 R353 | 0] -/
  verified : Bool
  /-- the slot's colophon [512 B | 17 R353 | none] -/
  colophon : Option Colophon
  /-- the chunks as stored, each with its CRC-64/XZ [| 17 R351 | empty] -/
  chunks : List (Nat × List Byte)
  deriving DecidableEq, Repr

/-- One image type's entry of a boot record (Table 17-5). -/
structure BootEntry where
  current : Nat
  trial : Option Nat
  currentVersion : Nat
  trialVersion : Nat
  floor : Nat
  deriving DecidableEq, Repr

/-- A boot record (Table 17-5). -/
structure BootRec where
  valid : Bool
  seq : Nat
  entries : List BootEntry
  cfgSlot : Nat
  cfgOld : Option Nat
  format : Nat
  oldFormat : Nat
  deriving DecidableEq, Repr

/-- The update session (R349, R352). -/
structure UpdSession where
  colophon : Colophon
  source : Nat
  /-- chunk bitmap: indices held -/
  held : List Nat
  /-- chunks in update staging in NAND: index, and ciphertext, tag and CRC-64/XZ (R351) -/
  stored : List (Nat × List Byte)
  deriving DecidableEq, Repr

/-- The crypto and image unit's update state. -/
structure Update where
  /-- `UPD.STATE` [3 | 17 Table 17-10 | 0] -/
  state : Nat
  /-- the session [| 17 R349 | none] -/
  session : Option UpdSession
  /-- chunk parts in staging SRAM: index, part, data [32 chunks | 17 R350 | empty] -/
  parts : List (Nat × Nat × List Byte)
  /-- inactivity count, s [32 | 17 R352 | 0] -/
  idleS : Nat
  /-- NAND slots, index (type - 1) x 2 + slot [8 | 17 R344 | empty] -/
  nand : List NandSlot
  /-- boot records 0 and 1 [2 x 128 B | 17 R355 | invalid] -/
  boot0 : BootRec
  boot1 : BootRec
  /-- trial counter: sequence it belongs to and count [40 | 17 Table 17-6 | 0] -/
  trialSeq : Nat
  trialCount : Nat
  /-- slots booted, by type [4 x 1 | 17 R356 | 0] -/
  booted : List Nat
  /-- an attestation report is being signed: the command that waits and the report [1 | 17 R363 | none] -/
  signing : Option (Outstanding × List Byte)
  deriving DecidableEq, Repr

/-- The life-cycle controller (R371). -/
structure Life where
  /-- life-cycle state [3 | 18 R365 | Manufacture] -/
  state : LifeState
  /-- authority key and installation identity [456 + 64 | 18 R371 | none] -/
  authority : KeyBits
  installation : Nat
  /-- maintainer keys 0 to 7 [8 x 456 | 18 R371 | none] -/
  maintainer : List KeyBits
  /-- host credential keys 0 to 7 [8 x 456 | 18 R371 | none] -/
  host : List KeyBits
  /-- token counters: root, authority, maintainers 0 to 7 [10 x 32 | 18 R370 | 0] -/
  counters : List Nat
  /-- in-service proof timer, `PRF.INSERVICE_S` [32 | 18 R375 | 0] -/
  inServiceS : Nat
  /-- sequence number of the life-cycle record [32 | 18 R371 | 0] -/
  seq : Nat
  /-- `LCS.TRANSITION_TOTAL` [32 | 18 Table 18-10 | 0] -/
  transitions : Nat
  deriving DecidableEq, Repr

/-- A stored proof result (Table 18-6). -/
structure ProofRec where
  block : Nat
  kind : Nat
  verdict : Nat
  applied : Nat
  expected : Nat
  signature : Word64
  endSeal : Word32
  recSeq : Nat
  deriving DecidableEq, Repr

/-- The proof engine. -/
structure Proofs where
  /-- last record per block and kind [| 18 R373 | empty] -/
  results : List ProofRec
  /-- `PRF.FAIL_MASK`: block codes that failed at the last start [25 | 18 R374 | empty] -/
  failed : List Nat
  /-- `PRF.NEXT_LANE` [2 | 18 R375 | A] -/
  nextLane : LaneId
  /-- lane whose in-service or user proof waits for isolation, with the proof kind [2 | 18 R375 | none] -/
  requested : Option (LaneId × Nat)
  /-- proof that runs: block and kind [| 18 R378 | none] -/
  running : Option (Nat × Nat)
  /-- the bank or port that a user proof runs on was blocked or held down before it [1 | 18 R378 | 0] -/
  wasBlocked : Bool
  /-- lane that rejoins at the next cycle [2 | 18 R377 | none] -/
  rejoin : Option LaneId
  deriving DecidableEq, Repr

/-- A recorder item (Tables 19-2, R382, R383). `bins` has the bin counts; `below`, `above`, `total` close a histogram;
`min` and `max` are the blocks of an extreme: value, sequence, detail. -/
structure RecItem where
  num : Nat
  bins : List (Nat × Nat)
  below : Nat
  above : Nat
  total : Nat
  min : Option (Int × Nat × List Byte)
  max : Option (Int × Nat × List Byte)
  seq : Nat
  saturated : Bool
  deriving DecidableEq, Repr

/-- A recorder clear under way (R389). -/
structure RecClear where
  c : Nat
  s : Nat
  tokenSeq : Nat
  key : Nat
  session : Nat
  answer : Outstanding
  deriving DecidableEq, Repr

/-- The recorder. -/
structure Recorder where
  /-- items that are not empty [15 360 | 19 R381 | empty] -/
  items : List RecItem
  /-- `REC.SEQ` [64 | 19 R384 | 1] -/
  seq : Nat
  /-- batches waiting, oldest first [64 | 19 R389 | empty] -/
  pending : List (List RecUpd)
  /-- clear under way, the clear state [| 19 R389 | none] -/
  clearing : Option RecClear
  /-- sequence of the last clear [64 | 19 R388 | 0] -/
  lastClear : Nat
  /-- `REC.CLEAR_TOTAL` [32 | 19 R389 | 0] -/
  clears : Nat
  /-- `REC.SEAL_FAULTS` [32 | 19 R386 | 0] -/
  sealFaults : Nat
  /-- occurrences of each event source whose event was lost in a crossing, which the source's count keeps and the recorder has not
  counted yet [256 x 32 | 19 R382, 20 R403 | empty] -/
  uncounted : List (Nat × Nat)
  deriving DecidableEq, Repr

/-- The model's own counters of free values: not the spec's state (log 2). -/
structure Free where
  /-- index of the next free value [| model | DESIGN CHOICE 0 (log 2)] -/
  next : Nat
  deriving DecidableEq, Repr

/-- The whole module, and the queue of commands that wait. -/
structure State where
  ident : Ident
  power : Power
  lanes : Tri LaneState
  platen : Platen
  field : Field
  net : Net
  train : Train
  duplex : Duplex
  host : HostLink
  params : List ParamCell
  xchg : Xchg
  req : Requests
  crc : List CrcContext
  bridge : Bridge
  update : Update
  life : Life
  /-- the older copy of the life-cycle record (R371) -/
  lifeOlder : Life
  proofs : Proofs
  recorder : Recorder
  free : Free
  pending : List Instr
  deriving DecidableEq, Repr

/-- Why a step could fault. No command of this block faults: the spec gives every one an effect (log 3). -/
inductive Fault where
  /-- raised by nothing; safe -/
  | none
  deriving DecidableEq, Repr

/-- Why a command has no meaning yet. -/
inductive Refusal where
  /-- raised by exec for a row whose meaning is not written; safe -/
  | notModelled (mnemonic : String)
  deriving DecidableEq, Repr

/-! ### The module before it is powered

Every field at the value its docstring names; see log 12 for the choice of the unpowered module as the state
after reset. -/

/-- The same value for each lane. -/
def Tri.all {α : Type} (x : α) : Tri α := { a := x, b := x, c := x }

/-- The same value for each port. -/
def Quad.all {α : Type} (x : α) : Quad α := { xe := x, xw := x, ye := x, yw := x }

def Ident.reset : Ident :=
  { variant := .l, hwRev := 0, serial := 0, fwVersion := 0, rootKey := 0, x448Key := 0, identityKey := 0 }

def Power.reset : Power :=
  { running := false, powered := false, resetHeld := false, resetStuck := false, islandValid := false,
    offCounting := false, laneHeld := .all false, cryptoDown := false, netDown := false, vsMv := 0, holdupMv := 0,
    holdupOk := false, startCause := 0, powerups := 0, resets := 0, pfs := 0, ga := 0, tempMax := 0,
    cdc := List.replicate 14 0, subNs := 0, poweredS := 0, coldAsked := false }

def FormeSlot.empty : FormeSlot := { state := .empty, forme := none, digest := 0, loadSeq := 0, runSeq := 0, colophon := none }

def TrainMem.empty : TrainMem := { claim := none, passed := false, everPassed := false, fails := 0, request := false }

/-- The evaluation state with nothing in it. -/
def LaneCore.empty : LaneCore :=
  { cycle := 0, store := [], quoin := [], frisket := [], shadow := [], points := [], signals := [], swept := [], sweeps := [],
    crossings := [], routes := [], ovlAux := [], stagings := [], opBlocks := [], voBlocked := [], bankBlocked := [], bankFaults := [],
    holds := [], edges := [], lastGalley := [], funcs := [], unavail := [], restore := [], headRef := [],
    train := .empty, sweepRow := 0, sweepTail := [], sweepLost := false }

def Checkpoint.empty : Checkpoint := { isSealed := false, count := 0, digest := 0, clean := false, core := .empty }

def LaneState.reset : LaneState :=
  { held := true, gate := false, slot0 := .empty, slot1 := .empty, half0 := .empty, half1 := .empty, lastHalf := 0,
    writing := none, core := .empty, galley := none, records := [], events := [], recs := [], demands := 0, resets := 0,
    adopted := 0, quoinSound := true,
    badRows := [], lostWords := [], evalUs := 0, eccCorrected := 0, eccBad := 0, regionFaults := 0, temp := 0, firmware := none }

def Copy.empty : Copy := { got := .all none, voted := none, verdict := 0 }

def Platen.reset : Platen :=
  { lanes := .all .excluded, copies := .all .empty, safe := false, safeCause := 0, safeAsked := .all false,
    reported := .all false, excludeAfter := 2, windowUs := 1000, complete := false, out := .all [], overrunRun := 0,
    overruns := 0, stretched := false, lengthened := false, cycleOpen := false, emitted := [] }

def Field.reset : Field :=
  { permits := [], latchedOut := .all false, needOff := [], sealTag := 0, safeN := true, uoCmd := .all [],
    uoOn := [], uoThermal := [], ubankOff := [], voBad := [], pathBad := [], stuckOpen := [], stuckClosed := [], voLatched := [], overload := [],
    ubankBlocked := [], outOfRange := [], lineBad := [], link := false, counts := [], counts2 := [], agreed := [],
    rateBad := [], seqBad := [], periods := [], periods2 := [], agreedHz := [],
    freqBad := [], sealed := [], supplyMv := List.replicate 6 0, inputsOn := [], rawOn := [], pendingUs := [], voOn := [], voMa := [], lineUa := [],
    railOn := [], skips := 0, temp := 0, findings := [] }

def Port.reset : Port :=
  { mode := .down, latency := 0, heldDown := false, counters := List.replicate 8 0, joined := false, tripped := false,
    shut := false, guardOff := 0, guardRc := 0, page := none }

def Net.reset : Net :=
  { mode := .stopped, ports := .all .reset, cycleNs := 1000000, count := 0, atStart := false, countKnown := false, phase := 0,
    adopt := none, netCycle := 0, minislot := 1, buffers := [], snapshot := [], copies := [], tx := [],
    txNext := none, sent := [], sends := false, arrivals := [], waited := 0, off := 0, rc := 0, dev := 0, prev := [], syncSeen := 0, good := 0, silent := 0,
    coldSent := 0, sinceRun := 0, selfSilence := 0, trips := 0, coldstarts := 0, slips := 0, mismatches := 0,
    notAdmitted := 0, engineBad := false, imp := none, nodes := [], self := 0 }

def Train.reset : Train :=
  { attempt := 0, cause := 0, coupled1 := false, coupled2 := false, results := [], sweeps := 0, sent := [],
    stops := [], state := 0, failCause := 0, number := 0, orient := 0, count := 0, sinceEntry := 0, proofFails := 0,
    ligatures := [], inaugCount := 0, lastUs := 0, fails := 0, cab1 := false, cab2 := false, request := false }

def Duplex.reset : Duplex :=
  { mark := 0, markSeq := 0, named := none, markHeld := false, commanding := false, ready := false, yielding := none, noHolder := 0,
    partnerSeen := false, cleanStart := false, passes := 0, dirty := false, sweepAt := 0, mismatches := 0,
    switches := 0, gapUs := 0, sincePartner := 0, hb0 := 0, hb1 := 0, miss0 := 0, miss1 := 0, holder := 0, seq := 0 }

/-- A queue block as a reset leaves it (Tables 15-7 and 15-8). -/
def Queue.reset : Queue :=
  { baseLo := 0, baseHi := 0, cfg := 0x00000046, prod := 0, cons := 0, stalled := false, error := false,
    errCode := 0, overflow := 0, dropped := false, seq := 0, held := [] }

def HostLink.reset : HostLink :=
  { queues := List.replicate 64 .reset, scratch := 0, cdcFlag := false, cdcIsland := 0, cdcCount := 0,
    abortOff := 0, abortReason := 0, abortCount := 0, aerAbort := false, evtRoute := List.replicate 64 0x10101010,
    masked := List.range 32, pba := [], msix := [], messages := [], busMaster := false, inD0 := true, linkSpeed := 0,
    sessions := [], nextSession := 1, nonces := 0, authRunPcie := 0, authRunUdp := 0, lockPcie := false,
    lockUdp := false, outstanding := [], evtCount := [], heldEvents := [], authFails := 0, busyTotal := 0,
    framing := 0, discards := 0, udpQueue := [], udpSent := [], portOut := [], reassemblies := [], j1Up := false,
    stewardUp := false }

def Xchg.reset : Xchg :=
  { state := .idle, target := 0, reason := 0, total := 0, loading := false, asked := none, digest := 0 }

def Requests.reset : Requests :=
  { slots := [], origins := [], waiting := [], frozen := [], mirrored := [], auxCounts := List.replicate 48 0, blockList := [], copies := none, limitTotal := 0,
    refusedTotal := 0, highWater := 0, heldRows := .all 0, scrubFaults := .all 0, restartKind := 0,
    restartCause := 0, offTimeS := 0, motViolations := 0, motFaults := 0, grdDemands := 0, grdDiscs := 0,
    grdFbs := 0, grdResets := 0 }

def Serial.reset : Serial := { sending := false, waiting := [], out := [] }

def Bridge.reset : Bridge :=
  { on := false, paused := [], tx := [], replies := [], seconds := [], credits := [], sent := [], credit := [], txns := [],
    reasm := [], s0 := .reset, s1 := .reset, polls := [], txFrames := List.replicate 8 0,
    rxFrames := List.replicate 8 0, drops := 0, turn := 0, seq := 0 }

def BootEntry.empty : BootEntry := { current := 0, trial := none, currentVersion := 0, trialVersion := 0, floor := 0 }

def BootRec.empty : BootRec :=
  { valid := false, seq := 0, entries := List.replicate 4 .empty, cfgSlot := 0, cfgOld := none, format := 0,
    oldFormat := 0 }

def Update.reset : Update :=
  { state := 0, session := none, parts := [], idleS := 0, nand := List.replicate 8 { verified := false, colophon := none, chunks := [] },
    boot0 := .empty, boot1 := .empty, trialSeq := 0, trialCount := 0, booted := List.replicate 4 0, signing := none }

def Life.reset : Life :=
  { state := .manufacture, authority := 0, installation := 0, maintainer := List.replicate 8 0,
    host := List.replicate 8 0, counters := List.replicate 10 0, inServiceS := 0, seq := 0, transitions := 0 }

def Proofs.reset : Proofs :=
  { results := [], failed := [], nextLane := .a, requested := none, running := none, wasBlocked := false, rejoin := none }

def Recorder.reset : Recorder :=
  { items := [], seq := 1, pending := [], clearing := none, lastClear := 0, clears := 0, sealFaults := 0, uncounted := [] }

/-- The block as it stands before VS first rises (log 12): nothing runs, every die is in reset, every memory is
empty, and no command waits. POWER_UP starts it. -/
def State.reset : State :=
  { ident := .reset, power := .reset, lanes := .all .reset, platen := .reset, field := .reset, net := .reset,
    train := .reset, duplex := .reset, host := .reset, params := [], xchg := .reset, req := .reset, crc := [],
    bridge := .reset, update := .reset, life := .reset, lifeOlder := .reset, proofs := .reset, recorder := .reset,
    free := { next := 0 }, pending := [] }

end Sys2Proof.Machine
end

