-- ==== Sys2Proof/Machine/Ops.lean ====
section
/-! DEFINITION. The plain operations on registers, lists and memories that every chapter uses: one value per lane or
port, keyed lists, saturating counters, byte order, and the word store. -/

namespace Sys2Proof

def LaneId.all : List LaneId := [.a, .b, .c]

/-- 0 A, 1 B, 2 C. -/
def LaneId.num : LaneId → Nat
  | .a => 0
  | .b => 1
  | .c => 2

def LaneId.ofNum : Nat → LaneId
  | 0 => .a
  | 1 => .b
  | _ => .c

def PortId.all : List PortId := [.xe, .xw, .ye, .yw]

/-- 0 XE, 1 XW, 2 YE, 3 YW (Table 12-15). -/
def PortId.num : PortId → Nat
  | .xe => 0
  | .xw => 1
  | .ye => 2
  | .yw => 3

/-- The port at the other end of this node's ring. -/
def PortId.opposite : PortId → PortId
  | .xe => .xw
  | .xw => .xe
  | .ye => .yw
  | .yw => .ye

/-- The ports of ring Y. -/
def PortId.ringY : PortId → Bool
  | .xe | .xw => false
  | .ye | .yw => true

/-- The ports that face east. -/
def PortId.isEast : PortId → Bool
  | .xe | .ye => true
  | .xw | .yw => false

end Sys2Proof

namespace Sys2Proof.Machine

/-! ### One value per lane or port -/

def Tri.get {α : Type} (t : Tri α) : LaneId → α
  | .a => t.a
  | .b => t.b
  | .c => t.c

def Tri.set {α : Type} (t : Tri α) (l : LaneId) (x : α) : Tri α :=
  match l with
  | .a => { t with a := x }
  | .b => { t with b := x }
  | .c => { t with c := x }

def Tri.upd {α : Type} (t : Tri α) (l : LaneId) (f : α → α) : Tri α := t.set l (f (t.get l))

def Tri.map {α β : Type} (f : α → β) (t : Tri α) : Tri β := { a := f t.a, b := f t.b, c := f t.c }

/-- The same operation in every lane, told which lane it is. -/
def Tri.mapL {α β : Type} (f : LaneId → α → β) (t : Tri α) : Tri β := { a := f .a t.a, b := f .b t.b, c := f .c t.c }

def Tri.toList {α : Type} (t : Tri α) : List α := [t.a, t.b, t.c]

/-- The lanes for which a predicate holds, in order A, B, C. -/
def lanesWhere (p : LaneId → Bool) : List LaneId := LaneId.all.filter p

def Quad.get {α : Type} (t : Quad α) : PortId → α
  | .xe => t.xe
  | .xw => t.xw
  | .ye => t.ye
  | .yw => t.yw

def Quad.set {α : Type} (t : Quad α) (p : PortId) (x : α) : Quad α :=
  match p with
  | .xe => { t with xe := x }
  | .xw => { t with xw := x }
  | .ye => { t with ye := x }
  | .yw => { t with yw := x }

def Quad.upd {α : Type} (t : Quad α) (p : PortId) (f : α → α) : Quad α := t.set p (f (t.get p))

def Quad.map {α β : Type} (f : α → β) (t : Quad α) : Quad β := { xe := f t.xe, xw := f t.xw, ye := f t.ye, yw := f t.yw }

def Quad.toList {α : Type} (t : Quad α) : List α := [t.xe, t.xw, t.ye, t.yw]

/-! ### Keyed lists, in rising order of their keys -/

/-- The value stored under a key. -/
def kvGet {α : Type} : List (Nat × α) → Nat → Option α
  | [], _ => none
  | (k, v) :: t, a => if k = a then some v else kvGet t a

/-- Store a value under a key, keeping the keys in rising order. -/
def kvSet {α : Type} : List (Nat × α) → Nat → α → List (Nat × α)
  | [], a, v => [(a, v)]
  | (k, w) :: t, a, v =>
    if a < k then (a, v) :: (k, w) :: t
    else if a = k then (a, v) :: t
    else (k, w) :: kvSet t a v

/-- Drop a key. -/
def kvDel {α : Type} : List (Nat × α) → Nat → List (Nat × α)
  | [], _ => []
  | (k, w) :: t, a => if a = k then t else (k, w) :: kvDel t a

/-- The value under a key, or a default. -/
def kvGetD {α : Type} (l : List (Nat × α)) (a : Nat) (d : α) : α := (kvGet l a).getD d

/-- Change the value under a key, starting from a default. -/
def kvUpd {α : Type} (l : List (Nat × α)) (a : Nat) (d : α) (f : α → α) : List (Nat × α) := kvSet l a (f (kvGetD l a d))

/-- Keys strictly rising. -/
def kvSorted {α : Type} : List (Nat × α) → Bool
  | [] => true
  | [_] => true
  | (a, _) :: (b, y) :: t => decide (a < b) && kvSorted ((b, y) :: t)

/-- Element i of a list, or a default beyond its end. -/
def nthD {α : Type} (l : List α) (i : Nat) (d : α) : α := l.getD i d

/-- Replace element i of a list; beyond the end nothing changes. -/
def setNth {α : Type} : List α → Nat → α → List α
  | [], _, _ => []
  | _ :: t, 0, v => v :: t
  | h :: t, i + 1, v => h :: setNth t i v

def updNth {α : Type} (l : List α) (i : Nat) (d : α) (f : α → α) : List α := setNth l i (f (nthD l i d))

/-- Put an element into a sorted list, after those that stand before it or equal it. -/
def sortInsert {α : Type} (le : α → α → Bool) (x : α) : List α → List α
  | [] => [x]
  | y :: t => if le x y then x :: y :: t else y :: sortInsert le x t

/-- Sort by an order, elements of equal rank in the order they stood in. -/
def sortBy {α : Type} (le : α → α → Bool) (l : List α) : List α := l.foldr (sortInsert le) []

/-- Add a number to a list that holds each number once. -/
def insertOnce (l : List Nat) (n : Nat) : List Nat := if l.contains n then l else l ++ [n]

/-- Take a number out of a list. -/
def removeAll (l : List Nat) (n : Nat) : List Nat := l.filter (· != n)

/-- The number in the list exactly when the flag is set. -/
def withFlag (l : List Nat) (n : Nat) (on : Bool) : List Nat := if on then insertOnce l n else removeAll l n

/-- A list with each element paired with its position. -/
def indexed {α : Type} (l : List α) : List (Nat × α) := (List.range l.length).zip l

/-- Position of the first element for which a predicate holds. -/
def findIdx {α : Type} (p : α → Bool) (l : List α) : Option Nat := ((indexed l).find? (fun q => p q.2)).map (·.1)

/-! ### Counters -/

/-- A 32-bit counter that saturates (R325). -/
def sat32 (n k : Nat) : Nat := min (n + k) 0xFFFFFFFF

/-- A 16-bit count that saturates. -/
def sat16 (n k : Nat) : Nat := min (n + k) 65535

/-- A 16-bit value read as signed (R139). -/
def signed16 (n : Nat) : Int := if n % 65536 < 32768 then (n % 65536 : Nat) else ((n % 65536 : Nat) : Int) - 65536

/-- A signed value as its 16-bit word. -/
def toU16 (i : Int) : Nat := (i % 65536).toNat

/-- A 32-bit value read as signed. -/
def signed32 (n : Nat) : Int :=
  if n % 4294967296 < 2147483648 then (n % 4294967296 : Nat) else ((n % 4294967296 : Nat) : Int) - 4294967296

/-- A signed value as its 32-bit word. -/
def toU32 (i : Int) : Nat := (i % 4294967296).toNat

/-- ⌈n / d⌉ for a nonzero d. -/
def ceilDiv (n d : Nat) : Nat := (n + d - 1) / d

/-- Clamp to a range, bounds included. -/
def clamp (lo hi n : Nat) : Nat := max lo (min hi n)

/-! ### Byte order (R6) -/

/-- w bytes of n, least significant first. -/
def leBytes : Nat → Nat → List Byte
  | 0, _ => []
  | w + 1, n => BitVec.ofNat 8 n :: leBytes w (n / 256)

/-- The number little-endian bytes spell. -/
def leNat : List Byte → Nat
  | [] => 0
  | b :: t => b.toNat + 256 * leNat t

/-- The number big-endian bytes spell. -/
def beNat (l : List Byte) : Nat := leNat l.reverse

/-- w bytes of n, most significant first. -/
def beBytes (w n : Nat) : List Byte := (leBytes w n).reverse

/-- n bytes from an offset, as a little-endian number; bytes beyond the end read 0. -/
def fieldAt (l : List Byte) (off n : Nat) : Nat := leNat ((l.drop off).take n)

/-! ### The word store (R77): an unlisted address holds the all-zero word -/

/-- The word at an address. -/
def storeGet (st : List (Nat × Word64)) (a : Nat) : Word64 := kvGetD st a 0

/-- Write a word; writing the all-zero word removes the entry, so equal stores are equal lists. -/
def storeSet (st : List (Nat × Word64)) (a : Nat) (w : Word64) : List (Nat × Word64) :=
  if w = 0 then kvDel st a else kvSet st a w

/-- The canonical form: addresses strictly rising, no all-zero word. -/
def storeWf (st : List (Nat × Word64)) : Bool := kvSorted st && st.all (fun p => p.2 != 0)

/-! ### The lanes of a state -/

def State.setLane (s : State) (l : LaneId) (x : LaneState) : State := { s with lanes := s.lanes.set l x }

def State.updLane (s : State) (l : LaneId) (f : LaneState → LaneState) : State := s.setLane l (f (s.lanes.get l))

/-- The same change in every lane, told which lane it is. -/
def State.mapLanes (s : State) (f : LaneId → LaneState → LaneState) : State := { s with lanes := s.lanes.mapL f }

/-- The lane evaluates and votes: in service and not held in reset. -/
def State.laneIn (s : State) (l : LaneId) : Bool :=
  match s.platen.lanes.get l with
  | .inService _ => !(s.lanes.get l).held
  | _ => false

/-- The lanes in service. -/
def State.lanesIn (s : State) : List LaneId := lanesWhere s.laneIn

end Sys2Proof.Machine
end

