-- ==== Sys2Proof/Machine/Crc.lean ====
section
/-! DEFINITION. The four CRC parameter sets of Table 2-7, and the SHAKE256 digest of FIPS 202 that R86, R88 and the
colophon name. -/

namespace Sys2Proof.Machine

/-- Width of a polynomial code: 0 CRC-32C, 1 CRC-32/ISO-HDLC, 2 CRC-16/CCITT-FALSE, 3 CRC-64/XZ (Table 2-9). -/
def crcWidth : Nat → Nat
  | 2 => 16
  | 3 => 64
  | _ => 32

def crcPoly : Nat → Nat
  | 0 => 0x1EDC6F41
  | 1 => 0x04C11DB7
  | 2 => 0x1021
  | _ => 0x42F0E1EBA9EA3693

def crcReflected (p : Nat) : Bool := p != 2

/-- All ones of the polynomial's width: init of every set. -/
def crcOnes (p : Nat) : Nat := 2 ^ crcWidth p - 1

def crcXorout (p : Nat) : Nat := if p = 2 then 0 else crcOnes p

/-- One bit, most significant first, into a running value of width w. -/
def crcBit (w poly reg : Nat) (b : Bool) : Nat :=
  let r := reg * 2 % 2 ^ w
  if reg.testBit (w - 1) != b then Nat.xor r poly else r

/-- The bits of a byte in the order the set takes them. -/
def byteBits (reflected : Bool) (b : Byte) : List Bool :=
  let low := (List.range 8).map (fun i => b.toNat.testBit i)
  if reflected then low else low.reverse

/-- One byte folded into the raw, unreflected running value. -/
def crcByte (p reg : Nat) (b : Byte) : Nat := (byteBits (crcReflected p) b).foldl (crcBit (crcWidth p) (crcPoly p)) reg

/-- Bytes folded into the raw running value (`crc.feed`). -/
def crcFold (p reg : Nat) (l : List Byte) : Nat := l.foldl (crcByte p) reg

/-- A value of w bits with its bits in the other order. -/
def reflect (w n : Nat) : Nat := (List.range w).foldl (fun acc i => acc * 2 + b2 (n.testBit i)) 0
where
  b2 (b : Bool) : Nat := if b then 1 else 0

/-- The final value after reflection and xorout. -/
def crcFinal (p raw : Nat) : Nat := Nat.xor (if crcReflected p then reflect (crcWidth p) raw else raw) (crcXorout p)

/-- The CRC of a block of bytes. -/
def crcOf (p : Nat) (l : List Byte) : Nat := crcFinal p (crcFold p (crcOnes p) l)

/-- CRC-32C of a payload (R35). -/
def crc32c (l : List Byte) : Nat := crcOf 0 l

/-! ### SHAKE256 (FIPS 202; PRESUMED, log 11) -/

/-- Rotate a 64-bit lane left. -/
def rotl64 (x : Nat) (n : Nat) : Nat := Nat.lor (x * 2 ^ n % 2 ^ 64) (x / 2 ^ (64 - n))

/-- The 24 round constants of the step iota. -/
def keccakRC : List Nat :=
  [0x0000000000000001, 0x0000000000008082, 0x800000000000808A, 0x8000000080008000, 0x000000000000808B,
   0x0000000080000001, 0x8000000080008081, 0x8000000000008009] ++
  [0x000000000000008A, 0x0000000000000088, 0x0000000080008009, 0x000000008000000A, 0x000000008000808B,
   0x800000000000008B, 0x8000000000008089, 0x8000000000008003] ++
  [0x8000000000008002, 0x8000000000000080, 0x000000000000800A, 0x800000008000000A, 0x8000000080008081,
   0x8000000000008080, 0x0000000080000001, 0x8000000080008008]

/-- Rotation offsets of the step rho, index x + 5 y. -/
def keccakRot : List Nat :=
  [0, 1, 62, 28, 27, 36, 44, 6, 55, 20, 3, 10, 43] ++ [25, 39, 41, 45, 15, 21, 8, 18, 2, 61, 56, 14]

/-- One round of Keccak-f[1600] on 25 lanes, index x + 5 y. -/
def keccakRound (a : List Nat) (rc : Nat) : List Nat :=
  let at' (l : List Nat) (x y : Nat) : Nat := nthD l (x % 5 + 5 * (y % 5)) 0
  let c := (List.range 5).map (fun x => (List.range 5).foldl (fun acc y => Nat.xor acc (at' a x y)) 0)
  let d := (List.range 5).map (fun x => Nat.xor (nthD c ((x + 4) % 5) 0) (rotl64 (nthD c ((x + 1) % 5) 0) 1))
  let t := (List.range 25).map (fun i => Nat.xor (nthD a i 0) (nthD d (i % 5) 0))
  -- rho and pi: lane (x, y) goes to (y, 2 x + 3 y)
  let b := (List.range 25).map (fun i =>
    let x' := i % 5
    let y' := i / 5
    let x := (x' + 3 * y') % 5
    let y := x'
    rotl64 (at' t x y) (nthD keccakRot (x + 5 * y) 0))
  let e := (List.range 25).map (fun i =>
    let x := i % 5
    let y := i / 5
    Nat.xor (at' b x y) (Nat.land (2 ^ 64 - 1 - at' b (x + 1) y) (at' b (x + 2) y)))
  match e with
  | h :: r => Nat.xor h rc :: r
  | [] => []

def keccakF (a : List Nat) : List Nat := keccakRC.foldl keccakRound a

/-- The 64-bit lanes of a byte block. -/
def lanesOf : Nat → List Byte → List Nat
  | 0, _ => []
  | n + 1, l => leNat (l.take 8) :: lanesOf n (l.drop 8)

/-- One 136-byte block absorbed. -/
def shakeAbsorb (a : List Nat) (block : List Byte) : List Nat := keccakF ((a.zip (lanesOf 25 block)).map (fun p => Nat.xor p.1 p.2))

/-- The blocks of a message of at most n blocks, absorbed in order; the last holds the padding 0x1F … 0x80. -/
def shakeBlocks : Nat → List Nat → List Byte → List Nat
  | 0, a, _ => a
  | n + 1, a, l =>
    if l.length < 136 then
      let p := (l ++ [0x1F] ++ List.replicate 135 0).take 136
      shakeAbsorb a (setNth p 135 (nthD p 135 0 ||| 0x80))
    else shakeBlocks n (shakeAbsorb a (l.take 136)) (l.drop 136)

/-- SHAKE256 with 64-byte output, as a number whose most significant byte is the first. -/
def shake256 (l : List Byte) : Digest :=
  let a := shakeBlocks (l.length / 136 + 1) (List.replicate 25 0) l
  BitVec.ofNat 512 (beNat ((a.take 8).flatMap (leBytes 8)))

end Sys2Proof.Machine
end

