-- ==== Sys2Proof/Machine/Events.lean ====
section
/-! DEFINITION. Event numbers (Table 15-16), the outcome records of Tables 6-7 and 9-2 as bytes, and recorder updates. -/

namespace Sys2Proof.Machine

def evRestart : Nat := 0x00
def evResetStuck : Nat := 0x01
def evSafeState : Nat := 0x02
def evLaneExcluded : Nat := 0x03
def evOverrun : Nat := 0x04
def evFormeRefused : Nat := 0x05
def evRouteCleared : Nat := 0x10
def evRouteStalled : Nat := 0x11
def evRouteReleased : Nat := 0x12
def evRouteDisagree : Nat := 0x13
def evPointStroke : Nat := 0x14
def evPointLost : Nat := 0x15
def evSignalLamp : Nat := 0x16
def evHeadFail : Nat := 0x17
def evSectionDisturbed : Nat := 0x18
def evSectionSwept : Nat := 0x19
def evCrossingFail : Nat := 0x1A
def evExchangePrepared : Nat := 0x1B
def evExchangeRefused : Nat := 0x1C
def evExchangeDone : Nat := 0x1D
def evForceRemoved : Nat := 0x1E
def evSwitchFault : Nat := 0x30
def evDarkTestFail : Nat := 0x31
def evCrossConnect : Nat := 0x32
def evExtEnergised : Nat := 0x33
def evWireBreak : Nat := 0x34
def evOutputOverload : Nat := 0x35
def evBankOverload : Nat := 0x36
def evFieldSupply : Nat := 0x37
def evFieldLink : Nat := 0x38
def evGuardDiscrepancy : Nat := 0x39
def evGuardFeedback : Nat := 0x3A
def evMotionViolation : Nat := 0x3B
def evMotionSource : Nat := 0x3C
def evLinkUp : Nat := 0x40
def evLinkDown : Nat := 0x41
def evNodeNotAdmitted : Nat := 0x42
def evSelfSilence : Nat := 0x43
def evGuardianTrip : Nat := 0x44
def evNodeLost : Nat := 0x45
def evNodeBack : Nat := 0x46
def evTrainFail : Nat := 0x47
def evTrainProofFail : Nat := 0x48
def evDupTakeover : Nat := 0x49
def evDupColdTakeover : Nat := 0x4A
def evDupSwitchBack : Nat := 0x4B
def evDupMarkLost : Nat := 0x4C
def evCdcTimeout : Nat := 0x50
def evSessionOpened : Nat := 0x51
def evSessionClosed : Nat := 0x52
def evAuthFail : Nat := 0x53
def evQueueError : Nat := 0x54
def evQueueStall : Nat := 0x55
def evBrgWriteError : Nat := 0x60
def evBrgRefused : Nat := 0x61
def evBrgDiscard : Nat := 0x62
def evBrgReasmTimeout : Nat := 0x63
def evBrgSerialError : Nat := 0x64
def evBrgPollLost : Nat := 0x65
def evBrgPollBack : Nat := 0x66
def evBrgPeerReset : Nat := 0x67
def evUpdBegun : Nat := 0x68
def evUpdRefused : Nat := 0x69
def evUpdVerified : Nat := 0x6A
def evUpdVerifyFail : Nat := 0x6B
def evUpdActivated : Nat := 0x6C
def evUpdFallback : Nat := 0x6D
def evUpdConfirmed : Nat := 0x6E
def evUpdExpired : Nat := 0x6F
def evLcsChanged : Nat := 0x70
def evTokenRefused : Nat := 0x71
def evProofPass : Nat := 0x72
def evProofFail : Nat := 0x73
def evBlockUnusable : Nat := 0x74
def evProofDeferred : Nat := 0x75
def evLaneRejoined : Nat := 0x76
def evProofStarted : Nat := 0x77
def evRecCleared : Nat := 0x78
def evRecClearRefused : Nat := 0x79
def evRecSealFault : Nat := 0x7A
def evRecSaturated : Nat := 0x7B
def evVsRange : Nat := 0x7C
def evHoldupLow : Nat := 0x7D
def evClockFault : Nat := 0x7E
def evTempHigh : Nat := 0x7F

/-- Table 6-7, 16 bytes; an absent identity, owner or overlap reads 0xFFFF. -/
def routeRecord (r : OutRec) : List Byte :=
  leBytes 2 r.target ++ leBytes 1 (r.slot.getD 0) ++ leBytes 1 r.outcome ++ leBytes 1 r.reason ++
  leBytes 1 r.secondary ++ leBytes 2 r.ident ++ leBytes 2 r.owner ++ leBytes 2 r.ovl ++ leBytes 4 r.cycle

/-- Table 9-2, 16 bytes. -/
def elementRecord (r : OutRec) : List Byte :=
  leBytes 2 r.target ++ leBytes 1 (r.slot.getD 0) ++ leBytes 1 r.outcome ++ leBytes 1 r.reason ++
  leBytes 1 r.code ++ leBytes 2 r.ticket ++ leBytes 1 r.authority ++ leBytes 3 0 ++ leBytes 4 r.cycle

def OutRec.bytes (r : OutRec) : List Byte := if r.isRoute then routeRecord r else elementRecord r

/-- An outcome record with the absent fields of its table; outcome 0 stands for an answer `STATE`, which carries no
record. -/
def outRec (isRoute : Bool) (target : Nat) (slot : Option Nat) (outcome reason cycle : Nat) : OutRec :=
  { isRoute := isRoute, target := target, slot := slot, outcome := outcome, reason := reason, secondary := 0,
    ident := 0xFFFF, owner := 0xFFFF, ovl := 0xFFFF, code := 0, ticket := 0, authority := 0xFF, cycle := cycle, forces := [] }

/-- One count in a category or value item. -/
def recCount (item : Nat) (v : Int) : RecUpd := { item := item, value := v, times := 1, detail := [] }

/-- One update of an extreme item with its detail. -/
def recKeep (item : Nat) (v : Int) (detail : List Byte) : RecUpd := { item := item, value := v, times := 1, detail := detail }

end Sys2Proof.Machine
end

