-- ==== Sys2Proof/Machine/Code.lean ====
section
/-! DEFINITION. The code unit: safety words, code sets, encoding and decoding (R21 to R29), and the owner code of a
quoin entry (R108). -/

namespace Sys2Proof.Machine

/-- Why a word fails to decode, in the order of R26. -/
inductive Reason where
  | set | identity | stale | code | kind
  deriving DecidableEq, Repr

/-- The reason's number in the recorder (Table 19-4): set, identity, stale, code, kind. -/
def Reason.num : Reason → Nat
  | .set => 0
  | .identity => 1
  | .stale => 2
  | .code => 3
  | .kind => 4

/-- What a decode gives (R26). -/
inductive Decoded where
  | valid (x : Nat)
  | restrictive
  | invalid (r : Reason)
  deriving DecidableEq, Repr

/-- Constant A of a code set (Table 2-3); 1 for a set that does not exist. -/
def codeA : Nat → Nat
  | 0x5 => 58771
  | 0x6 => 61403
  | 0x9 => 63127
  | 0xA => 64901
  | _ => 1

/-- B of an identity in a set (Table 2-3). -/
def codeB (id a : Nat) : Nat := (id * 40503) % a

/-- D of a tag in a set (Table 2-3). -/
def codeD (tag a : Nat) : Nat := (tag * 2557) % a

/-- The sets that exist. -/
def isCodeSet (set : Nat) : Bool := set == 0x5 || set == 0x6 || set == 0x9 || set == 0xA

/-- The code set of a lane's own words (Table 2-3). -/
def laneSet : LaneId → Nat
  | .a => 0x5
  | .b => 0x6
  | .c => 0x9

/-- 0x1 to 0xFFFE. -/
def isIdentity (id : Nat) : Bool := decide (0 < id) && decide (id < 0xFFFF)

/-- x as its set holds it: complemented in set 0x6 (R29). -/
def heldX (set x : Nat) : Nat := if set = 0x6 then 65535 - x % 65536 else x % 65536

/-- Coded value A·x + B + D (R25). -/
def codeCV (x id tag set : Nat) : Nat := codeA set * heldX set x + codeB id (codeA set) + codeD tag (codeA set)

/-- The word's fields put together (Table 2-1). -/
def packWord (cv id tag kind set : Nat) : Word64 :=
  BitVec.ofNat 64 (cv % 4294967296 * 4294967296 + id % 65536 * 65536 + tag % 256 * 256 + kind % 16 * 16 + set % 16)

/-- R25. -/
def encode (x id tag kind set : Nat) : Option Word64 :=
  if isIdentity id && isCodeSet set then some (packWord (codeCV x id (tag % 256) set) id tag kind set) else none

def wordCV (w : Word64) : Nat := w.toNat / 4294967296
def wordId (w : Word64) : Nat := w.toNat / 65536 % 65536
def wordTag (w : Word64) : Nat := w.toNat / 256 % 256
def wordKind (w : Word64) : Nat := w.toNat / 16 % 16
def wordSet (w : Word64) : Nat := w.toNat % 16

/-- The tag is the current or the previous one (R31). -/
def tagFresh (tag now : Nat) : Bool := tag == now % 256 || tag == (now + 255) % 256

/-- R26 in the order of its checks. `highest` is the highest declared index of an enumeration. -/
def decode (w : Word64) (wantId wantKind wantSet now highest : Nat) : Decoded :=
  let a := codeA (wordSet w)
  let bd := codeB (wordId w) a + codeD (wordTag w) a
  if wordSet w ≠ wantSet then .invalid .set
  else if wordId w ≠ wantId then .invalid .identity
  else if !tagFresh (wordTag w) now then .invalid .stale
  else if wordCV w < bd then .invalid .code
  else if (wordCV w - bd) % a ≠ 0 then .invalid .code
  else if (wordCV w - bd) / a > 0xFFFF then .invalid .code
  else
    let x := heldX (wordSet w) ((wordCV w - bd) / a)
    if wordKind w = 0x4 ∧ x = 0 then .restrictive
    else if wordKind w ≠ wantKind then .invalid .kind
    else if wordKind w = 0x3 ∧ x > highest then .invalid .kind
    else .valid x

/-- x of a decode: a restrictive word reads x = 0 (R22, R23); an invalid one has none. -/
def Decoded.x? : Decoded → Option Nat
  | .valid x => some x
  | .restrictive => some 0
  | .invalid _ => none

/-- x, with the restrictive default 0 of Table 4-15 for an invalid word. -/
def Decoded.x (d : Decoded) : Nat := d.x?.getD 0

def Decoded.ok (d : Decoded) : Bool := d.x?.isSome

/-- Decode against the identity, kind and tag that the word itself carries (R417: restore, transfer, rejoin, adopt). -/
def decodeSelf (w : Word64) (set : Nat) : Option Nat :=
  if isIdentity (wordId w) then (decode w (wordId w) (wordKind w) set (wordTag w) 0xFFFF).x? else none

/-- A word encoded, or the all-zero word where R25 refuses. -/
def encodeD (x id tag kind set : Nat) : Word64 := (encode x id tag kind set).getD 0

/-- Re-seal a word with another tag in another set, keeping its value (R417); a word that does not decode becomes the
all-zero word, which no reader accepts. -/
def reseal (w : Word64) (set newSet newTag : Nat) : Word64 :=
  match decodeSelf w set with
  | some x => encodeD x (wordId w) newTag (wordKind w) newSet
  | none => 0

/-! ### Quoin entries (Table 6-2) -/

/-- A quoin entry: the owner is coded with the row's identity and byte [47:40] in place of the tag. -/
def quoinEntry (lane : LaneId) (id kind state group owner : Nat) : Word64 :=
  let byte := kind % 16 * 16 + state % 16
  let cv := codeCV owner id byte (laneSet lane)
  BitVec.ofNat 64 (id % 65536 * 281474976710656 + byte * 1099511627776 + group % 256 * 4294967296 + cv % 4294967296)

def rowId (w : Word64) : Nat := w.toNat / 281474976710656
def rowByte (w : Word64) : Nat := w.toNat / 1099511627776 % 256
def rowKind (w : Word64) : Nat := rowByte w / 16
def rowState (w : Word64) : Nat := rowByte w % 16
def rowGroup (w : Word64) : Nat := w.toNat / 4294967296 % 256

/-- The owner value of a row, or none where the row fails the code check of R111. -/
def rowOwner (lane : LaneId) (w : Word64) : Option Nat :=
  let a := codeA (laneSet lane)
  let cv := w.toNat % 4294967296
  let bd := codeB (rowId w) a + codeD (rowByte w) a
  if !isIdentity (rowId w) then none
  else if rowKind w = 0 ∨ rowKind w > 7 then none
  else if cv < bd ∨ (cv - bd) % a ≠ 0 ∨ (cv - bd) / a > 0xFFFF then none
  else some (heldX (laneSet lane) ((cv - bd) / a))

/-! ### Members of a boolean set -/

/-- Member m of a boolean set. -/
def member (x m : Nat) : Bool := x.testBit m

/-- A set with member m written. -/
def setMember (x m : Nat) (v : Bool) : Nat :=
  if x.testBit m = v then x else if v then x + 2 ^ m else x - 2 ^ m

/-- 1 for true. -/
def b2n (v : Bool) : Nat := if v then 1 else 0

/-- A boolean set from its members, member 0 first. -/
def ofMembers : List Bool → Nat
  | [] => 0
  | b :: t => b2n b + 2 * ofMembers t

end Sys2Proof.Machine
end

