-- ==== Sys2Proof/Machine/Forme.lean ====
section
/-! DEFINITION. The forme image read into records (R64 to R78, R184, R209, R241, R242, R263): every field of Tables 4-2
to 4-16, 9-4, 11-1, 11-2, 12-8 to 12-10 and 13-1 at its offset, little-endian. -/

namespace Sys2Proof.Machine

/-- Byte i of an image; every byte that is not listed is 0. -/
def imgByte (m : Image) (i : Nat) : Nat := (kvGetD m.cells i (0 : Byte)).toNat

/-- n bytes at an offset, little-endian. -/
def imgField (m : Image) (off : Nat) : Nat → Nat
  | 0 => 0
  | n + 1 => imgField m off n + imgByte m (off + n) * 256 ^ n

/-- A signed 32-bit field. -/
def imgInt (m : Image) (off : Nat) : Int := signed32 (imgField m off 4)

/-- Whether some listed byte of a range is not 0. -/
def imgNonzero (m : Image) (off n : Nat) : Bool :=
  m.cells.any (fun c => decide (off ≤ c.1) && decide (c.1 < off + n) && c.2 != 0)

/-- Record size, most records and most bytes of a region by its code (Table 4-1); 0 where the table gives no record size or number. -/
def regionSpec : Nat → Nat × Nat × Nat
  | 0x01 => (0, 1, 4096)
  | 0x02 => (32, 128, 4096)
  | 0x03 => (32, 48, 4096)
  | 0x04 => (32, 1024, 32 * 1024)
  | 0x05 => (0, 0, 64 * 1024)
  | 0x06 => (64, 2048, 128 * 1024)
  | 0x07 => (64, 4096, 256 * 1024)
  | 0x08 => (32, 8192, 256 * 1024)
  | 0x09 => (32, 8192, 256 * 1024)
  | 0x0A => (128, 256, 32 * 1024)
  | 0x0B => (16, 32768, 512 * 1024)
  | 0x0C => (16, 16384, 256 * 1024)
  | 0x0D => (4, 524288, 2048 * 1024)
  | 0x0E => (16, 65536, 1024 * 1024)
  | 0x0F => (16, 65536, 1024 * 1024)
  | 0x10 => (8, 32768, 256 * 1024)
  | 0x11 => (8, 131072, 1024 * 1024)
  | 0x12 => (8, 16384, 128 * 1024)
  | 0x13 => (64, 1024, 64 * 1024)
  | 0x14 => (0, 0, 16 * 1024)
  | 0x15 => (16, 4096, 64 * 1024)
  | 0x16 => (4, 131072, 512 * 1024)
  | 0x17 => (4, 4194304, 16384 * 1024)
  | _ => (0, 0, 0)

/-- Table 4-2. The Enanarix version and build are read with the rest and reported nowhere: no command or parameter of the spec carries
them (DESIGN CHOICE, log 62). -/
def parseHeader (m : Image) : Header :=
  { magic := imgField m 0 4, format := imgField m 4 2, personality := imgByte m 6, variant := imgByte m 7,
    installation := imgField m 8 8, version := imgField m 0x10 4, m := imgField m 0x14 2, node := imgField m 0x16 2,
    cycleNs := imgField m 0x18 4, hold := imgField m 0x1C 2, duplex := imgByte m 0x1E, stride := imgByte m 0x1F,
    evalBound := imgField m 0x20 4, quoinBound := imgField m 0x24 4, storeSize := imgField m 0x28 4,
    build := imgField m 0x2C 16, zerosOk := !imgNonzero m 0x3C (0x1000 - 0x3C) }

/-- Table 4-3. -/
def parseDirEntry (m : Image) (o : Nat) : DirEntry :=
  { code := imgField m o 2, wordsPer := imgField m (o + 2) 2, offset := imgField m (o + 4) 4,
    length := imgField m (o + 8) 4, count := imgField m (o + 12) 4, base := imgField m (o + 16) 4,
    reserved := imgField m (o + 20) 12 }

/-- The 23 directory entries, one for each region in the order of Table 4-1. -/
def parseDir (m : Image) : List DirEntry := (List.range 23).map (fun i => parseDirEntry m (0x1000 + 32 * i))

/-- The directory entry of a region code. -/
def dirEntry (d : List DirEntry) (code : Nat) : DirEntry :=
  nthD d (code - 1) { code := 0, wordsPer := 0, offset := 0, length := 0, count := 0, base := 0, reserved := 0 }

/-- The records of a region, at most as many as Table 4-1 allows it. -/
def parseRecs {α : Type} (m : Image) (d : List DirEntry) (code : Nat) (p : Image → Nat → α) : List α :=
  let e := dirEntry d code
  let sp := regionSpec code
  (List.range (min e.count sp.2.1)).map (fun i => p m (e.offset + sp.1 * i))

def parseChannel (m : Image) (o : Nat) : ChannelRec :=
  { channel := imgByte m o, dir := imgByte m (o + 1), func := imgByte m (o + 2), typ := imgByte m (o + 3),
    filter := imgField m (o + 4) 2, group := imgField m (o + 6) 2, member := imgByte m (o + 8),
    partner := imgByte m (o + 9), vital := imgByte m (o + 10), reserved := imgField m (o + 11) 21 }

def parseNode (m : Image) (o : Nat) : NodeRec :=
  { id := imgField m o 2, typ := imgByte m (o + 2), roles := imgByte m (o + 3), reserved := imgField m (o + 4) 28 }

def parseImpEntry (m : Image) (o : Nat) : ImpEntry :=
  { slot := imgField m o 2, k := imgByte m (o + 2), f := imgByte m (o + 3), owner := imgField m (o + 4) 2,
    len := imgByte m (o + 6), flags := imgByte m (o + 7) }

/-- Table 12-9 with its entries. -/
def parseImp (m : Image) (d : List DirEntry) : Imposition :=
  let o := (dirEntry d 0x05).offset
  let n := imgField m (o + 0x10) 2
  { cycleNs := imgField m o 4, slots := imgField m (o + 4) 2, minislots := imgField m (o + 6) 2,
    allowance := imgField m (o + 8) 2, idle := imgField m (o + 10) 2, hop := imgField m (o + 12) 2,
    nodes := imgField m (o + 14) 2, entryCount := n, tag := imgField m (o + 18) 2, topology := imgByte m (o + 20),
    reserved := imgField m (o + 21) 43,
    entries := (List.range (min n 8184)).map (fun i => parseImpEntry m (o + 64 + 8 * i)) }

/-- Table 13-1. -/
def parseTemplate (m : Image) (d : List DirEntry) : VehicleTemplate :=
  let o := (dirEntry d 0x05).offset
  { cycleNs := imgField m o 4, cab1 := imgField m (o + 4) 4, cab2 := imgField m (o + 8) 4,
    t0 := imgField m (o + 12) 4, slotUse := imgByte m (o + 16), maxAge := imgByte m (o + 17),
    reserved := imgField m (o + 18) 46 }

def parsePoint (m : Image) (o : Nat) : PointRec :=
  { id := imgField m o 2, typ := imgByte m (o + 2), machines := imgByte m (o + 3), driveN := imgField m (o + 4) 4,
    driveR := imgField m (o + 8) 4, detN := imgField m (o + 0xC) 4, detR := imgField m (o + 0x10) 4,
    stroke := imgField m (o + 0x14) 2, filter := imgField m (o + 0x16) 2, sec := imgField m (o + 0x18) 2,
    coupled := imgField m (o + 0x1A) 2, flank := imgField m (o + 0x1C) 4, reserved := imgField m (o + 0x20) 32 }

def parseSignal (m : Image) (o : Nat) : SignalRec :=
  { id := imgField m o 2, typ := imgByte m (o + 2), aspects := imgByte m (o + 3), output := imgField m (o + 4) 4,
    lamps := imgByte m (o + 8), approach := imgField m (o + 0xA) 2, low := imgField m (o + 0xC) 2,
    high := imgField m (o + 0xE) 2, proving := imgField m (o + 0x10) 4, linked := imgField m (o + 0x14) 2,
    table := (List.range 16).map (fun i => imgField m (o + 0x18 + 2 * i) 2),
    reserved := imgByte m (o + 9) + imgField m (o + 0x16) 2 + imgField m (o + 0x38) 8 }

def parseSection (m : Image) (o : Nat) : SectionRec :=
  { id := imgField m o 2, nHeads := imgByte m (o + 2), resetClass := imgByte m (o + 3),
    heads := (List.range 8).map (fun i => imgField m (o + 4 + 2 * i) 2), mask := imgByte m (o + 0x14),
    sweep := imgField m (o + 0x16) 2, aux := imgField m (o + 0x18) 4,
    reserved := imgByte m (o + 0x15) + imgField m (o + 0x1C) 4 }

def parseHead (m : Image) (o : Nat) : HeadRec :=
  { id := imgField m o 2, source := imgByte m (o + 2), even := imgByte m (o + 3), count := imgField m (o + 4) 4,
    minPulse := imgField m (o + 8) 2, maxFreq := imgField m (o + 0xA) 2, overlap := imgField m (o + 0xC) 2,
    health := imgField m (o + 0x10) 4, reserved := imgField m (o + 0xE) 2 + imgField m (o + 0x14) 12 }

def parseCrossing (m : Image) (o : Nat) : CrossingRec :=
  { id := imgField m o 2, typ := imgByte m (o + 2), barriers := imgByte m (o + 3),
    strikes := (List.range 8).map (fun i => imgField m (o + 4 + 2 * i) 2), barrierCmd := imgField m (o + 0x14) 4,
    downs := (List.range 4).map (fun i => imgField m (o + 0x18 + 4 * i) 4), light := imgField m (o + 0x28) 4,
    proving := imgField m (o + 0x2C) 4, warning := imgField m (o + 0x30) 2, lowering := imgField m (o + 0x32) 2,
    island := imgField m (o + 0x34) 2, reserved := imgField m (o + 0x36) 74 }

def parseRoute (m : Image) (o : Nat) : RouteRec :=
  { entry := imgField m o 2, exit := imgField m (o + 2) 2, first := imgField m (o + 4) 4, n := imgByte m (o + 8) + 1,
    cls := imgByte m (o + 9), overlap := imgField m (o + 0xA) 2, approachN := imgByte m (o + 0xC),
    release := imgByte m (o + 0xD), timer := imgByte m (o + 0xE), reserved := imgByte m (o + 0xF) }

def parseOverlap (m : Image) (o : Nat) : OverlapRec :=
  { start := imgField m o 2, trigger := imgField m (o + 2) 2, first := imgField m (o + 4) 4,
    n := imgByte m (o + 8) + 1, timer := imgByte m (o + 9), alt := imgField m (o + 0xA) 2,
    reserved := imgField m (o + 0xC) 4 }

/-- Table 4-12: identity, role, state and flags of one 32-bit entry. -/
def parsePool (m : Image) (o : Nat) : PoolEntry :=
  let w := imgField m o 4
  { id := w / 65536, role := w / 4096 % 16, state := w / 256 % 16, flags := w % 256 }

def parseFlank (m : Image) (o : Nat) : FlankRec :=
  { prot := imgField m o 2, trigger := imgByte m (o + 2), depth := imgByte m (o + 3), pid := imgField m (o + 4) 2,
    prole := imgByte m (o + 6), ppos := imgByte m (o + 7), next := imgField m (o + 8) 4,
    reserved := imgField m (o + 12) 4 }

def parseTimer (m : Image) (o : Nat) : TimerRec :=
  { owner := imgField m o 2, ord := imgByte m (o + 2), cls := imgByte m (o + 3), preset := imgField m (o + 4) 4,
    reserved := imgField m (o + 8) 8 }

def parseEdge (m : Image) (o : Nat) : EdgeRec :=
  let w := imgField m (o + 4) 4
  { owner := imgField m o 2, ord := imgByte m (o + 2), typ := imgByte m (o + 3), member := w / 262144 % 16,
    addr := w % 262144 }

def parseRemote (m : Image) (o : Nat) : RemoteRec :=
  let b := imgByte m (o + 2)
  { group := imgField m o 2, member := b % 16, ordinal := b / 16 % 8, output := b / 128,
    node := imgField m (o + 3) 2, maxAge := imgByte m (o + 5), word := imgByte m (o + 6), vital := imgByte m (o + 7) }

def parseGalley (m : Image) (o : Nat) : GalleyRec :=
  { id := imgField m o 2, kind := imgByte m (o + 2), target := imgByte m (o + 3), index := imgField m (o + 4) 2,
    reserved := imgField m (o + 6) 2 }

/-- Tables 11-1 and 11-2. -/
def parseFunc (m : Image) (o : Nat) : FuncRec :=
  { id := imgField m o 2, typ := imgByte m (o + 2), resetMode := imgByte m (o + 3), resetIn := imgField m (o + 4) 4,
    feedback := imgField m (o + 8) 4, monitored := imgField m (o + 0xC) 2, fbDelay := imgField m (o + 0xE) 2,
    srcKind := imgByte m (o + 0x10), srcId := imgField m (o + 0x12) 2, scale := imgField m (o + 0x14) 4,
    window := imgByte m (o + 0x18), dir := imgByte m (o + 0x19), limit := imgField m (o + 0x1A) 2,
    tolerance := imgField m (o + 0x1C) 2, still := imgField m (o + 0x1E) 2, posLow := imgInt m (o + 0x20),
    posHigh := imgInt m (o + 0x24), refIn := imgField m (o + 0x28) 4, refPos := imgInt m (o + 0x2C),
    hyst := imgField m (o + 0x30) 2, chA := imgField m (o + 0x10) 4, chB := imgField m (o + 0x14) 4,
    chC := imgField m (o + 0x18) 4, chD := imgField m (o + 0x1C) 4, mode := imgByte m (o + 0x20),
    startTest := imgByte m (o + 0x21), disc := imgField m (o + 0x22) 2, simul := imgField m (o + 0x24) 2,
    zerosOk := if imgByte m (o + 2) < 0x10 then !imgNonzero m (o + 0x11) 1 && !imgNonzero m (o + 0x32) 14
      else !imgNonzero m (o + 0x26) 2 && !imgNonzero m (o + 0x28) 24 }

def parseAuthority (m : Image) (o : Nat) : AuthorityRec :=
  { node := imgField m o 2, confirm := imgField m (o + 2) 4, offer := imgField m (o + 6) 2,
    offerTarget := imgField m (o + 8) 2, timer := imgByte m (o + 10) }

def parseRange (m : Image) (o : Nat) : RangeRec :=
  { first := imgField m o 2, last := imgField m (o + 2) 2, codes := imgByte m (o + 4), auths := imgByte m (o + 5) }

def parseLevel (m : Image) (o : Nat) : LevelRec :=
  { first := imgField m o 4, count := imgField m (o + 4) 4, strand := imgField m (o + 8) 4, cost := imgField m (o + 12) 4 }

/-- Table 4-16. -/
def parseTerm (m : Image) (o : Nat) : Term :=
  let w := imgField m o 4
  { op := w / 67108864, m := w / 4194304 % 16, k := w / 262144 % 16, a := w % 262144 }

/-- The whole image as records. -/
def parseForme (m : Image) : Forme :=
  let d := parseDir m
  let auth := (dirEntry d 0x14).offset
  { header := parseHeader m, imageLen := m.len, dir := d, channels := parseRecs m d 0x03 parseChannel,
    nodes := parseRecs m d 0x04 parseNode, imp := parseImp m d, template := parseTemplate m d,
    points := parseRecs m d 0x06 parsePoint, signals := parseRecs m d 0x07 parseSignal,
    sections := parseRecs m d 0x08 parseSection, heads := parseRecs m d 0x09 parseHead,
    crossings := parseRecs m d 0x0A parseCrossing, routes := parseRecs m d 0x0B parseRoute,
    overlaps := parseRecs m d 0x0C parseOverlap, pool := parseRecs m d 0x0D parsePool,
    flanks := parseRecs m d 0x0E parseFlank, timers := parseRecs m d 0x0F parseTimer,
    edges := parseRecs m d 0x10 parseEdge, remotes := parseRecs m d 0x11 parseRemote,
    galley := parseRecs m d 0x12 parseGalley, funcs := parseRecs m d 0x13 parseFunc,
    authCount := imgByte m auth, rangeCount := imgField m (auth + 1) 2,
    authorities := (List.range (min (imgByte m auth) 8)).map (fun i => parseAuthority m (auth + 16 + 16 * i)),
    ranges := (List.range (min (imgField m (auth + 1) 2) 2030)).map (fun i => parseRange m (auth + 144 + 8 * i)),
    levels := parseRecs m d 0x15 parseLevel, strands := parseRecs m d 0x16 (fun m o => imgField m o 4),
    terms := parseRecs m d 0x17 parseTerm }

/-! ### References (Table 4-4) -/

def refClass (r : Nat) : Nat := r / 268435456
def refIndex (r : Nat) : Nat := r % 268435456

/-- The class-0 reference: none. -/
def refNone (r : Nat) : Bool := refClass r == 0

/-- The reference j places after another (R128, R136). -/
def refPlus (r j : Nat) : Nat := r + j

/-! ### Where records hold their words -/

def Forme.entry (f : Forme) (code : Nat) : DirEntry := dirEntry f.dir code

/-- Address of word w of record i of a region. -/
def Forme.addr (f : Forme) (code i w : Nat) : Nat := (f.entry code).base + i * (f.entry code).wordsPer + w

/-- The record number of an element by its identity. -/
def Forme.pointNo (f : Forme) (id : Nat) : Option Nat := findIdx (fun r : PointRec => r.id == id) f.points
def Forme.signalNo (f : Forme) (id : Nat) : Option Nat := findIdx (fun r : SignalRec => r.id == id) f.signals
def Forme.sectionNo (f : Forme) (id : Nat) : Option Nat := findIdx (fun r : SectionRec => r.id == id) f.sections
def Forme.headNo (f : Forme) (id : Nat) : Option Nat := findIdx (fun r : HeadRec => r.id == id) f.heads
def Forme.crossingNo (f : Forme) (id : Nat) : Option Nat := findIdx (fun r : CrossingRec => r.id == id) f.crossings
def Forme.funcNo (f : Forme) (id : Nat) : Option Nat := findIdx (fun r : FuncRec => r.id == id) f.funcs

/-- The timer found by owner identity and ordinal (R71). -/
def Forme.timerNo (f : Forme) (owner ord : Nat) : Option Nat :=
  findIdx (fun r : TimerRec => r.owner == owner && r.ord == ord) f.timers

/-- The galley position of a vital output (target 0x01) or bank switch (target 0x02). -/
def Forme.galleyOf (f : Forme) (target index : Nat) : Option Nat :=
  findIdx (fun r : GalleyRec => r.target == target && r.index == index) f.galley

/-- The network position of a group identity. -/
def Forme.galleyNet (f : Forme) (id : Nat) : Option Nat :=
  findIdx (fun r : GalleyRec => r.target == 3 && r.id == id) f.galley

/-- A galley position by its identity. -/
def Forme.galleyId (f : Forme) (id : Nat) : Option Nat := findIdx (fun r : GalleyRec => r.id == id) f.galley

/-- The first local channel record of a group. -/
def Forme.chanGroup (f : Forme) (g : Nat) : Option Nat := findIdx (fun r : ChannelRec => r.group == g) f.channels

/-- The first remote point record of a group in one direction. -/
def Forme.remGroup (f : Forme) (g out : Nat) : Option Nat :=
  findIdx (fun r : RemoteRec => r.group == g && r.output == out) f.remotes

/-- The local channel record of a channel number. -/
def Forme.chanOf (f : Forme) (ch : Nat) : Option ChannelRec := f.channels.find? (fun r => r.channel == ch)

/-! ### Times (R99, R100): Tc in microseconds -/

/-- Tc = M × Tn in nanoseconds. -/
def Forme.tcNs (f : Forme) : Nat := f.header.m * f.header.cycleNs

/-- A time in ms as whole cycles, rounded down (restrictive bound). -/
def Forme.floorCycles (f : Forme) (ms : Nat) : Nat := ms * 1000000 / f.tcNs

/-- A time in ms as whole cycles, rounded up (delay of a permissive state). -/
def Forme.ceilCycles (f : Forme) (ms : Nat) : Nat := ceilDiv (ms * 1000000) f.tcNs

/-- Cycle count n of a timer (R99): release-type rounds up, restrict-type down. -/
def Forme.timerN (f : Forme) (t : TimerRec) : Nat := if t.cls = 1 then f.ceilCycles t.preset else f.floorCycles t.preset

/-- The pool entries of a route, without its approach sections. -/
def Forme.routePool (f : Forme) (r : RouteRec) : List PoolEntry := (f.pool.drop r.first).take r.n

/-- The approach sections of a route, taken from the pool after the elements. -/
def Forme.routeApproach (f : Forme) (r : RouteRec) : List PoolEntry := (f.pool.drop (r.first + r.n)).take r.approachN

/-- The pool entries of an overlap. -/
def Forme.overlapPool (f : Forme) (o : OverlapRec) : List PoolEntry := (f.pool.drop o.first).take o.n

end Sys2Proof.Machine
end

