-- ==== Sys2Proof/Machine/Words.lean ====
section
/-! DEFINITION. What the forme declares at each word-store address, and how a lane reads and writes its words
(R26, R67, R75, R77, R125, R161, R211, R417). -/

namespace Sys2Proof.Machine

/-- What the forme declares at an address. `scratch` addresses lie in no region (log 5). -/
structure WordDecl where
  id : Nat
  kind : Nat
  highest : Nat
  scratch : Bool
  deriving DecidableEq, Repr

/-- Kind and highest index of each word of Table 7-1, by region code and word; `n` is the signal's aspect count. -/
def elementWord (code w n : Nat) : Nat × Nat :=
  match code, w with
  | 0x06, 0 => (3, 5)
  | 0x06, 1 => (1, 0)
  | 0x06, _ => (2, 0)
  | 0x07, 0 => (3, n - 1)
  | 0x07, 1 => (3, n - 1)
  | 0x07, _ => (1, 0)
  | 0x08, 0 => (3, 3)
  | 0x08, 1 => (2, 0)
  | 0x08, 2 => (3, 2)
  | 0x08, 3 => (2, 0)
  | 0x08, _ => (1, 0)
  | 0x09, 0 => (3, 1)
  | 0x09, _ => (2, 0)
  | 0x0A, 0 => (3, 6)
  | 0x0A, 1 => (2, 0)
  | 0x0A, _ => (1, 0)
  | _, _ => (1, 0)

/-- Words per record that Table 7-1, R161 and R211 fix for a region; none where the spec fixes no count. -/
def wordsPerRecord : Nat → Option Nat
  | 0x06 => some 3
  | 0x07 => some 3
  | 0x08 => some 5
  | 0x09 => some 2
  | 0x0A => some 3
  | 0x0F => some 3
  | 0x13 => some 21
  | _ => none

/-- The regions that hold words. -/
def wordRegions : List Nat := [0x03, 0x06, 0x07, 0x08, 0x09, 0x0A, 0x0B, 0x0F, 0x11, 0x12, 0x13]

/-- Region code, record and word of an address. -/
def Forme.locate (f : Forme) (a : Nat) : Option (Nat × Nat × Nat) :=
  (wordRegions.find? (fun code =>
    let e := f.entry code
    decide (0 < e.wordsPer) && decide (e.base ≤ a) && decide (a < e.base + e.count * e.wordsPer))).map
    (fun code =>
      let e := f.entry code
      (code, (a - e.base) / e.wordsPer, (a - e.base) % e.wordsPer))

/-- A remote point is the count or frequency word of some head or function. -/
def Forme.remoteIsCount (f : Forme) (i : Nat) (r : RemoteRec) : Bool :=
  f.heads.any (fun h => h.source == 2 && refClass h.count == 3 && refIndex h.count == i)

/-- A term tests the word of a remote input group as an enumeration (Table 4-17). -/
def Forme.remoteIsEnum (f : Forme) (group : Nat) : Bool :=
  match f.remotes.findIdx? (fun q => q.group == group && q.output == 0) with
  | some j => f.terms.any (fun t => (t.op == 0x08 || t.op == 0x09) && t.a == f.addr 0x11 j 0)
  | none => false

/-- Kind of a remote point's word (log 7): the records and the terms that use it decide. -/
def Forme.remoteKind (f : Forme) (i : Nat) : Nat :=
  match f.remotes[i]? with
  | none => 1
  | some r =>
    if r.output = 1 then
      match f.galleyNet r.group with
      | some g => ((f.galley[g]?).map (·.kind)).getD 1
      | none => 1
    else if f.remoteIsCount i r then 2
    else if f.authorities.any (fun a => refClass a.confirm == 3 && refIndex a.confirm == i) then 4
    else if f.remoteIsEnum r.group then 3
    else 1

/-- Aspect count of the signal that commands a network position, for the highest index of that word. -/
def Forme.aspectsOf (f : Forme) (g : GalleyRec) : Option Nat :=
  (f.signals.find? (fun s => s.lamps == 0 && refClass s.output == 3 &&
    ((f.remotes[refIndex s.output]?).map (·.group)) == some g.id)).map (·.aspects)

/-- Kind and highest index of word w of a motion or guard function (Table 11-4). -/
def funcWord (w : Nat) : Nat × Nat := if w = 0 then (1, 0) else (2, 0)

/-- Word declared for a local channel record (log 5): word 0 the group word, or the count or frequency word; word 1
the health or status word. -/
def channelWord (r : ChannelRec) (w : Nat) : Nat × Nat :=
  if (r.func = 3 ∨ r.func = 4) ∧ w = 0 then (2, 0) else (1, 0)

/-- A scratch address: an address that no region names (log 5). -/
def scratchDecl (a : Nat) : WordDecl := { id := a % 0xFFFE + 1, kind := 0, highest := 15, scratch := true }

/-- The train word at an address: 0 to 3 for T0 to T3 (Tables 13-1 and 13-7). -/
def Forme.trainWord (f : Forme) (a : Nat) : Option Nat :=
  if f.header.personality = 2 ∧ f.template.t0 ≤ a ∧ a < f.template.t0 + 4 then some (a - f.template.t0) else none

/-- Kind and highest index of train word w. -/
def trainDecl (w : Nat) : WordDecl :=
  { id := 0x7000 + w, kind := if w = 0 then 1 else if w = 3 then 2 else 3, highest := if w = 1 then 64 else 2,
    scratch := false }

/-- What the forme declares at an address. -/
def Forme.decl (f : Forme) (a : Nat) : WordDecl :=
  let mk (id : Nat) (k : Nat × Nat) : WordDecl := { id := id, kind := k.1, highest := k.2, scratch := false }
  match f.locate a with
  | none => ((f.trainWord a).map trainDecl).getD (scratchDecl a)
  | some (code, i, w) =>
    match code with
    | 0x03 => ((f.channels[i]?).map (fun r => mk r.group (channelWord r w))).getD (scratchDecl a)
    | 0x06 => ((f.points[i]?).map (fun r => mk r.id (elementWord code w 0))).getD (scratchDecl a)
    | 0x07 => ((f.signals[i]?).map (fun r => mk r.id (elementWord code w r.aspects))).getD (scratchDecl a)
    | 0x08 => ((f.sections[i]?).map (fun r => mk r.id (elementWord code w 0))).getD (scratchDecl a)
    | 0x09 => ((f.heads[i]?).map (fun r => mk r.id (elementWord code w 0))).getD (scratchDecl a)
    | 0x0A => ((f.crossings[i]?).map (fun r => mk r.id (elementWord code w 0))).getD (scratchDecl a)
    | 0x0B => ((f.routes[i]?).map (fun r => mk r.entry (if w = 0 then (3, 6) else (1, 0)))).getD (scratchDecl a)
    | 0x0F => ((f.timers[i]?).map (fun r => mk r.owner (if w = 2 then (1, 0) else (2, 0)))).getD (scratchDecl a)
    | 0x11 => ((f.remotes[i]?).map (fun r => mk r.group (f.remoteKind i, 0xFFFF))).getD (scratchDecl a)
    | 0x12 => ((f.galley[i]?).map (fun g =>
        if w = 0 then mk g.id (g.kind, ((f.aspectsOf g).map (· - 1)).getD 0xFFFF)
        else if g.target = 1 then mk g.id (2, 0) else mk g.id (1, 0))).getD (scratchDecl a)
    | _ => ((f.funcs[i]?).map (fun r => mk r.id (funcWord w))).getD (scratchDecl a)

/-- Whether x is a command value that the position at an address declares (R420, Table 4-23). -/
def Forme.cmdLegal (f : Forme) (a x : Nat) : Bool :=
  match f.locate a with
  | some (0x12, i, 0) =>
    match f.galley[i]? with
    | none => x == 0
    | some g =>
      if f.authorities.any (fun r => r.offer == g.id) then
        x == 0 || (decide (1 ≤ x / 4096) && decide (x / 4096 ≤ 6) && x % 4096 != 0)
      else if f.authorities.any (fun r => r.offerTarget == g.id) then decide (x ≤ 0xFFFE)
      else if 0x7420 ≤ g.id ∧ g.id ≤ 0x743F then x == 0
      else decide (x ≤ 1)
  | some (0x11, i, _) => f.authorities.any (fun r => refClass r.confirm == 3 && refIndex r.confirm == i) || decide (x ≤ 1)
  | some _ => decide (x ≤ 1)
  | none => true

/-- A command value that its position does not declare counts as the restrictive value (R420). -/
def Forme.judged (f : Forme) (a kind : Nat) (d : Decoded) : Decoded :=
  match d with
  | .valid x => if kind = 4 ∧ !f.cmdLegal a x then .restrictive else d
  | _ => d

/-- Read the word at an address as its declared identity and kind in the lane's set (R26, R420). A scratch word is read
with the kind it carries. -/
def readWord (f : Forme) (l : LaneId) (now : Nat) (st : List (Nat × Word64)) (a : Nat) : Decoded :=
  let w := storeGet st a
  let d := f.decl a
  let kind := if d.scratch then wordKind w else d.kind
  f.judged a kind (decode w d.id kind (laneSet l) now d.highest)

/-- Kind under which a word is read. -/
def readKind (f : Forme) (st : List (Nat × Word64)) (a : Nat) : Nat :=
  let d := f.decl a
  if d.scratch then wordKind (storeGet st a) else d.kind

/-- x at an address, restrictive default 0. -/
def readX (f : Forme) (l : LaneId) (now : Nat) (st : List (Nat × Word64)) (a : Nat) : Nat := (readWord f l now st a).x

/-- The word sealed for an address: identity and kind as declared, tag of the cycle, the lane's set (R30). -/
def sealWord (f : Forme) (l : LaneId) (now : Nat) (a kind x : Nat) : Word64 :=
  let d := f.decl a
  encodeD x d.id (now % 256) (if d.scratch then kind else d.kind) (laneSet l)

/-- Whether an address lies inside the word store of the forme (R76). -/
def Forme.inStore (f : Forme) (a : Nat) : Bool := decide (a < f.header.storeSize)

end Sys2Proof.Machine
end

