-- ==== Sys2Proof/Machine/Eval.lean ====
section
/-! DEFINITION. A lane's evaluation: what it reads (the environment), what it carries (the working state), and the
named operations with which every term and evaluator reads inputs, reads and writes words, commands outputs, raises
events and hands records. -/

namespace Sys2Proof.Machine

/-- What the duplex mirror of a cycle carries beside lane state (Table 14-2). -/
structure MirrorEnv where
  member : Nat
  commanding : Bool
  digest : Digest
  prepared : Digest
  xchgState : Nat
  xchgTarget : Nat
  overrunRun : Nat
  reqs : List Req
  sweepAt : Nat
  /-- the partner's mirror words of the snapshot, 8 per entry in order; none where an entry has no fresh frame -/
  partner : List (Option (List Word64))
  deriving DecidableEq, Repr

/-- What is fixed while a lane evaluates one cycle. -/
structure Env where
  forme : Forme
  lane : LaneId
  /-- cycle count of the cycle being evaluated -/
  now : Nat
  /-- added network cycles since the scan before: one for a stretch of that cycle, one for an exchange or rejoin in this (R99, R157) -/
  extra : Nat
  /-- requests frozen into this cycle -/
  reqs : List Req
  /-- quoin rows found failing their check -/
  badRows : List Nat
  /-- lanes that are excluded -/
  excluded : Tri Bool
  /-- the lane's quoin table is sound (R50) -/
  quoinSound : Bool
  /-- nodes that report a restart -/
  restarted : List Nat
  /-- static buffers frozen at the strobe -/
  snapshot : List Buffer
  /-- static entries of the imposition in use -/
  entries : List ImpEntry
  /-- words the field side sealed, as they reach this lane -/
  sealed : List (Nat × Word64)
  /-- the field link works -/
  link : Bool
  /-- findings of dark tests since the last strobe -/
  findings : List (Nat × Nat)
  /-- switches found stuck open since the last strobe -/
  stuckOpen : List (Nat × Nat)
  /-- channels whose line sound fell to 0 at this strobe -/
  lineFell : List Nat
  /-- universal banks blocked under R63 -/
  ubanks : List Nat
  /-- the safe state holds -/
  safe : Bool
  /-- words lost in a crossing -/
  lost : List Nat
  /-- number of network cycles M of the forme's cycle -/
  m : Nat
  /-- duplex: own member number and what its steward and network die hand the lanes for the mirror (R290) -/
  mirror : Option MirrorEnv
  /-- train: the claim, the numbers of the neighbours at ends 1 and 2, and the coupled ends (R274 to R276) -/
  claim : Option (Nat × Nat × Nat × Nat)
  neighbours : Option Nat × Option Nat
  coupled : Bool × Bool
  deriving DecidableEq, Repr

/-- A quoin row that is staged. -/
structure Row where
  id : Nat
  kind : Nat
  state : Nat
  group : Nat
  owner : Nat
  deriving DecidableEq, Repr

/-- A route whose rows are staged until its OVL term. -/
structure Pend where
  route : Nat
  slot : Option Nat
  rows : List Row
  deriving DecidableEq, Repr

/-- The working state of an evaluation. -/
structure Ev where
  core : LaneCore
  records : List OutRec
  events : List Raise
  recs : List RecUpd
  /-- kind and x of the accumulator -/
  acc : Nat × Nat
  /-- axles counted since the previous scan by head record (R139) -/
  headD : List (Nat × Int)
  /-- owner and group of rows to free at the end of the route strand; no group frees all (R118) -/
  frees : List (Nat × Option Nat)
  /-- the route staged for its OVL term -/
  pend : Option Pend
  /-- acknowledged auxiliary actions of this cycle by authority (R187) -/
  execs : List (Nat × Staging)
  /-- points restored in this cycle (R133, R182) -/
  restored : List Nat
  /-- banks held provisionally when the evaluation began (R205) -/
  heldBanks : List Nat
  /-- guard functions that entered demand, and accepted resets -/
  demands : Nat
  resets : Nat
  /-- duplex items adopted -/
  adopted : Nat
  deriving DecidableEq, Repr

/-- The evaluation begins. -/
def Ev.start (c : LaneCore) : Ev :=
  { core := c, records := [], events := [], recs := [], acc := (1, 0), headD := [], frees := [], pend := none, execs := [], restored := [],
    heldBanks := c.holds.map (·.bank), demands := 0, resets := 0, adopted := 0 }

/-! ### Events, records, recorder -/

def Ev.raise (v : Ev) (num : Nat) (payload : List Byte) : Ev := { v with events := v.events ++ [{ num := num, payload := payload }] }

def Ev.hand (v : Ev) (r : OutRec) : Ev := { v with records := v.records ++ [r] }

def Ev.record (v : Ev) (u : RecUpd) : Ev := { v with recs := v.recs ++ [u] }

/-! ### Words -/

/-- Read the word at an address (R26). -/
def Ev.word (e : Env) (v : Ev) (a : Nat) : Decoded := readWord e.forme e.lane e.now v.core.store a

/-- x at an address, with the restrictive default. -/
def Ev.x (e : Env) (v : Ev) (a : Nat) : Nat := (v.word e a).x

/-- Store a word at an address, without regard to forces. -/
def Ev.putRaw (e : Env) (v : Ev) (a kind x : Nat) : Ev :=
  { v with core := { v.core with store := storeSet v.core.store a (sealWord e.forme e.lane e.now a kind x) } }

/-- A local group word is an input word when one of its records is a universal input or a vital output's readback. -/
def ChannelRec.isInput (r : ChannelRec) : Bool := r.dir == 1 || decide (32 ≤ r.channel)

/-- Store a word under a tag and kind of its own (R28, R30: a transcoded word keeps its source word's). -/
def Ev.putTag (e : Env) (v : Ev) (a x tag kind : Nat) : Ev :=
  { v with core := { v.core with
      store := storeSet v.core.store a (encodeD x (e.forme.decl a).id (tag % 256) kind (laneSet e.lane)) } }

/-- A failed decode counts in the recorder by its first failed check (R26). -/
def Ev.countBad (e : Env) (v : Ev) : Decoded → Ev
  | .invalid r => v.record (recCount (0x0028 + e.lane.num) r.num)
  | _ => v

/-- The word-store address of the position a force names (R166, Table 8-8); none where the forme has no such
position. -/
def Forme.forceAddr (f : Forme) (path id kind word : Nat) : Option Nat :=
  let chk (a : Nat) : Option Nat := if (f.decl a).kind = kind ∧ (f.decl a).id = id then some a else none
  match path with
  | 0x01 =>
    if word ≠ 0 then none
    else match f.chanGroup id with
    | some i =>
      if f.channels.any (fun r => r.group == id && r.isInput) then (chk (f.addr 0x03 i 0)).orElse (fun _ => chk (f.addr 0x03 i 1))
      else none
    | none =>
      match f.remGroup id 0, f.galleyId id with
      | some i, _ => chk (f.addr 0x11 i 0)
      | none, some g => if ((f.galley[g]?).map (·.target)) = some 2 then chk (f.addr 0x12 g 1) else none
      | none, none => none
  | 0x02 =>
    match f.pointNo id, f.signalNo id, f.sectionNo id, f.headNo id, f.crossingNo id, f.funcNo id with
    | some i, _, _, _, _, _ => if word < 3 then chk (f.addr 0x06 i word) else none
    | _, some i, _, _, _, _ => if word < 3 then chk (f.addr 0x07 i word) else none
    | _, _, some i, _, _, _ => if word < 5 then chk (f.addr 0x08 i word) else none
    | _, _, _, some i, _, _ => if word < 2 then chk (f.addr 0x09 i word) else none
    | _, _, _, _, some i, _ => if word < 3 then chk (f.addr 0x0A i word) else none
    | _, _, _, _, _, some i => if word < 21 then chk (f.addr 0x13 i word) else none
    | _, _, _, _, _, _ => none
  | 0x03 =>
    if word ≠ 0 then none
    else match findIdx (fun g : GalleyRec => g.id == id && g.kind == kind) f.galley with
    | some i => some (f.addr 0x12 i 0)
    | none => none
  | _ => none

/-- x with a force applied: forced members take the forced value, the others keep the program's (R169). -/
def Force.apply (q : Force) (x : Nat) : Nat :=
  if q.kind = 1 ∧ member q.flags 1 then Nat.lor (Nat.land x (65535 - q.mask % 65536)) (Nat.land q.x q.mask) else q.x

/-- The force held on a path at an address. -/
def Ev.forceAt (e : Env) (v : Ev) (path a : Nat) : Option Force :=
  v.core.frisket.find? (fun q => q.path == path && e.forme.forceAddr q.path q.id q.kind q.word == some a)

/-- Write x at an address on a path; a force held there wins, and the shadow keeps the program's value (R169). -/
def Ev.putPath (e : Env) (v : Ev) (path a kind x : Nat) : Ev :=
  match v.forceAt e path a with
  | none => v.putRaw e a kind x
  | some q =>
    let v := { v with core := { v.core with shadow := kvSet v.core.shadow a x } }
    v.putRaw e a kind (q.apply x)

/-- A write by a term or an evaluator. -/
def Ev.put (e : Env) (v : Ev) (a x : Nat) : Ev := v.putPath e 0x02 a (e.forme.decl a).kind x

/-- Word w of record i of a region. -/
def Ev.rd (e : Env) (v : Ev) (code i w : Nat) : Nat := v.x e (e.forme.addr code i w)

def Ev.wr (e : Env) (v : Ev) (code i w x : Nat) : Ev := v.put e (e.forme.addr code i w) x

/-- The program's own value of word w of record i: the shadow where the word is forced (R169). -/
def Ev.programX (e : Env) (v : Ev) (code i w : Nat) : Nat :=
  let a := e.forme.addr code i w
  match v.forceAt e 0x02 a with
  | none => v.x e a
  | some _ => (kvGet v.core.shadow a).getD (v.x e a)

/-! ### Inputs and outputs by I/O reference (Table 4-4) -/

/-- Address and member of an input reference. -/
def Forme.inputAt (f : Forme) (ref : Nat) : Option (Nat × Nat) :=
  match refClass ref with
  | 0x1 => (f.chanOf (refIndex ref)).bind (fun r => (f.chanGroup r.group).map (fun i => (f.addr 0x03 i 0, r.member)))
  | 0x2 => (f.chanOf (32 + refIndex ref)).bind (fun r => (f.chanGroup r.group).map (fun i => (f.addr 0x03 i 0, r.member)))
  | 0x3 => (f.remotes[refIndex ref]?).bind (fun r => (f.remGroup r.group r.output).map (fun i => (f.addr 0x11 i 0, r.member)))
  | _ => none

/-- The member an input reference names; an invalid input reads 0 (Table 4-15). -/
def Ev.input (e : Env) (v : Ev) (ref : Nat) : Bool :=
  match e.forme.inputAt ref with
  | some (a, m) => member (v.x e a) m
  | none => false

/-- Write a galley position of record i: its word in region 0x12. -/
def Ev.putGalley (e : Env) (v : Ev) (i x : Nat) : Ev := v.put e (e.forme.addr 0x12 i 0) x

/-- Command an output reference to x: a vital output or a remote output through its galley position, a universal
output through its member of the group word. -/
def Ev.output (e : Env) (v : Ev) (ref x : Nat) : Ev :=
  match refClass ref with
  | 0x1 =>
    match e.forme.inputAt ref with
    | some (a, m) => v.put e a (setMember (v.x e a) m (x != 0))
    | none => v
  | 0x2 =>
    match e.forme.galleyOf 1 (refIndex ref) with
    | some i => v.putGalley e i x
    | none => v
  | 0x3 =>
    match e.forme.remotes[refIndex ref]? with
    | some r =>
      match e.forme.galleyNet r.group with
      | some i =>
        if ((e.forme.galley[i]?).map (·.kind)) = some 1 then
          v.putGalley e i (setMember (v.x e (e.forme.addr 0x12 i 0)) r.member (x != 0))
        else v.putGalley e i x
      | none => v
    | none => v
  | _ => v

/-! ### Blocks (R63, R125, R180, R205) -/

/-- A vital output's element reads restrictive: blocked, its bank blocked, or its bank held. -/
def LaneCore.voOut (c : LaneCore) (vo : Nat) : Bool :=
  c.voBlocked.contains vo || c.bankBlocked.contains (4 + vo / 8) || c.holds.any (fun h => h.bank == 4 + vo / 8)

/-- An I/O reference names a vital output under a block or a hold, or a channel of a blocked universal bank. -/
def Ev.refOut (e : Env) (v : Ev) (ref : Nat) : Bool :=
  (refClass ref == 2 && v.core.voOut (refIndex ref)) || (refClass ref == 1 && e.ubanks.contains (refIndex ref / 8))

/-- The "not blocked" member of an element: no operator block, and no channel it uses blocked (R150, R180). -/
def Ev.notBlocked (e : Env) (v : Ev) (id : Nat) (refs : List Nat) : Bool :=
  !v.core.opBlocks.contains id && !refs.any (v.refOut e)

/-! ### Requests frozen into this cycle -/

/-- The first frozen request that a choice picks. -/
def Env.req (e : Env) (p : ReqKind → Bool) : Option Req := e.reqs.find? (fun q => p q.kind)

end Sys2Proof.Machine
end

