-- ==== Sys2Proof/Machine/Quoin.lean ====
section
/-! DEFINITION. The quoin unit (R108 to R114): searching, compatibility, allocation, commit and release of lock rows. -/

namespace Sys2Proof.Machine

/-- A row as a search returns it; `owner` is none where the row fails its code check (R111). -/
structure Held where
  row : Nat
  id : Nat
  kind : Nat
  state : Nat
  group : Nat
  owner : Option Nat
  deriving DecidableEq, Repr

/-- A row of the table decoded. -/
def heldRow (e : Env) (p : Nat × Word64) : Held :=
  { row := p.1, id := rowId p.2, kind := rowKind p.2, state := rowState p.2, group := rowGroup p.2,
    owner := if e.badRows.contains p.1 then none else rowOwner e.lane p.2 }

/-- Every valid row that carries an identity. -/
def Ev.rowsOf (e : Env) (v : Ev) (id : Nat) : List Held := (v.core.quoin.filter (fun p => rowId p.2 == id)).map (heldRow e)

/-- Every valid row of an owner. -/
def Ev.rowsOwned (e : Env) (v : Ev) (owner : Nat) : List Held :=
  (v.core.quoin.map (heldRow e)).filter (fun h => h.owner == some owner)

/-- Some row names the element. -/
def Ev.named (e : Env) (v : Ev) (id : Nat) : Bool := !(v.rowsOf e id).isEmpty

/-- Owner value of a route or an overlap (Table 6-2). -/
def ownerRoute (r : Nat) : Nat := r % 32768
def ownerOverlap (o : Nat) : Nat := o % 32768 + 32768

/-- The position of the quoin row of a point: kind 0x3 or 0x4 (Table 6-3); 0 when no row names it. -/
def Ev.lockedPos (e : Env) (v : Ev) (id : Nat) : Nat :=
  (((v.rowsOf e id).find? (fun h => h.kind == 3 || h.kind == 4)).map (·.state)).getD 0

/-- Whether a requested lock is compatible with a held row of another owner (Table 6-4). `entry` is the requesting
route's entry signal. -/
def compatible (f : Forme) (entry kind state : Nat) (h : Held) : Bool :=
  match h.owner with
  | none => false
  | some o =>
    match kind with
    | 0x1 => h.kind == 2 && (((f.overlaps[o - 32768]?).map (·.start)) == some entry) && decide (32768 ≤ o)
    | 0x2 => h.kind == 2 && h.state == state
    | 0x3 | 0x4 => (h.kind == 3 || h.kind == 4) && h.state == state
    | 0x5 => h.kind == 5
    | 0x6 => false
    | 0x7 => h.kind == 7
    | _ => false

/-- The first held row of another owner that conflicts with a requested lock (R109). -/
def Ev.conflict (e : Env) (v : Ev) (owner entry id kind state : Nat) : Option Held :=
  (v.rowsOf e id).find? (fun h => h.owner != some owner && !compatible e.forme entry kind state h)

/-- State of a section by identity; 0 where there is none. -/
def Ev.sectionState (e : Env) (v : Ev) (id : Nat) : Nat :=
  match e.forme.sectionNo id with
  | some i => v.rd e 0x08 i 0
  | none => 0

/-- Occupied as a route sees it: occupied or awaiting a sweep (R144). -/
def occupied (s : Nat) : Bool := s == 1 || s == 2

/-- The owner that an outcome record names for a conflicting row; 0xFFFF for a row that fails its check. -/
def Held.ownerField (h : Held) : Nat := h.owner.getD 0xFFFF

/-! ### Free rows (R112) -/

/-- The lowest number from n upwards that is not among rising keys. -/
def lowestFree : List Nat → Nat → Nat
  | [], n => n
  | k :: t, n => if k = n then lowestFree t (n + 1) else lowestFree t n

/-- The highest number from n downwards that is not among falling keys. -/
def highestFree : List Nat → Nat → Nat
  | [], n => n
  | k :: t, n => if k = n then highestFree t (n - 1) else highestFree t n

/-- The row a lane takes for a lock of an owner: A the lowest free, B the highest free, C upwards from
(x × 40 503) mod 65 536. -/
def freeRow (l : LaneId) (quoin : List (Nat × Word64)) (owner : Nat) : Nat :=
  let keys := quoin.map (·.1)
  match l with
  | .a => lowestFree keys 0
  | .b => highestFree keys.reverse 65535
  | .c =>
    let n := lowestFree keys (owner * 40503 % 65536)
    if n < 65536 then n else lowestFree keys 0

/-- Rows that are neither valid nor staged for the route in hand (R114). -/
def Ev.freeRows (v : Ev) : Nat :=
  65536 - v.core.quoin.length - ((v.pend.map (fun p => p.rows.length)).getD 0)

/-- Make one staged row valid (R111). -/
def commitRow (l : LaneId) (q : List (Nat × Word64)) (r : Row) : List (Nat × Word64) :=
  kvSet q (freeRow l q r.owner) (quoinEntry l r.id r.kind r.state r.group r.owner)

/-- Make the staged rows of one request valid together. -/
def Ev.commit (e : Env) (v : Ev) (rows : List Row) : Ev :=
  { v with core := { v.core with quoin := rows.foldl (commitRow e.lane) v.core.quoin } }

/-- Free the rows of an owner: those of one release group, or all of them. -/
def Ev.freeOwned (e : Env) (v : Ev) (owner : Nat) (group : Option Nat) : Ev :=
  { v with core := { v.core with quoin := v.core.quoin.filter (fun p =>
      let h := heldRow e p
      !(h.owner == some owner && (group.isNone || group == some h.group))) } }

/-! ### Flank rows (R113) -/

/-- The rules of a chain from a record, in depth order, at most n. -/
def flankChain (f : Forme) : Nat → Nat → List FlankRec
  | 0, _ => []
  | n + 1, i =>
    match f.flanks[i]? with
    | none => []
    | some r => r :: flankChain f n r.next

/-- The flank row of a point for a position: the rules of its chain whose trigger position equals it. -/
def flankRow (f : Forme) (point pos : Nat) : List FlankRec :=
  match f.points.find? (fun p => p.id == point) with
  | none => []
  | some p => (flankChain f 8 p.flank).filter (fun r => r.trigger == pos)

/-- The position a flank rule requires of its protecting point: on, for a derailer, is normal (R134). -/
def FlankRec.pos (r : FlankRec) : Nat := if r.prole = 3 then 1 else r.ppos

/-- Status member of an element by region code, record, word and member. -/
def Ev.statusOf (e : Env) (v : Ev) (code i w m : Nat) : Bool := member (v.rd e code i w) m

/-- A point is failed, or its stroke fault is latched. -/
def Ev.pointFailed (e : Env) (v : Ev) (i : Nat) : Bool := v.rd e 0x06 i 0 == 5 || !v.statusOf e 0x06 i 1 3

/-- A flank rule can be satisfied for an owner (R113). -/
def Ev.satisfiable (e : Env) (v : Ev) (owner : Nat) (r : FlankRec) : Bool :=
  if r.prole = 2 then
    !(v.rowsOf e r.pid).any (fun h => h.owner == none || (h.kind == 6 && h.owner != some owner))
  else
    match e.forme.pointNo r.pid with
    | none => false
    | some i =>
      v.statusOf e 0x06 i 1 2 && !v.pointFailed e i &&
      !(v.rowsOf e r.pid).any (fun h => h.owner == none ||
        ((h.kind == 3 || h.kind == 4) && h.state != r.pos && h.owner != some owner))

/-- The rule selected from a flank row: the first that can be satisfied. -/
def Ev.selectFlank (e : Env) (v : Ev) (owner : Nat) (rules : List FlankRec) : Option FlankRec :=
  rules.find? (fun r => v.satisfiable e owner r)

/-- The row a selected rule becomes, with the release group of the protected point. -/
def FlankRec.row (r : FlankRec) (owner group : Nat) : Row :=
  if r.prole = 2 then { id := r.pid, kind := 5, state := 0, group := group, owner := owner }
  else { id := r.pid, kind := 4, state := r.pos, group := group, owner := owner }

end Sys2Proof.Machine
end

