-- ==== Sys2Proof/Machine/Input.lean ====
section
/-! DEFINITION. The input phase (R12, R13, R28, R30, R32, R75): every input word of the cycle transcoded into the lane's
set, with the restrictive defaults of Table 4-15 and the input forces of R169. -/

namespace Sys2Proof.Machine

/-- Addresses of the words that the field side seals (Table 10-3). -/
def Forme.localInputs (f : Forme) : List Nat :=
  let groups := ((f.channels.filter (·.isInput)).map (·.group)).eraseDups
  let words := groups.flatMap (fun g => match f.chanGroup g with
    | none => []
    | some i =>
      let second := (f.channels.filter (fun r => r.group == g)).any (fun r => r.func == 3 || r.func == 4)
      f.addr 0x03 i 0 :: (if second then [f.addr 0x03 i 1] else []))
  words ++ (indexed f.galley).filterMap (fun p =>
    if p.2.target = 1 ∨ p.2.target = 2 then some (f.addr 0x12 p.1 1) else none)

/-- Groups of remote input points. -/
def Forme.remoteInputs (f : Forme) : List Nat :=
  ((f.remotes.filter (fun r => r.output == 0)).map (·.group)).eraseDups

/-- What an arriving word of set 0xA gives at an address: x, tag and kind, or nothing (R26, R13). A restrictive word keeps
its kind 0x4 (R28); at a count it stands for the default of Table 4-15, as an invalid word does (R23). -/
def Env.arriving (e : Env) (a : Nat) (w : Word64) : Option (Nat × Nat × Nat) :=
  let d := e.forme.decl a
  match e.forme.judged a d.kind (decode w d.id d.kind 0xA e.now d.highest) with
  | .valid x => some (x, wordTag w, d.kind)
  | .restrictive => if d.kind = 2 then none else some (0, wordTag w, 4)
  | .invalid _ => none

/-- The last valid count stays in the store under the new tag (Table 4-15). -/
def Ev.lastCount (e : Env) (v : Ev) (a : Nat) : Nat := v.x e a

/-- Store one input word: x with the tag and kind it carries, or the default; an input force comes last (R169). `mask` are
the members that are still within their age bounds; a word of which some are not keeps its tag and kind (R28, R30). -/
def Ev.takeInput (e : Env) (v : Ev) (a : Nat) (got : Option (Nat × Nat × Nat)) (mask : Nat) : Ev :=
  let kind := (e.forme.decl a).kind
  let v := { v with core := { v.core with unavail := withFlag v.core.unavail a got.isNone } }
  let base : Nat × Nat × Nat := match got with
    | some (x, tag, k) => (if kind = 1 then Nat.land x mask else x, tag, k)
    | none => (if kind = 2 then v.lastCount e a else 0, e.now, kind)
  match v.forceAt e 0x01 a with
  | none => v.putTag e a base.1 base.2.1 base.2.2
  | some q =>
    ({ v with core := { v.core with shadow := kvSet v.core.shadow a base.1 } }).putTag e a (q.apply base.1) e.now kind

/-- The recorder counts a word that arrived and fails its decode, by its first failed check (R26). -/
def Ev.countReject (e : Env) (v : Ev) (a : Nat) (w : Option Word64) : Ev :=
  let d := e.forme.decl a
  match w with
  | some w => v.countBad e (decode w d.id d.kind 0xA e.now d.highest)
  | none => v

/-- One local input word. -/
def Ev.localInput (e : Env) (v : Ev) (a : Nat) : Ev :=
  let w := if e.link ∧ !e.lost.contains a then kvGet e.sealed a else none
  (v.countReject e a w).takeInput e a (w.bind (e.arriving a)) 0xFFFF

/-- Identity of the node that a remote point's node field names: a record of region 0x04, or a neighbour (R262). -/
def Env.sender (e : Env) (node : Nat) : Option Nat :=
  if e.forme.header.personality = 2 then
    if node = 0xFFE1 then e.neighbours.1.map (fun n => 0x7F00 + n)
    else if node = 0xFFE2 then e.neighbours.2.map (fun n => 0x7F00 + n)
    else (e.forme.nodes[node]?).map (·.id)
  else (e.forme.nodes[node]?).map (·.id)

/-- Static entries of a node, by their number in the imposition, in order (R247). -/
def entriesOf (l : List ImpEntry) (owner : Nat) : List Nat :=
  ((indexed l).filter (fun p => p.2.owner == owner && p.2.flags % 2 == 0)).map (·.1)

/-- The static entry that carries a remote point (R247). -/
def Env.carrier (e : Env) (r : RemoteRec) : Option Nat :=
  (e.sender r.node).bind (fun id => (entriesOf e.entries id)[r.ordinal]?)

/-- Receive buffer of a static entry in the snapshot. -/
def Env.buffer (e : Env) (entry : Nat) : Option Buffer := e.snapshot.find? (fun b => b.entry == entry)

/-- Effective bound of a maximum age (R32). -/
def Env.ageBound (e : Env) (maxAge : Nat) : Nat := min maxAge (2 * e.m)

/-- One remote input group: its word, each member against its own point's bound, any other kind against the smallest
bound (R32). -/
def Ev.remoteInput (e : Env) (v : Ev) (g : Nat) : Ev :=
  match e.forme.remGroup g 0 with
  | none => v
  | some i =>
    let a := e.forme.addr 0x11 i 0
    match e.forme.remotes[i]? with
    | none => v
    | some r =>
      let points := e.forme.remotes.filter (fun q => q.group == g && q.output == 0)
      let buf := (e.carrier r).bind e.buffer
      let word := if e.lost.contains a then none else buf.bind (fun b => b.words[r.word]?)
      let age := (buf.map (·.age)).getD 255
      let old := points.filter (fun q => decide (e.ageBound q.maxAge < age))
      let v := v.countReject e a word
      if (e.forme.decl a).kind = 1 then
        let mask := old.foldl (fun m q => setMember m q.member false) 0xFFFF
        v.takeInput e a (word.bind (e.arriving a)) mask
      else v.takeInput e a (if old.isEmpty then word.bind (e.arriving a) else none) 0xFFFF

/-- The whole input phase. -/
def Ev.inputPhase (e : Env) (v : Ev) : Ev :=
  e.forme.remoteInputs.foldl (Ev.remoteInput e) (e.forme.localInputs.foldl (Ev.localInput e) v)

end Sys2Proof.Machine
end

