-- ==== Sys2Proof/Machine/Point.lean ====
section
/-! DEFINITION. The point evaluator EVP (R127 to R134), element requests (R132, R179) and point restoration (R182). -/

namespace Sys2Proof.Machine

def PointMem.empty : PointMem := 
  { drive := 0, goal := 0, loss := 0, last := 0, slot := none, failed := false, asked := 0, byRequest := false, trailed := false }

def Ev.pointMem (v : Ev) (i : Nat) : PointMem := kvGetD v.core.points i .empty

def Ev.setPointMem (v : Ev) (i : Nat) (m : PointMem) : Ev :=
  { v with core := { v.core with points := kvSet v.core.points i m } }

/-- A detection pair (Table 7-3): 1 normal, 2 reverse, 0 no end position, 3 antivalence violation. -/
def pairReading (n r : Bool) : Nat :=
  match n, r with
  | true, false => 1
  | false, true => 2
  | false, false => 0
  | true, true => 3

/-- The readings of a point's machines (R128): machine j has the pair at the reference indices plus j. -/
def Ev.machineReadings (e : Env) (v : Ev) (p : PointRec) : List Nat :=
  (List.range p.machines).map (fun j => pairReading (v.input e (refPlus p.detN j)) (v.input e (refPlus p.detR j)))

/-- The position every machine of the point reads; 0 when they do not all read one end position. -/
def Ev.ownDetection (e : Env) (v : Ev) (p : PointRec) : Nat :=
  let rs := v.machineReadings e p
  if rs.isEmpty then 0
  else if rs.all (· == 1) then 1
  else if rs.all (· == 2) then 2
  else 0

/-- The record number of the point coupled with this one. -/
def Forme.partner (f : Forme) (p : PointRec) : Option Nat := if p.coupled = 0xFFFF then none else f.pointNo p.coupled

/-- Detection as the evaluator reports it: a coupled pair only when both match (R133). -/
def Ev.detection (e : Env) (v : Ev) (p : PointRec) : Nat :=
  let d := v.ownDetection e p
  match (e.forme.partner p).bind (fun j => e.forme.points[j]?) with
  | none => d
  | some q => if v.ownDetection e q = d then d else 0

/-- The vital outputs and inputs a point uses. -/
def PointRec.refs (p : PointRec) : List Nat :=
  [p.driveN, p.driveR] ++ (List.range p.machines).flatMap (fun j => [refPlus p.detN j, refPlus p.detR j])

/-- The "not blocked" member of a point. -/
def Ev.pointUnblocked (e : Env) (v : Ev) (p : PointRec) : Bool := v.notBlocked e p.id p.refs

/-- Why a point is not free to move (R132), its own conditions only; 0 when it is. -/
def Ev.pointHindered (e : Env) (v : Ev) (p : PointRec) : Nat :=
  if v.named e p.id then 0x04
  else if !v.pointUnblocked e p then 0x0B
  else match e.forme.sectionNo p.sec with
    | none => 0x07
    | some i =>
      let s := v.rd e 0x08 i 0
      if s = 0 then 0x07 else if s = 3 then 0 else 0x06

/-- Why a point or its coupled point is not free to move; 0 when both are. The point's own first reason comes before its
partner's (DESIGN CHOICE, log 59: R132 gives no order across the pair). -/
def Ev.moveHindered (e : Env) (v : Ev) (p : PointRec) : Nat :=
  let own := v.pointHindered e p
  if own ≠ 0 then own
  else match (e.forme.partner p).bind (fun j => e.forme.points[j]?) with
    | none => 0
    | some q => v.pointHindered e q

/-- The frozen requests that move this point, or the point coupled with it, in their order: the position, the slot, and
whether the request names this point itself. -/
def Env.moveRequests (e : Env) (p : PointRec) : List (Nat × Option Nat × Bool) :=
  e.reqs.filterMap (fun q => match q.kind with
    | .pointMove id pos =>
      if id = p.id then some (pos, q.slot, true)
      else if id = p.coupled ∧ p.coupled ≠ 0xFFFF then some (pos, q.slot, false)
      else none
    | _ => none)

/-- An acknowledged auxiliary action for a target and code in this cycle: its authority and staging (R187). -/
def Ev.action (v : Ev) (code target : Nat) : Option (Nat × Staging) :=
  v.execs.find? (fun q => q.2.code == code && q.2.target == target)

/-- Hand the outcome of an auxiliary action: executed, or refused with a reason; its request ends (R182, R187). -/
def Ev.endAction (e : Env) (v : Ev) (q : Nat × Staging) (reason : Nat) : Ev :=
  let r := { outRec false q.2.target (some q.2.slot) (if reason = 0 then 0x09 else 0x03) reason e.now with
    code := q.2.code, ticket := q.2.ticket, authority := q.1 }
  { v.hand r with execs := v.execs.filter (fun x => !(x.1 == q.1 && x.2.ticket == q.2.ticket)),
                  core := { v.core with stagings := kvDel v.core.stagings (q.1 + 8 * q.2.ticket) } }

/-- A block set at an element's scan (R180). -/
def Ev.applyBlock (e : Env) (v : Ev) (id : Nat) : Ev :=
  e.reqs.foldl (fun v q => match q.kind with
    | .block n =>
      if n = id then
        { v.hand (outRec false id q.slot 0x01 0 e.now) with
          core := { v.core with opBlocks := insertOnce v.core.opBlocks id } }
      else v
    | _ => v) v

/-- A block removal acknowledged for this element (Table 9-3, code 0x6). -/
def Ev.removeBlock (e : Env) (v : Ev) (id : Nat) : Ev :=
  match v.action 6 id with
  | some q => ({ v with core := { v.core with opBlocks := removeAll v.core.opBlocks id } }).endAction e q 0
  | none => v

/-- One element request for this point or its partner is judged (R132, R133, R179): refused, answered `STATE` in the safe
state (Table 6-6), or accepted as the position to seek. A request in progress keeps its slot until the point is detected
where it asked, or a stroke fault or a route lock ends it. -/
def Ev.judgeMove (e : Env) (p : PointRec) (a : Ev × PointMem × Bool) (q : Nat × Option Nat × Bool) : Ev × PointMem × Bool :=
  let v := a.1
  let m := a.2.1
  let why := if e.safe then 0 else v.moveHindered e p
  if e.safe ∨ why ≠ 0 then
    (if q.2.2 then v.hand (outRec false p.id q.2.1 (if why = 0 then 0 else 0x03) why e.now) else v, m, a.2.2)
  else
    let m := { m with goal := q.1, loss := 0, byRequest := true }
    (v, if q.2.2 then { m with slot := q.2.1, asked := q.1 } else m, true)

/-- The status word of a point (Table 7-1). -/
def pointStatus (m0 m1 m2 m3 m4 : Bool) : Nat := ofMembers [m0, m1, m2, m3, m4]

/-- Loss of detection with no drive on (R131). A trailable point's filter does not start while its section is occupied; a
point run through in that way has the filter to return to its previous position, whatever it reads meanwhile (R134). Answers loss
count, failed, whether `ev.point_lost` is raised. -/
def lossStep (filter d : Nat) (trailable sectionOccupied : Bool) (m : PointMem) : Nat × Bool × Bool :=
  if m.last = 0 ∨ d = m.last then (0, m.failed, false)
  else if trailable ∧ sectionOccupied then (0, m.failed, false)
  else if d ≠ 0 ∧ !m.trailed then (0, true, !m.failed)
  else
    -- the first scan without detection counts 0
    if filter ≤ m.loss then (m.loss, true, !m.failed) else (m.loss + 1, m.failed, false)

/-- Why a point restoration is refused (Table 9-3, code 0x2), its own conditions only; 0 when it is not. -/
def Ev.restoreHindered (e : Env) (v : Ev) (p : PointRec) : Nat :=
  if v.named e p.id then 0x04 else if !v.pointUnblocked e p then 0x0B else 0

/-- The same for a coupled pair, which is restored together (R133). -/
def Ev.pairHindered (e : Env) (v : Ev) (p : PointRec) : Nat :=
  let own := v.restoreHindered e p
  if own ≠ 0 then own
  else match (e.forme.partner p).bind (fun j => e.forme.points[j]?) with
    | none => 0
    | some q => v.restoreHindered e q

/-- EVP: one scan of a point with its enable acc[0]; the answer is "detected and locked". -/
def Ev.evp (e : Env) (v : Ev) (i : Nat) (enable : Bool) : Ev × Bool :=
  match e.forme.points[i]? with
  | none => (v, false)
  | some p =>
    let v := (v.applyBlock e p.id).removeBlock e p.id
    let d := v.detection e p
    let violation := (v.machineReadings e p).any (· == 3)
    let m := v.pointMem i
    -- at the first scan no latch stands, and m4 follows the detection (Table 5-5)
    let first := (kvGet v.core.points i).isNone
    let m3 := first || v.statusOf e 0x06 i 1 3
    let m4 := if first then !violation else v.statusOf e 0x06 i 1 4
    -- auxiliary point restoration (Table 9-3, code 0x2), of this point or of the one coupled with it
    let own := v.action 2 p.id
    let why := v.pairHindered e p
    let restored := (p.coupled != 0xFFFF && v.restored.contains p.coupled) ||
      ((own.isSome || (p.coupled != 0xFFFF && (v.action 2 p.coupled).isSome)) && why == 0)
    let v := match own with
      | some q => { v.endAction e q why with restored := if why = 0 then p.id :: v.restored else v.restored }
      | none => v
    let m := if restored then { m with failed := false, goal := 0, loss := 0, last := d, trailed := false } else m
    let m3 := m3 || restored
    let m4 := m4 || restored
    -- element request
    let (v, m, accepted) := (e.moveRequests p).foldl (Ev.judgeMove e p) (v, m, false)
    let m3 := m3 || accepted
    -- the drive (R129)
    let arrived := m.goal != 0 && d == m.goal
    let want := if enable ∧ !arrived ∧ m3 then m.goal else 0
    let drive := if want ≠ 0 ∧ m.drive ≠ 0 ∧ m.drive ≠ want then 0 else want
    -- the stroke (R130): detection is evaluated first
    let count0 := v.rd e 0x06 i 2
    let count := if drive = 0 then 0 else if drive = m.drive ∧ !accepted then sat16 count0 1 else 0
    let stroke := drive != 0 && drive == m.drive && !accepted && decide (e.forme.floorCycles p.stroke ≤ count)
    let v := if stroke then v.raise evPointStroke (leBytes 2 p.id) else v
    -- a coupled point fails with its partner, which is at rest and failed (R133)
    let partnerFailed := match e.forme.partner p with
      | some j => v.rd e 0x06 j 0 == 5 && (v.pointMem j).goal == 0 && !arrived && !restored && !accepted
      | none => false
    let ends := stroke || (partnerFailed && drive != 0)
    let reached := d != 0 && m.asked == d
    let v := match ends, m.slot with
      | true, some s => v.hand (outRec false p.id (some s) 0x03 0x05 e.now)
      | _, _ => v
    let v := match reached && !ends, m.slot with
      | true, some s => v.hand (outRec false p.id (some s) 0x01 0 e.now)
      | _, _ => v
    let m3 := m3 && !stroke
    let drive := if ends then 0 else drive
    -- only an accepted element request clears the failure by reaching its position (R131)
    let cleared := arrived && m.byRequest
    let m4 := m4 || (cleared && m.failed)
    let m : PointMem := if ends ∨ reached then { m with slot := none, asked := 0 } else m
    let m : PointMem := if arrived ∨ ends then { m with goal := 0, byRequest := false } else m
    let m : PointMem := if arrived then { m with failed := m.failed && !cleared, last := d, loss := 0 } else m
    let moving := drive != 0 || (m.goal != 0 && enable)
    let m : PointMem := if moving then { m with last := 0, loss := 0, trailed := false } else m
    -- loss of detection (R131, R134)
    let secState := match e.forme.sectionNo p.sec with
      | some j => v.rd e 0x08 j 0
      | none => 0
    let (loss, failed, lost) :=
      if moving then (0, m.failed, false)
      else lossStep (e.forme.floorCycles p.filter) d (p.typ == 3) (secState == 1 || secState == 2) m
    let failed := failed || partnerFailed
    let trailed := m.last != 0 && d != m.last && (m.trailed || (p.typ == 3 && (secState == 1 || secState == 2)))
    let v := if lost then v.raise evPointLost (leBytes 2 p.id) else v
    let m4 := m4 && !(lost && violation)
    let m : PointMem := { m with
      drive := drive, loss := loss, failed := failed, trailed := trailed,
      last := if !moving ∧ !failed ∧ d ≠ 0 ∧ (m.last = 0 ∨ m.last = d) then d else m.last }
    -- the words of Table 7-1
    let state := if m.failed ∨ !m3 then 5 else if drive ≠ 0 then 2 + drive else d
    let row := v.lockedPos e p.id
    let m0 := row != 0 && state == row
    let m2 := v.pointUnblocked e p
    let m1 := v.moveHindered e p == 0
    let v := v.setPointMem i m
    let v := v.wr e 0x06 i 0 state
    let v := v.wr e 0x06 i 1 (pointStatus m0 m1 m2 m3 m4)
    let v := v.wr e 0x06 i 2 count
    let v := v.output e p.driveN (b2n (drive == 1))
    let v := v.output e p.driveR (b2n (drive == 2))
    (v, v.statusOf e 0x06 i 1 0)

end Sys2Proof.Machine
end

