-- ==== Sys2Proof/Machine/Timers.lean ====
section
/-! DEFINITION. Timers and edge detectors (R98 to R101, R161). -/

namespace Sys2Proof.Machine

/-- Scan timer i with its run condition (R99, R161): count in word 0, lead in word 1, `started` in member 0 of word 2.
Answers whether it is expired. -/
def Ev.scanTimer (e : Env) (v : Ev) (i : Nat) (run : Bool) : Ev × Bool :=
  match e.forme.timers[i]? with
  | none => (v, false)
  | some t =>
    let put (v : Ev) (count lead started : Nat) : Ev :=
      ((v.wr e 0x0F i 0 count).wr e 0x0F i 1 lead).wr e 0x0F i 2 started
    if !run then (put v 0 0 0, false)
    else
      let count := v.rd e 0x0F i 0
      let lead := v.rd e 0x0F i 1
      let started := member (v.rd e 0x0F i 2) 0
      let step := if t.cls = 2 then 1 + e.extra else 1
      let lead' := if started ∧ 0 < lead then lead - 1 else lead
      let count' := if started ∧ lead = 0 then sat16 count step else count
      (put v count' lead' 1, decide (e.forme.timerN t ≤ count'))

/-- The expired flag that a timer's words hold, without a scan. -/
def Ev.timerExpired (e : Env) (v : Ev) (i : Nat) : Bool :=
  match e.forme.timers[i]? with
  | none => false
  | some t => member (v.rd e 0x0F i 2) 0 && decide (e.forme.timerN t ≤ v.rd e 0x0F i 0)

/-- Timers of routes (R120), overlaps (R121) and authorities (R185): the device gives their run condition. -/
def Forme.deviceTimer (f : Forme) (i : Nat) : Bool :=
  f.routes.any (fun r => f.timerNo r.entry r.timer == some i) ||
  f.overlaps.any (fun o => f.timerNo o.start o.timer == some i) ||
  f.authorities.any (fun a => f.timerNo a.offer a.timer == some i)

/-- An overlap's release timer runs: it is locked, and its trigger section is occupied or an auxiliary release stands
(R121, Table 9-3). -/
def Ev.overlapRuns (e : Env) (v : Ev) (o : Nat) (rec : OverlapRec) : Bool :=
  !(v.rowsOwned e (ownerOverlap o)).isEmpty && (occupied (v.sectionState e rec.trigger) || v.core.ovlAux.contains o)

/-- Run condition of a device timer: a route of it is cancelling, which the auxiliary mark implies (R120, R183), an overlap
of it runs, or an authority of it has a staging open (R185). -/
def Ev.deviceRuns (e : Env) (v : Ev) (i : Nat) : Bool :=
  (indexed e.forme.routes).any (fun q => e.forme.timerNo q.2.entry q.2.timer == some i && v.rd e 0x0B q.1 0 == 5) ||
  (indexed e.forme.overlaps).any (fun q => e.forme.timerNo q.2.start q.2.timer == some i && v.overlapRuns e q.1 q.2) ||
  (indexed e.forme.authorities).any (fun q =>
    e.forme.timerNo q.2.offer q.2.timer == some i && (kvGet v.core.stagings q.1).isSome)

/-- TMR: timer a is scanned, the one time in the cycle (R98). It runs while acc[0]; a device timer runs under its own
condition instead (DEDUCED, log 17). The answer is its expired flag. -/
def Ev.tmr (e : Env) (v : Ev) (a : Nat) (run : Bool) : Ev × Bool :=
  v.scanTimer e a (if e.forme.deviceTimer a then v.deviceRuns e a else run)

/-- EDG: an edge of detector a in this cycle (R101); the first scan after a restart stores and reports none. -/
def Ev.edg (e : Env) (v : Ev) (a : Nat) : Ev × Bool :=
  match e.forme.edges[a]? with
  | none => (v, false)
  | some r =>
    let present := member (v.x e r.addr) r.member
    let hit := match kvGet v.core.edges a with
      | none => false
      | some old =>
        (!old && present && (r.typ == 1 || r.typ == 3)) || (old && !present && (r.typ == 2 || r.typ == 3))
    ({ v with core := { v.core with edges := kvSet v.core.edges a present } }, hit)

end Sys2Proof.Machine
end

