-- ==== Sys2Proof/Machine/Route.lean ====
section
/-! DEFINITION. The route strand (R107 to R121): checking a request, staging and committing its rows with an overlap,
the route's states of Table 6-1, sectional release and the strand's end. -/

namespace Sys2Proof.Machine

/-- Why a check fails: reason, identity and conflicting owner (Table 6-9). -/
structure Fail where
  reason : Nat
  ident : Nat
  owner : Nat
  deriving DecidableEq, Repr

/-- A route's memory before any request. -/
def RouteMem.empty : RouteMem :=
  { slot := none, lastSlot := 0, clearReq := false, withdrawn := false, auxMark := false, timeout := 0, ovl := none,
    released := 0, seen := [] }

def Ev.route (v : Ev) (r : Nat) : RouteMem := kvGetD v.core.routes r .empty

def Ev.setRoute (v : Ev) (r : Nat) (m : RouteMem) : Ev :=
  { v with core := { v.core with routes := kvSet v.core.routes r m } }

/-- The value by which a route without its overlap any more keeps it (no record has this number). -/
def lostOverlap : Nat := 0xFFFF

/-- Pool entries with their release groups (R119): a group ends at the first entry whose flag bit 0 is 0. -/
def poolGroups : Nat → List PoolEntry → List (Nat × PoolEntry)
  | _, [] => []
  | g, p :: t => (g, p) :: poolGroups (if p.flags % 2 = 1 then g else g + 1) t

/-- An occupied section that the class permits (R115). -/
def classPermits (cls : Nat) (first last : Bool) : Bool :=
  match cls with
  | 2 => last
  | 3 => !first
  | _ => false

/-- The "not blocked" member of the element an identity names is 0. -/
def Ev.blocked (e : Env) (v : Ev) (id : Nat) : Bool :=
  match e.forme.pointNo id, e.forme.signalNo id, e.forme.sectionNo id, e.forme.crossingNo id with
  | some i, _, _, _ => !v.statusOf e 0x06 i 1 2
  | _, some i, _, _ => !v.statusOf e 0x07 i 2 2
  | _, _, some i, _ => !v.statusOf e 0x08 i 4 0
  | _, _, _, some i => !v.statusOf e 0x0A i 2 0
  | _, _, _, _ => false

/-- The flank check of a point or anchor (R113): the selected rule's row, or reason 0x08. A flank row that holds no rule for
the position asks for no protection, an anchor's as a point's (DESIGN CHOICE, log 58). -/
def Ev.checkFlank (e : Env) (v : Ev) (owner group point pos : Nat) : Except Fail (List Row) :=
  match flankRow e.forme point pos with
  | [] => .ok []
  | r :: t =>
    match v.selectFlank e owner (r :: t) with
    | some q => .ok [q.row owner group]
    | none => .error { reason := 0x08, ident := r.pid, owner := 0xFFFF }

/-- The checks of R115 on one pool entry, and the rows it needs. `kindS` is the lock kind of a section: 0x1 in a route, 0x2
in an overlap. A crossing whose row fails its code check is refused with the crossing's own reason 0x0A, since Table 6-4
names none for kind 0x7 (DESIGN CHOICE, log 58). -/
def Ev.checkEntry (e : Env) (v : Ev) (owner entry cls kindS group : Nat) (first last : Bool) (p : PoolEntry) :
    Except Fail (List Row) :=
  let fail (reason : Nat) (o : Nat) : Except Fail (List Row) := .error { reason := reason, ident := p.id, owner := o }
  let row (kind state : Nat) : Row := { id := p.id, kind := kind, state := state, group := group, owner := owner }
  if p.role = 7 then v.checkFlank e owner group p.id p.state
  else if v.blocked e p.id then fail 0x0B 0xFFFF
  else match p.role with
    | 0x1 | 0x2 =>
      let pos := p.role
      match e.forme.pointNo p.id with
      | none => fail 0x05 0xFFFF
      | some i =>
        if v.pointFailed e i then fail 0x05 0xFFFF
        else match v.conflict e owner entry p.id 3 pos with
          | some h => fail 0x04 h.ownerField
          | none => (v.checkFlank e owner group p.id pos).map (fun rows => row 3 pos :: rows)
    | 0x3 =>
      let s := v.sectionState e p.id
      if s = 0 then fail 0x07 0xFFFF
      else if occupied s ∧ !classPermits cls first last then fail 0x06 0xFFFF
      else match v.conflict e owner entry p.id kindS p.state with
        | some h => fail 0x03 h.ownerField
        | none => .ok [row kindS p.state]
    | 0x6 =>
      match e.forme.crossingNo p.id with
      | none => fail 0x0A 0xFFFF
      | some i =>
        if v.rd e 0x0A i 0 = 0 then fail 0x0A 0xFFFF
        else match v.conflict e owner entry p.id 7 0 with
          | some h => fail 0x0A h.ownerField
          | none => .ok [row 7 0]
    | _ => .ok []

/-- The checks on a pool, in pool order; `n` sections have been seen and `total` are in the pool. -/
def Ev.checkPool (e : Env) (v : Ev) (owner entry cls kindS total : Nat) : Nat → List (Nat × PoolEntry) → Except Fail (List Row)
  | _, [] => .ok []
  | n, (g, p) :: t =>
    match v.checkEntry e owner entry cls kindS g (n == 0) (n + 1 == total) p with
    | .error x => .error x
    | .ok a =>
      match Ev.checkPool e v owner entry cls kindS total (if p.role = 3 then n + 1 else n) t with
      | .error x => .error x
      | .ok b => .ok (a ++ b)

/-- Number of section entries of a pool. -/
def sectionCount (l : List PoolEntry) : Nat := (l.filter (·.role == 3)).length

/-- Rows a pool needs (R114): those that were found, and one for each element that takes part without a lock of Table 6-3,
as a signal on the way does. -/
def rowsNeeded (pool : List PoolEntry) (rows : List Row) : Nat :=
  rows.length + (pool.filter (fun p => p.role == 4 || p.role == 5)).length

/-- The check of a route request (R115): the entry signal, the pool, the free rows. -/
def Ev.checkRoute (e : Env) (v : Ev) (r : Nat) (rt : RouteRec) : Except Fail (List Row) :=
  let owner := ownerRoute r
  let sig (o : Nat) : Except Fail (List Row) := .error { reason := 0x02, ident := rt.entry, owner := o }
  match e.forme.signalNo rt.entry with
  | none => sig 0xFFFF
  | some i =>
    if !v.statusOf e 0x07 i 2 2 ∨ !v.statusOf e 0x07 i 2 0 then sig 0xFFFF
    else match v.conflict e owner rt.entry rt.entry 6 rt.cls with
      | some h => sig h.ownerField
      | none =>
        let pool := e.forme.routePool rt
        match v.checkPool e owner rt.entry rt.cls 1 (sectionCount pool) 0 (poolGroups 0 pool) with
        | .error x => .error x
        | .ok g =>
          let rows : List Row := { id := rt.entry, kind := 6, state := rt.cls, group := 0, owner := owner } :: g
          if v.freeRows < rowsNeeded pool rows then .error { reason := 0x0E, ident := 0xFFFF, owner := 0xFFFF } else .ok rows

/-- One attempt on an overlap (R116). -/
def Ev.checkOverlap (e : Env) (v : Ev) (entry o : Nat) : Except Fail (List Row) :=
  match e.forme.overlaps[o]? with
  | none => .error { reason := 0x03, ident := 0xFFFF, owner := 0xFFFF }
  | some rec =>
    let owner := ownerOverlap o
    let pool := e.forme.overlapPool rec
    if !(v.rowsOwned e owner).isEmpty then
      .error { reason := 0x03, ident := ((pool.find? (·.role == 3)).map (·.id)).getD 0xFFFF, owner := owner }
    else match v.checkPool e owner entry 1 2 (sectionCount pool) 0 (poolGroups 0 pool) with
      | .error x => .error x
      | .ok g => if v.freeRows < rowsNeeded pool g then .error { reason := 0x0E, ident := 0xFFFF, owner := 0xFFFF } else .ok g

/-- The overlaps a route names: its default and that one's alternative. -/
def Forme.routeOverlaps (f : Forme) (rt : RouteRec) : List Nat :=
  if rt.overlap = 0xFFFF then []
  else rt.overlap :: (match f.overlaps[rt.overlap]? with
    | some o => if o.alt = 0xFFFF then [] else [o.alt]
    | none => [])

/-- The setting timeout in cycles (R117). -/
def Forme.settingTimeout (f : Forme) (rt : RouteRec) : Nat :=
  let pool := f.routePool rt ++ (f.routeOverlaps rt).flatMap (fun o => ((f.overlaps[o]?).map f.overlapPool).getD [])
  let stroke := (pool.filterMap (fun p =>
    if p.role = 1 ∨ p.role = 2 then (f.points.find? (fun q => q.id == p.id)).map (·.stroke) else none)).foldl max 0
  let cross := (pool.filterMap (fun p =>
    if p.role = 6 then (f.crossings.find? (fun q => q.id == p.id)).map (fun q => q.warning + q.lowering) else none)).foldl max 0
  f.floorCycles stroke + f.floorCycles cross + 3

/-- Write a route's words (R107, R119, R417): its state, and the sections seen occupied, 16 to a word by their place in the
pool (log 5). -/
def Ev.setState (e : Env) (v : Ev) (r st : Nat) : Ev :=
  let seen := (v.route r).seen
  (List.range ((e.forme.entry 0x0B).wordsPer - 1)).foldl
    (fun v w => v.wr e 0x0B r (w + 1) (ofMembers ((List.range 16).map (fun m => seen.contains (16 * w + m)))))
    (v.wr e 0x0B r 0 st)

/-- A point is commanded to a locked position; an element request in flight for it ends as superseded (Table 6-6). -/
def Ev.commandPoint (e : Env) (v : Ev) (row : Row) : Ev :=
  if row.kind = 3 ∨ row.kind = 4 then
    match e.forme.pointNo row.id with
    | none => v
    | some i =>
      let m := v.pointMem i
      let v := match m.slot with
        | some s => v.hand { outRec false row.id (some s) 0x03 0x0C e.now with owner := 0xFFFF }
        | none => v
      { v with core := { v.core with points := kvSet v.core.points i { m with goal := row.state, slot := none, asked := 0, byRequest := false } } }
  else v

/-- The routes whose overlap is o lose it. -/
def Ev.dropOverlap (v : Ev) (o : Nat) : Ev :=
  { v with core := { v.core with routes := v.core.routes.map (fun p =>
      if p.2.ovl = some o then (p.1, { p.2 with ovl := some lostOverlap }) else p) } }

/-- Owners of the locked overlaps that start at a route's entry signal, which its commit takes over (R117); `ovl` is the
overlap being locked with it. -/
def Ev.takenOver (e : Env) (v : Ev) (entry : Nat) (ovl : Option Nat) : List Nat :=
  (indexed e.forme.overlaps).filterMap (fun q =>
    if q.2.start = entry ∧ ovl ≠ some q.1 ∧ !(v.rowsOwned e (ownerOverlap q.1)).isEmpty then some q.1 else none)

/-- Commit the rows of a route and of its overlap (R111, R112), release taken-over overlaps (R117), and hand the
outcome `locked`. -/
def Ev.lockRoute (e : Env) (v : Ev) (p : Pend) (rt : RouteRec) (ovl : Option Nat) (ovlRows : List Row) : Ev :=
  let rows := p.rows ++ ovlRows
  let take := v.takenOver e rt.entry ovl
  let v := v.commit e rows
  let v := take.foldl (fun v o => (v.freeOwned e (ownerOverlap o) none).dropOverlap o) v
  let v := rows.foldl (Ev.commandPoint e) v
  let v := v.setRoute p.route { RouteMem.empty with
    slot := p.slot, lastSlot := p.slot.getD 0, timeout := e.forme.settingTimeout rt, ovl := ovl }
  let v := v.setState e p.route 1
  let v := v.hand { outRec true p.route p.slot 0x01 0 e.now with ovl := ovl.getD 0xFFFF }
  { v with pend := none }

/-- Refuse a route request. -/
def Ev.refuseRoute (e : Env) (v : Ev) (r : Nat) (slot : Option Nat) (x : Fail) : Ev :=
  (v.hand { outRec true r slot 0x03 x.reason e.now with ident := x.ident, owner := x.owner }).record
    (recCount 0x0100 x.reason)

/-- A request to set a route (R115, R122); one that was waiting when the safe state was entered is answered `STATE`, and no
row is staged (Table 6-6). -/
def Ev.routeSet (e : Env) (v : Ev) (r : Nat) (rt : RouteRec) (slot : Option Nat) : Ev :=
  if e.safe then v.hand (outRec true r slot 0 0 e.now)
  else if v.rd e 0x0B r 0 ≠ 0 ∨ v.frees.any (fun q => q.1 == ownerRoute r) then v.hand (outRec true r slot 0 0 e.now)
  else match v.checkRoute e r rt with
    | .error x => v.refuseRoute e r slot x
    | .ok g =>
      let p : Pend := { route := r, slot := slot, rows := g }
      if rt.overlap = 0xFFFF then v.lockRoute e p rt none [] else { v with pend := some p }

/-- The OVL term resolves the staged route with its default, then its alternative overlap (R116). -/
def Ev.resolveOverlap (e : Env) (v : Ev) (p : Pend) (rt : RouteRec) : Ev :=
  match v.checkOverlap e rt.entry rt.overlap with
  | .ok g => v.lockRoute e p rt (some rt.overlap) g
  | .error x =>
    let second : Option (Except Fail (Nat × List Row)) :=
      (((e.forme.overlaps[rt.overlap]?).map (·.alt)).filter (· != 0xFFFF)).map
        (fun o => (v.checkOverlap e rt.entry o).map (fun g => (o, g)))
    match second with
    | some (.ok (o, g)) => v.lockRoute e p rt (some o) g
    | other =>
      let full := x.reason == 0x0E || (match other with
        | some (.error y) => y.reason == 0x0E
        | _ => false)
      let reason := if full then 0x0E else 0x09
      let v := (v.hand { outRec true p.route p.slot 0x03 reason e.now with
        secondary := x.reason, ident := x.ident, owner := x.owner }).record (recCount 0x0100 reason)
      { v with pend := none }

/-- The points of every row of an owner are detected in the locked position. -/
def Ev.pointsReady (e : Env) (v : Ev) (owner : Nat) : Bool :=
  (v.rowsOwned e owner).all (fun h =>
    if h.kind = 3 ∨ h.kind = 4 then
      match e.forme.pointNo h.id with
      | some i => v.statusOf e 0x06 i 1 0
      | none => false
    else true)

/-- The sections of a pool are clear as a class requires. -/
def Ev.sectionsReady (e : Env) (v : Ev) (cls : Nat) (pool : List PoolEntry) : Bool :=
  let secs := (pool.filter (·.role == 3)).map (fun p => v.sectionState e p.id)
  (indexed secs).all (fun q => q.2 == 3 || (occupied q.2 && classPermits cls (q.1 == 0) (q.1 + 1 == secs.length)))

/-- The conditions under which the clear request is set (Table 6-1). -/
def Ev.routeReady (e : Env) (v : Ev) (r : Nat) (rt : RouteRec) (m : RouteMem) : Bool :=
  let pool := e.forme.routePool rt
  v.pointsReady e (ownerRoute r) && v.sectionsReady e rt.cls pool &&
  pool.all (fun p => p.role != 6 || (match e.forme.crossingNo p.id with
    | some i => v.rd e 0x0A i 0 == 5
    | none => false)) &&
  (match m.ovl with
    | none => true
    | some o =>
      !(v.rowsOwned e (ownerOverlap o)).isEmpty && v.pointsReady e (ownerOverlap o) &&
      (match e.forme.overlaps[o]? with
        | some rec => v.sectionsReady e 1 (e.forme.overlapPool rec)
        | none => false))

/-- The request that holds a route's slot ends. -/
def Ev.endRequest (e : Env) (v : Ev) (r : Nat) (m : RouteMem) (outcome reason : Nat) : Ev :=
  match m.slot with
  | some s => v.hand { outRec true r (some s) outcome reason e.now with ovl := m.ovl.getD 0xFFFF }
  | none => v

/-- Rows of a route, and of its overlap, are freed at the strand's end; the route is free. A request that still holds a
slot, as a reclear before its aspect is proved, ends with the route: outcome released (DEDUCED, log 58). -/
def Ev.freeRoute (e : Env) (v : Ev) (r : Nat) (withOverlap : Bool) : Ev :=
  let m := v.route r
  let v := v.endRequest e r m 0x06 0
  let fs := (ownerRoute r, none) :: (match m.ovl with
    | some o => if withOverlap then [(ownerOverlap o, none)] else []
    | none => [])
  let v := { v with frees := v.frees ++ fs, core := { v.core with routes := kvDel v.core.routes r } }
  let v := match m.ovl with
    | some o => if withOverlap then v.dropOverlap o else v
    | none => v
  v.setState e r 0

/-- The record that a route event carries. Where the request no longer holds a slot its slot field names the last one it
held (DESIGN CHOICE, log 58). -/
def Ev.routeEvent (e : Env) (v : Ev) (num r : Nat) (m : RouteMem) (outcome : Nat) : Ev :=
  v.raise num (routeRecord { outRec true r (some m.lastSlot) outcome 0 e.now with ovl := m.ovl.getD 0xFFFF })

/-- Pool indices of the sections of a group. -/
def groupSections (pool : List (Nat × (Nat × PoolEntry))) (g : Nat) : List (Nat × PoolEntry) :=
  (pool.filter (fun q => q.2.1 == g && q.2.2.role == 3)).map (fun q => (q.1, q.2.2))

/-- Groups released one after the other while their conditions hold (R119), at most n of them. -/
def Ev.releaseGroups (e : Env) (v : Ev) (r : Nat) (pool : List (Nat × (Nat × PoolEntry))) (count : Nat)
    (seen : List Nat) : Nat → Nat → List (Nat × Option Nat) → Nat × List (Nat × Option Nat)
  | 0, g, fs => (g, fs)
  | n + 1, g, fs =>
    if count ≤ g then (g, fs)
    else
      let mine := groupSections pool g
      let next := pool.find? (fun q => decide (g < q.2.1) && q.2.2.role == 3)
      let ok := mine.all (fun q => seen.contains q.1 && v.sectionState e q.2.id == 3) &&
        (match next with
          | none => true
          | some q => occupied (v.sectionState e q.2.2.id))
      if ok then Ev.releaseGroups e v r pool count seen n (g + 1) (fs ++ [(ownerRoute r, some g)]) else (g, fs)

/-- Sectional or whole-route release of a route in passage (R119). -/
def Ev.releaseRoute (e : Env) (v : Ev) (r : Nat) (rt : RouteRec) (shown : Nat) : Ev :=
  let m := v.route r
  let pool := indexed (poolGroups 0 (e.forme.routePool rt))
  let count := ((pool.map (fun q => q.2.1 + 1)).foldl max 0)
  if shown ≠ 0 then v
  else if rt.release = 2 then
    if pool.all (fun q => q.2.2.role != 3 || (m.seen.contains q.1 && v.sectionState e q.2.2.id == 3)) then
      let v := v.routeEvent e evRouteReleased r m 0x06
      v.freeRoute e r false
    else v
  else
    let (g, fs) := v.releaseGroups e r pool count m.seen (count + 1) m.released []
    let v := { v with frees := v.frees ++ fs }
    if count ≤ g then
      let v := v.routeEvent e evRouteReleased r m 0x06
      v.freeRoute e r false
    else v.setRoute r { m with released := g }

/-- The aspect a route's entry signal shows. -/
def Ev.shown (e : Env) (v : Ev) (id : Nat) : Nat :=
  match e.forme.signalNo id with
  | some i => v.rd e 0x07 i 1
  | none => 0

/-- One scan of a route's state (Table 6-1). In `locked, aspect requested` a lost condition withdraws the clear request
while it lasts and leaves the state (DEDUCED, log 58: the table gives no way back to `locked`). -/
def Ev.routeStep (e : Env) (v : Ev) (r : Nat) (rt : RouteRec) : Ev :=
  let st0 := v.rd e 0x0B r 0
  if st0 = 0 then v.setState e r 0
  else
    let m : RouteMem := v.route r
    let shown := v.shown e rt.entry
    let pool := indexed (e.forme.routePool rt)
    let firstOcc : Bool := match pool.find? (fun q => q.2.role == 3) with
      | some q => occupied (v.sectionState e q.2.id)
      | none => false
    -- an auxiliary release puts the route into cancelling (R183)
    let aux := m.auxMark && st0 != 5
    let v := if aux then v.endRequest e r m 0x05 0x0D else v
    let m : RouteMem := if aux then { m with slot := none } else m
    let st : Nat := if aux then 5 else st0
    let ready := v.routeReady e r rt m && !m.withdrawn
    let st : Nat := if st = 1 ∧ ready then 2 else st
    let st : Nat := if st = 2 ∧ shown ≠ 0 then 3 else st
    let proved := (st == 3 || st == 4) && shown != 0
    let m : RouteMem := if proved then { m with seen := [] } else m
    let cleared := proved && m.slot.isSome
    let v := if cleared then (v.endRequest e r m 0x02 0).routeEvent e evRouteCleared r m 0x02 else v
    let m : RouteMem := if cleared then { m with slot := none } else m
    let appr := e.forme.routeApproach rt
    let st : Nat :=
      if (st == 3 || st == 4) && firstOcc then 6
      else if st == 3 && (appr.isEmpty || appr.any (fun p => v.sectionState e p.id != 3)) then 4
      else if st == 5 && !m.auxMark && firstOcc then 6
      else st
    -- setting timeout (R117)
    let left := m.timeout - 1
    let stalled := m.slot.isSome && left == 0
    let v := if stalled then (v.endRequest e r m 0x04 0).routeEvent e evRouteStalled r m 0x04 else v
    let m : RouteMem := { m with timeout := left }
    let m : RouteMem := if stalled then { m with slot := none, withdrawn := true } else m
    let seen := pool.filterMap (fun q =>
      if q.2.role = 3 ∧ (m.seen.contains q.1 ∨ occupied (v.sectionState e q.2.id)) then some q.1 else none)
    let m : RouteMem := { m with seen := seen, clearReq := (st == 2 || st == 3 || st == 4) && ready && !stalled }
    let v := (v.setRoute r m).setState e r st
    if st = 6 then v.releaseRoute e r rt shown else v

/-- A cancel (Table 6-1, R177). -/
def Ev.routeCancel (e : Env) (v : Ev) (r : Nat) (slot : Option Nat) : Ev :=
  let st := v.rd e 0x0B r 0
  let m := v.route r
  if st = 0 ∨ st = 5 ∨ st = 6 then v.hand (outRec true r slot 0 0 e.now)
  else
    let v := v.endRequest e r m 0x05 0x0D
    let v := v.hand { outRec true r slot 0x05 0 e.now with ovl := m.ovl.getD 0xFFFF }
    if st = 4 then (v.setRoute r { m with slot := none, clearReq := false }).setState e r 5
    else (v.setRoute r { m with slot := none }).freeRoute e r true

/-- A reclear (R178): it restores a withdrawn clear request and runs the setting timeout anew. -/
def Ev.routeReclear (e : Env) (v : Ev) (r : Nat) (rt : RouteRec) (slot : Option Nat) : Ev :=
  let st := v.rd e 0x0B r 0
  let m := v.route r
  if !e.safe ∧ m.withdrawn ∧ m.slot.isNone ∧ (st = 1 ∨ st = 2 ∨ st = 3 ∨ st = 4) then
    let v := v.setRoute r { m with
      withdrawn := false, slot := slot, lastSlot := slot.getD 0, timeout := e.forme.settingTimeout rt }
    let rows := v.rowsOwned e (ownerRoute r) ++ (match m.ovl with
      | some o => v.rowsOwned e (ownerOverlap o)
      | none => [])
    let v := rows.foldl (fun v h => v.commandPoint e { id := h.id, kind := h.kind, state := h.state, group := 0, owner := 0 }) v
    v.hand { outRec true r slot 0x01 0 e.now with ovl := m.ovl.getD 0xFFFF }
  else v.hand (outRec true r slot 0 0 e.now)

/-- One frozen request for route r. -/
def Ev.routeRequest (e : Env) (v : Ev) (r : Nat) (rt : RouteRec) (q : Req) : Ev :=
  match q.kind with
  | .routeSet n => if n = r then v.routeSet e r rt q.slot else v
  | .routeCancel n => if n = r then v.routeCancel e r q.slot else v
  | .reclear n => if n = r then v.routeReclear e r rt q.slot else v
  | _ => v

/-- RTE: the route's scan and its requests; the answer is "route locked". Occupation is evaluated before a cancel
(Table 6-6). -/
def Ev.rte (e : Env) (v : Ev) (r : Nat) : Ev × Bool :=
  match e.forme.routes[r]? with
  | none => (v, false)
  | some rt =>
    let v := v.routeStep e r rt
    let v := e.reqs.foldl (fun v q => v.routeRequest e r rt q) v
    (v, v.rd e 0x0B r 0 != 0)

/-- OVL: resolve the staged route whose default overlap this is; the answer is "overlap locked". -/
def Ev.ovl (e : Env) (v : Ev) (a : Nat) : Ev × Bool :=
  let v := match v.pend with
    | none => v
    | some p =>
      match e.forme.routes[p.route]? with
      | none => v
      | some rt => if rt.overlap = a then v.resolveOverlap e p rt else v
  (v, !(v.rowsOwned e (ownerOverlap a)).isEmpty)

/-! ### The strand's end -/

/-- A cancelling route whose approach-lock timer has expired is released with its overlap (R120, R183). -/
def Ev.approachTimers (e : Env) (v : Ev) : Ev :=
  (indexed e.forme.routes).foldl (fun v q =>
    match e.forme.timerNo q.2.entry q.2.timer with
    | none => v
    | some i =>
      if v.rd e 0x0B q.1 0 = 5 ∧ v.timerExpired e i then
        let m := v.route q.1
        let v := if m.auxMark then v.routeEvent e evRouteReleased q.1 m 0x06 else v
        v.freeRoute e q.1 true
      else v) v

/-- An overlap whose release timer has expired is released (R121, Table 9-3). -/
def Ev.overlapTimers (e : Env) (v : Ev) : Ev :=
  (indexed e.forme.overlaps).foldl (fun v q =>
    match e.forme.timerNo q.2.start q.2.timer with
    | none => v
    | some i =>
      if v.overlapRuns e q.1 q.2 && v.timerExpired e i then
        let v := v.dropOverlap q.1
        { v with frees := v.frees ++ [(ownerOverlap q.1, none)],
                 core := { v.core with ovlAux := removeAll v.core.ovlAux q.1 } }
      else v) v

/-- End of the route strand: a route left staged is refused, the timers run, and released rows are freed (R118). -/
def Ev.finishRoutes (e : Env) (v : Ev) : Ev :=
  let v := match v.pend with
    | some p => { v.refuseRoute e p.route p.slot { reason := 0x09, ident := 0xFFFF, owner := 0xFFFF } with pend := none }
    | none => v
  let v := (v.approachTimers e).overlapTimers e
  let v := v.frees.foldl (fun v q => v.freeOwned e q.1 q.2) v
  let aux := v.core.ovlAux.filter (fun o => !(v.rowsOwned e (ownerOverlap o)).isEmpty)
  { v with frees := [], core := { v.core with ovlAux := aux } }

end Sys2Proof.Machine
end

