-- ==== Sys2Proof/Machine/Signal.lean ====
section
/-! DEFINITION. The signal evaluator EVS (R135 to R138), with the auxiliary releases whose target is a signal (R182,
R183). -/

namespace Sys2Proof.Machine

def SignalMem.empty : SignalMem := { cmd := 0, lampsOn := 0, stops := 0, reqZero := false, stopFail := false }

def Ev.setSignalMem (v : Ev) (i : Nat) (m : SignalMem) : Ev :=
  { v with core := { v.core with signals := kvSet v.core.signals i m } }

/-- References a signal uses. -/
def SignalRec.refs (s : SignalRec) : List Nat :=
  (if s.lamps = 0 then [s.output] else (List.range s.lamps).map (fun j => refPlus s.output j)) ++ [s.proving]

/-- Half-period h of the flashing lamps (Table 7-2). -/
def Forme.flashHalf (f : Forme) : Nat := f.ceilCycles 500

/-- Lamp outputs on for an aspect in a cycle (R136). -/
def lampsOf (f : Forme) (s : SignalRec) (aspect now : Nat) : Nat :=
  let w := nthD s.table aspect 0
  let flash := if now / f.flashHalf % 2 = 0 then w / 256 else 0
  Nat.lor (w % 256) flash % 2 ^ s.lamps

/-- Load current of a vital output, from the word that carries its galley position's identity (R137). -/
def Ev.current (e : Env) (v : Ev) (vo : Nat) : Option Nat :=
  match e.forme.galleyOf 1 vo with
  | some g =>
    let a := e.forme.addr 0x12 g 1
    if v.core.unavail.contains a then none else (v.word e a).x?
  | none => none

/-- The aspect commanded in the previous cycle is proved by the inputs of this strobe (R137). -/
def Ev.proved (e : Env) (v : Ev) (s : SignalRec) (m : SignalMem) : Bool :=
  if s.lamps = 0 then v.input e s.proving
  else (List.range s.lamps).all (fun j =>
    let r := refPlus s.output j
    if member m.lampsOn j then
      match v.current e (refIndex r) with
      | some ma => decide (s.low ≤ ma) && decide (ma ≤ s.high)
      | none => false
    else !v.input e r)

/-- Member of the status word of the signal an identity names; 1 where there is no such signal. -/
def Ev.signalMember (e : Env) (v : Ev) (id m : Nat) : Bool :=
  match e.forme.signalNo id with
  | some i => v.statusOf e 0x07 i 2 m
  | none => true

/-- The owner route of the kind 0x6 row that names a signal. -/
def Ev.entryOwner (e : Env) (v : Ev) (id : Nat) : Option Nat :=
  ((v.rowsOf e id).find? (fun h => h.kind == 6)).bind (·.owner)

/-- The smallest aspect limit of pool entries of role 0x4 that name the signal in a locked route. -/
def Ev.aspectLimit (e : Env) (v : Ev) (id : Nat) : Nat :=
  ((indexed e.forme.routes).filterMap (fun q =>
    if v.rd e 0x0B q.1 0 = 0 then none
    else (((e.forme.routePool q.2).filter (fun p => p.role == 4 && p.id == id)).map (·.state)).min?)).foldl min 15

/-- The aspect to command (R135). -/
def Ev.aspectToCommand (e : Env) (v : Ev) (s : SignalRec) (request : Nat) (m0 m1 m2 : Bool) : Nat :=
  let asked := if request < s.aspects then request else 0
  let rows := v.rowsOf e s.id
  let owned := match v.entryOwner e s.id with
    | none => false
    | some o =>
      (v.route o).clearReq && v.rd e 0x0B o 0 != 0 &&
      (match e.forme.routes[o]? with
        | some rt => v.signalMember e rt.exit 0
        | none => false)
  let linked :=
    if s.linked = 0xFFFF then 15
    else
      let stop := v.shown e s.linked == 0 || !v.signalMember e s.linked 0
      if !stop then 15 else if s.typ = 3 then 0 else if s.typ = 1 ∨ s.typ = 4 then 1 else 15
  if !owned ∨ rows.any (fun h => h.kind == 5 || h.owner == none) ∨ !m0 ∨ !m1 ∨ !m2 then 0
  else min asked (min linked (v.aspectLimit e s.id))

/-- The auxiliary route release (code 0x4) and overlap release (code 0x5) at the scan of their signal (R183). -/
def Ev.signalActions (e : Env) (v : Ev) (id : Nat) : Ev :=
  let v := match v.action 4 id with
    | none => v
    | some q =>
      match v.entryOwner e id with
      | none => v.endAction e q 0x01
      | some r => (v.setRoute r { v.route r with auxMark := true }).endAction e q 0
  match v.action 5 id with
  | none => v
  | some q =>
    let os := (indexed e.forme.overlaps).filterMap (fun o =>
      if o.2.start = id ∧ !(v.rowsOwned e (ownerOverlap o.1)).isEmpty then some o.1 else none)
    if os.isEmpty then v.endAction e q 0x01
    else ({ v with core := { v.core with ovlAux := os.foldl insertOnce v.core.ovlAux } }).endAction e q 0

/-- A lamp of the signal stands on a bank that is held, or was until this strobe: its outputs read off without a fault (R205). -/
def Ev.lampsHeld (v : Ev) (s : SignalRec) : Bool :=
  s.refs.any (fun r => refClass r == 2 &&
    (v.heldBanks.contains (4 + refIndex r / 8) || v.core.holds.any (fun h => h.bank == 4 + refIndex r / 8)))

/-- EVS: one scan of a signal; the answer is "aspect proved". `ev.signal_lamp` for aspect 0 comes at the first judgement of a
run that does not prove it (DEDUCED, log 59). -/
def Ev.evs (e : Env) (v : Ev) (i : Nat) : Ev × Bool :=
  match e.forme.signals[i]? with
  | none => (v, false)
  | some s =>
    let v := (v.applyBlock e s.id).removeBlock e s.id
    let v := v.signalActions e s.id
    let m := kvGetD v.core.signals i .empty
    let judged := (kvGet v.core.signals i).isSome && !v.lampsHeld s
    let proved := judged && v.proved e s m
    -- a forced request word is re-sealed as it is; its shadow keeps the program's value (R169)
    let request := v.rd e 0x07 i 0
    let own := v.programX e 0x07 i 0
    let old0 := v.statusOf e 0x07 i 2 0
    let old1 := v.statusOf e 0x07 i 2 1
    -- R138
    let stops := if judged && m.cmd == 0 && proved then min (m.stops + 1) 3 else 0
    let m0 := if judged ∧ m.cmd = 0 then (if proved then old0 || stops == 3 else false) else old0
    let lampOut := judged && m.cmd != 0 && !proved
    let m1 := if lampOut then false else old1 || m.reqZero
    let stopFail := judged && m.cmd == 0 && !proved
    let v := if lampOut || (stopFail && !m.stopFail) then v.raise evSignalLamp (leBytes 2 s.id ++ leBytes 1 m.cmd) else v
    let m2 := v.notBlocked e s.id s.refs
    let cmd := v.aspectToCommand e s request m0 m1 m2
    let shown := if proved then min m.cmd cmd else 0
    let lamps := lampsOf e.forme s cmd e.now
    let v := v.setSignalMem i { cmd := cmd, lampsOn := lamps, stops := stops, reqZero := request == 0, stopFail := stopFail }
    let v := v.wr e 0x07 i 0 own
    let v := v.wr e 0x07 i 1 shown
    let v := v.wr e 0x07 i 2 (ofMembers [m0, m1, m2])
    let v :=
      if s.lamps = 0 then v.output e s.output cmd
      else (List.range s.lamps).foldl (fun v j => v.output e (refPlus s.output j) (b2n (member lamps j))) v
    (v, v.rd e 0x07 i 1 != 0)

end Sys2Proof.Machine
end

