-- ==== Sys2Proof/Machine/TermSets.lean ====
section
/-! DEFINITION. The words that each term reads and writes (R79, R417), and the member-local words of a duplex forme
(R293). -/

namespace Sys2Proof.Machine

/-- Address of an input reference. -/
def Forme.inAddr (f : Forme) (ref : Nat) : List Nat := ((f.inputAt ref).map (·.1)).toList

/-- Address that an output reference commands. -/
def Forme.outAddr (f : Forme) (ref : Nat) : List Nat :=
  match refClass ref with
  | 0x1 => f.inAddr ref
  | 0x2 => ((f.galleyOf 1 (refIndex ref)).map (fun g => f.addr 0x12 g 0)).toList
  | 0x3 => (((f.remotes[refIndex ref]?).bind (fun r => f.galleyNet r.group)).map (fun g => f.addr 0x12 g 0)).toList
  | _ => []

/-- The n words of record i of a region. -/
def Forme.recAddrs (f : Forme) (code i n : Nat) : List Nat := (List.range n).map (fun w => f.addr code i w)

/-! The words of Table 7-1 of an element that a record names (R125). -/

def Forme.sectionAddrs (f : Forme) (id : Nat) : List Nat := ((f.sectionNo id).map (fun i => f.recAddrs 0x08 i 5)).getD []
def Forme.pointAddrs (f : Forme) (id : Nat) : List Nat := ((f.pointNo id).map (fun i => f.recAddrs 0x06 i 3)).getD []
def Forme.signalAddrs (f : Forme) (id : Nat) : List Nat := ((f.signalNo id).map (fun i => f.recAddrs 0x07 i 3)).getD []
def Forme.headAddrs (f : Forme) (id : Nat) : List Nat := ((f.headNo id).map (fun i => f.recAddrs 0x09 i 2)).getD []
def Forme.crossingAddrs (f : Forme) (id : Nat) : List Nat := ((f.crossingNo id).map (fun i => f.recAddrs 0x0A i 3)).getD []

/-- Words of the elements that a pool names. -/
def Forme.poolAddrs (f : Forme) (l : List PoolEntry) : List Nat :=
  l.flatMap (fun p => match p.role with
    | 0x1 | 0x2 | 0x7 => f.pointAddrs p.id
    | 0x3 | 0x5 => f.sectionAddrs p.id
    | 0x4 => f.signalAddrs p.id
    | 0x6 => f.crossingAddrs p.id
    | _ => [])

/-- Words of the timer an owner and ordinal name. -/
def Forme.timerAddrs (f : Forme) (owner ord : Nat) : List Nat :=
  ((f.timerNo owner ord).map (fun i => f.recAddrs 0x0F i 3)).getD []

/-- Words behind the run condition of a route's or an overlap's timer (R120, R121). -/
def Forme.runReads (f : Forme) (i : Nat) : List Nat :=
  (indexed f.routes).flatMap (fun q => if f.timerNo q.2.entry q.2.timer = some i then [f.addr 0x0B q.1 0] else []) ++
  f.overlaps.flatMap (fun o => if f.timerNo o.start o.timer = some i then f.sectionAddrs o.trigger else [])

/-- Words that a term reads, as R79 checks them: for an element operator the words of its element and of every element
its record names (R125). -/
def Forme.termReads (f : Forme) (t : Term) : List Nat :=
  match t.op with
  | 0x01 | 0x02 | 0x03 | 0x04 | 0x05 | 0x06 | 0x07 | 0x08 | 0x09 | 0x0A => [t.a]
  | 0x10 => f.recAddrs 0x0F t.a 3 ++ f.runReads t.a
  | 0x11 => ((f.edges[t.a]?).map (·.addr)).toList
  | 0x12 => match f.points[t.a]? with
    | none => []
    | some p => f.recAddrs 0x06 t.a 3 ++ f.sectionAddrs p.sec ++ f.pointAddrs p.coupled
  | 0x13 => match f.signals[t.a]? with
    | none => []
    | some s => f.recAddrs 0x07 t.a 3 ++ f.signalAddrs s.linked ++ f.sectionAddrs s.approach
  | 0x14 => match f.sections[t.a]? with
    | none => []
    | some s => f.recAddrs 0x08 t.a 5 ++ (s.heads.take s.nHeads).flatMap f.headAddrs
  | 0x15 => f.recAddrs 0x09 t.a 2
  | 0x16 => match f.crossings[t.a]? with
    | none => []
    | some x => f.recAddrs 0x0A t.a 3 ++ x.strikes.flatMap f.sectionAddrs ++ f.sectionAddrs x.island
  | 0x17 => match f.routes[t.a]? with
    | none => []
    | some r => f.recAddrs 0x0B t.a (f.entry 0x0B).wordsPer ++ f.signalAddrs r.entry ++ f.signalAddrs r.exit ++
        f.poolAddrs (f.routePool r) ++ f.poolAddrs (f.routeApproach r) ++ f.timerAddrs r.entry r.timer
  | 0x18 => match f.overlaps[t.a]? with
    | none => []
    | some o => f.poolAddrs (f.overlapPool o) ++ f.sectionAddrs o.trigger ++ f.signalAddrs o.start ++ f.timerAddrs o.start o.timer
  | 0x20 => match f.funcs[t.a]? with
    | none => []
    | some g => f.recAddrs 0x13 t.a 21 ++ (if g.srcKind = 1 then f.headAddrs g.srcId else [])
  | 0x21 => f.recAddrs 0x13 t.a 21
  | _ => []

/-- Input words that an evaluator reads through the references of its record (R417). -/
def Forme.inputReads (f : Forme) (t : Term) : List Nat :=
  match t.op with
  | 0x12 => match f.points[t.a]? with
    | none => []
    | some p => (List.range p.machines).flatMap (fun j => f.inAddr (refPlus p.detN j) ++ f.inAddr (refPlus p.detR j))
  | 0x13 => match f.signals[t.a]? with
    | none => []
    | some s => f.inAddr s.proving ++ (List.range s.lamps).flatMap (fun j => f.inAddr (refPlus s.output j) ++
          ((f.galleyOf 1 (refIndex (refPlus s.output j))).map (fun g => f.addr 0x12 g 1)).toList)
  | 0x14 => ((f.sections[t.a]?).map (fun s => f.inAddr s.aux)).getD []
  | 0x15 => match f.heads[t.a]? with
    | none => []
    | some h => f.inAddr h.health ++ (if h.source = 1 then match f.chanGroup h.id with
          | some i => [f.addr 0x03 i 0, f.addr 0x03 i 1]
          | none => []
         else f.inAddr h.count)
  | 0x16 => ((f.crossings[t.a]?).map (fun x => f.inAddr x.proving ++ x.downs.flatMap f.inAddr)).getD []
  | 0x20 => match f.funcs[t.a]? with
    | none => []
    | some g => f.inAddr g.resetIn ++ f.inAddr g.feedback ++ f.inAddr g.refIn ++ (if g.srcKind = 1 then []
         else match f.chanGroup g.srcId with
          | some i => [f.addr 0x03 i 0, f.addr 0x03 i 1]
          | none => ((f.remGroup g.srcId 0).map (fun i => f.addr 0x11 i 0)).toList)
  | 0x21 => ((f.funcs[t.a]?).map (fun g => [g.resetIn, g.feedback, g.chA, g.chB, g.chC, g.chD].flatMap f.inAddr)).getD []
  | _ => []

/-- Words that a term writes. -/
def Forme.termWrites (f : Forme) (t : Term) : List Nat :=
  match t.op with
  | 0x0A | 0x0B | 0x0C => [t.a]
  | 0x10 => f.recAddrs 0x0F t.a 3
  | 0x12 => match f.points[t.a]? with
    | none => []
    | some p => f.recAddrs 0x06 t.a 3 ++ f.outAddr p.driveN ++ f.outAddr p.driveR
  | 0x13 => match f.signals[t.a]? with
    | none => []
    | some s => f.recAddrs 0x07 t.a 3 ++
        (if s.lamps = 0 then f.outAddr s.output else (List.range s.lamps).flatMap (fun j => f.outAddr (refPlus s.output j)))
  | 0x14 => f.recAddrs 0x08 t.a 5
  | 0x15 => f.recAddrs 0x09 t.a 2
  | 0x16 => match f.crossings[t.a]? with
    | none => []
    | some x => f.recAddrs 0x0A t.a 3 ++ f.outAddr x.light ++ f.outAddr x.barrierCmd
  | 0x17 => match f.routes[t.a]? with
    | none => []
    | some _ => f.recAddrs 0x0B t.a (f.entry 0x0B).wordsPer
  | 0x20 | 0x21 => f.recAddrs 0x13 t.a 21
  | _ => []

/-- The terms of a strand, up to its END. -/
def Forme.strandTerms (f : Forme) (i : Nat) : List Term :=
  (f.terms.drop (nthD f.strands i 0)).takeWhile (fun t => t.op != 0x3E)

/-- Every strand's terms, in strand order. -/
def Forme.allStrands (f : Forme) : List (List Term) := (List.range f.strands.length).map f.strandTerms

/-- Words that the input phase writes (R417). -/
def Forme.inputWrites (f : Forme) : List Nat :=
  f.localInputs ++ f.remoteInputs.filterMap (fun g => (f.remGroup g 0).map (fun i => f.addr 0x11 i 0))

/-- Words that the auxiliary handler and the train evaluator write before level 0. -/
def Forme.handlerWrites (f : Forme) : List Nat :=
  f.authorities.flatMap (fun a =>
    (((f.galleyId a.offer).map (fun g => f.addr 0x12 g 0)).toList ++
      ((f.galleyId a.offerTarget).map (fun g => f.addr 0x12 g 0)).toList)) ++
  (if f.header.personality = 2 then (List.range 4).map (f.template.t0 + ·) ++
    (List.range 8).filterMap (fun w => (f.galleyNet (0x7000 + w)).map (fun g => f.addr 0x12 g 0)) else [])

/-! ### Member-local words (R293) -/

/-- A reference of class 0x1 or 0x2. -/
def refLocal (ref : Nat) : Bool := refClass ref == 1 || refClass ref == 2

/-- Words of elements and functions whose record references a local channel, and local input words. -/
def Forme.localBase (f : Forme) : List Nat :=
  f.localInputs ++
  (indexed f.points).flatMap (fun p => if p.2.refs.any refLocal then f.recAddrs 0x06 p.1 3 else []) ++
  (indexed f.signals).flatMap (fun p => if p.2.refs.any refLocal then f.recAddrs 0x07 p.1 3 else []) ++
  (indexed f.sections).flatMap (fun p => if refLocal p.2.aux then f.recAddrs 0x08 p.1 5 else []) ++
  (indexed f.heads).flatMap (fun p =>
    if p.2.source = 1 ∨ refLocal p.2.count ∨ refLocal p.2.health then f.recAddrs 0x09 p.1 2 else []) ++
  (indexed f.crossings).flatMap (fun p =>
    if (p.2.light :: p.2.proving :: p.2.barrierCmd :: p.2.downs).any refLocal then f.recAddrs 0x0A p.1 3 else []) ++
  (indexed f.funcs).flatMap (fun p =>
    if [p.2.resetIn, p.2.feedback].any refLocal || (if p.2.typ < 0x10 then refLocal p.2.refIn || (p.2.srcKind == 2 && (f.chanGroup p.2.srcId).isSome)
        else [p.2.chA, p.2.chB, p.2.chC, p.2.chD].any refLocal) then f.recAddrs 0x13 p.1 21 else [])

/-- One strand: a word it writes after reading a member-local word is member-local. -/
def Forme.spreadStrand (f : Forme) : List Nat → Bool → List Term → List Nat
  | loc, _, [] => loc
  | loc, seen, t :: ts =>
    let seen := seen || (f.termReads t ++ f.inputReads t).any loc.contains
    Forme.spreadStrand f (if seen then (f.termWrites t).foldl insertOnce loc else loc) seen ts

/-- The closure over the strands, one pass per strand at most. -/
def Forme.spread (f : Forme) : Nat → List Nat → List Nat
  | 0, loc => loc
  | n + 1, loc =>
    let next := f.allStrands.foldl (fun l ts => f.spreadStrand l false ts) loc
    if next.length = loc.length then loc else Forme.spread f n next

/-- Member-local words. -/
def Forme.memberLocal (f : Forme) : List Nat := f.spread f.strands.length f.localBase.eraseDups

end Sys2Proof.Machine
end

