-- ==== Sys2Proof/Machine/Mirror.lean ====
section
/-! DEFINITION. The state mirror of a duplex pair in the lanes (R290 to R292): what the commanding member fills its mirror
positions with, and what the standby adopts. The request words of the steward's own acknowledgement are the model's
(log 20). -/

namespace Sys2Proof.Machine

/-- A swept or sealed item: identity, kind and x. -/
structure Item where
  id : Nat
  kind : Nat
  x : Nat
  deriving DecidableEq, Repr

/-- Addresses of the sweep's first part, in address order: every word in use that is not member-local. -/
def Forme.sweepAddrs (f : Forme) : List Nat :=
  let loc := f.memberLocal
  let written := f.allStrands.flatMap (fun ts => ts.flatMap f.termWrites)
  (List.range f.header.storeSize).filter (fun a =>
    !loc.contains a && ((f.locate a).isSome || (f.trainWord a).isSome || written.contains a))

/-- Held rows by rising identity, then owner. -/
def Ev.sweepRows (e : Env) (v : Ev) : List Held :=
  sortBy (fun a b => decide (a.id * 65536 + a.owner.getD 0 ≤ b.id * 65536 + b.owner.getD 0))
    ((v.core.quoin.map (heldRow e)).filter (fun h => h.owner.isSome))

/-- Row bits [47:32]: kind, state and release group. -/
def Held.bits (h : Held) : Nat := (h.kind * 16 + h.state) * 256 + h.group

/-- The sixteen bytes of a frisket entry (Table 8-8). -/
def Force.bytes (q : Force) : List Byte :=
  leBytes 2 q.id ++ leBytes 1 q.kind ++ leBytes 1 q.path ++ leBytes 1 q.word ++ leBytes 1 q.flags ++ leBytes 2 q.mask ++
  leBytes 2 q.x ++ leBytes 2 q.num ++ leBytes 4 q.cycle

/-- A frisket entry from its sixteen bytes. -/
def forceOf (l : List Byte) : Force :=
  { id := fieldAt l 0 2, kind := fieldAt l 2 1, path := fieldAt l 3 1, word := fieldAt l 4 1, flags := fieldAt l 5 1,
    mask := fieldAt l 6 2, x := fieldAt l 8 2, num := fieldAt l 10 2, cycle := fieldAt l 12 4 }

/-- Entries on positions that are not member-local. -/
def Ev.sweepForces (e : Env) (v : Ev) : List Force :=
  let loc := e.forme.memberLocal
  v.core.frisket.filter (fun q => match e.forme.forceAddr q.path q.id q.kind q.word with
    | some a => !loc.contains a
    | none => false)

/-- The whole sweep sequence, in the groups of its items: a word, the two words of a row, the eight of a frisket entry.
Row words carry kind 0x2 and frisket words kind 0x3 (log 20). -/
def Ev.sweepGroups (e : Env) (v : Ev) : List (List Item) :=
  e.forme.sweepAddrs.map (fun a =>
    [{ id := (e.forme.decl a).id, kind := readKind e.forme v.core.store a, x := v.x e a : Item }]) ++
  (v.sweepRows e).map (fun h =>
    [{ id := h.id, kind := 2, x := h.bits : Item }, { id := h.id, kind := 2, x := h.owner.getD 0 : Item }]) ++
  (v.sweepForces e).map (fun q =>
    (List.range 8).map (fun j => { id := q.id, kind := 3, x := fieldAt q.bytes (2 * j) 2 : Item }))

/-- The sweep sequence, item by item. -/
def Ev.sweepItems (e : Env) (v : Ev) : List Item := (v.sweepGroups e).flatten

/-- Opcode and payload words of a mirrored request (Table 9-1, R206). -/
def ReqKind.words : ReqKind → List Nat
  | .routeSet r => [0x0601, r]
  | .routeCancel r => [0x0602, r]
  | .reclear r => [0x0603, r]
  | .pointMove id pos => [0x0801, id, pos]
  | .block id => [0x0802, id]
  | .auxStage id code authority => [0x0620, id, code, authority]
  | .auxWithdraw id => [0x0621, id]
  | .auxAck authority ticket => [0x062F, authority, ticket]
  | .forceSet q => [0x0618, q.id, q.kind + 256 * q.path, q.word + 256 * q.flags, q.mask, q.x]
  | .forceClear n => [0x0619, n]
  | .blockClear t i => [0x0901, t, i]

/-- A request from its opcode and payload words. -/
def reqOf : List Nat → Option ReqKind
  | 0x0601 :: r :: _ => some (.routeSet r)
  | 0x0602 :: r :: _ => some (.routeCancel r)
  | 0x0603 :: r :: _ => some (.reclear r)
  | 0x0801 :: id :: pos :: _ => some (.pointMove id pos)
  | 0x0802 :: id :: _ => some (.block id)
  | 0x0620 :: id :: code :: authority :: _ => some (.auxStage id code authority)
  | 0x0621 :: id :: _ => some (.auxWithdraw id)
  | 0x062F :: authority :: ticket :: _ => some (.auxAck authority ticket)
  | 0x0618 :: id :: kp :: wf :: mask :: x :: _ =>
    some (.forceSet { id := id, kind := kp % 256, path := kp / 256, word := wf % 256, flags := wf / 256, mask := mask,
                      x := x, num := 0, cycle := 0 })
  | 0x0619 :: n :: _ => some (.forceClear n)
  | 0x0901 :: t :: i :: _ => some (.blockClear t i)
  | _ => none

/-- The first 8 bytes of a digest as four words; byte 0 is the digest's first byte. -/
def digestWords (d : Digest) : List Nat :=
  (List.range 4).map (fun j => (d.toNat / 2 ^ (16 * (31 - j))) % 65536)

/-- Galley positions of target 0x04 in the order of their target index. -/
def Forme.mirrorPositions (f : Forme) : List GalleyRec :=
  sortBy (fun a b => decide (a.index ≤ b.index)) (f.galley.filter (fun g => g.target == 4))

/-- Mirror entries of a member: P (R281). -/
def Forme.mirrorEntries (f : Forme) : Nat := f.mirrorPositions.length / 8

/-- The unused word of R282. -/
def unusedItem : Item := { id := 0x743F, kind := 4, x := 0 }

/-- A plain numeric word of the seal, exchange or request frames under its position's identity. -/
def Forme.mirrorNumber (f : Forme) (i x : Nat) : Item :=
  { id := ((f.mirrorPositions[i]?).map (·.id)).getD 0x743F, kind := 2, x := x % 65536 }

/-- Pad or cut a list to n items. -/
def padItems (n : Nat) (l : List Item) : List Item := (l ++ List.replicate n unusedItem).take n

/-- Requests that fit the mirror (Table 14-2). -/
def Forme.mirrorRoom (f : Forme) : Nat := f.mirrorEntries - 2

/-- Sweep frames of this cycle. -/
def Env.sweepFrames (e : Env) (m : MirrorEnv) : Nat := e.forme.mirrorRoom - m.reqs.length

/-- Items swept in this cycle: 7i to 7i + 6 for each frame's index i. -/
def Ev.sweepBlock (e : Env) (v : Ev) (m : MirrorEnv) : List Item :=
  ((v.sweepItems e).drop (7 * m.sweepAt)).take (7 * e.sweepFrames m)

/-- Sweep index of the next cycle: on, or back to 0 when the sequence is through. -/
def Ev.nextSweep (e : Env) (v : Ev) (m : MirrorEnv) : Nat :=
  let i := m.sweepAt + e.sweepFrames m
  if (v.sweepItems e).length ≤ 7 * i then 0 else i

/-- Cut a list into pieces of 7, at most n. -/
def sevens {α : Type} : Nat → List α → List (List α)
  | 0, _ => []
  | n + 1, l => l.take 7 :: sevens n (l.drop 7)

/-- The items of every mirror position of the cycle (Table 14-2). -/
def Ev.mirrorItems (e : Env) (v : Ev) (m : MirrorEnv) : List Item :=
  let f := e.forme
  let numbers (frame : Nat) (l : List Nat) : List Item :=
    padItems 8 ((indexed l).map (fun p => f.mirrorNumber (8 * frame + p.1) p.2))
  let r := m.reqs.length
  let head := numbers 0 ([e.now % 65536, e.now / 65536] ++ digestWords m.digest ++ [r, m.sweepAt])
  let xchg := numbers 1 ([m.xchgState, m.xchgTarget % 65536, m.xchgTarget / 65536] ++ digestWords m.prepared ++ [m.overrunRun])
  let reqs := (indexed m.reqs).flatMap (fun p => numbers (p.1 + 2) (p.2.slot.getD 0xFFFF :: p.2.kind.words))
  let sweep := (indexed (sevens (e.sweepFrames m) (v.sweepBlock e m))).flatMap (fun p =>
    f.mirrorNumber (8 * (r + 2 + p.1)) (m.sweepAt + p.1) :: padItems 7 p.2)
  head ++ xchg ++ reqs ++ sweep

/-! ### The standby -/

/-- x of word w of a partner's mirror frame, as a plain number of that place. -/
def Env.partnerNumber (e : Env) (m : MirrorEnv) (frame w : Nat) : Option Nat :=
  (((m.partner[frame]?).getD none).bind (fun ws => ws[w]?)).bind (fun word =>
    (decode word (e.forme.mirrorNumber (8 * frame + w) 0).id 2 0xA e.now 0xFFFF).x?)

/-- A partner's word decoded under the identity and kind it carries. -/
def Env.partnerItem (e : Env) (m : MirrorEnv) (frame w : Nat) : Option (Nat × Nat × Nat) :=
  (((m.partner[frame]?).getD none).bind (fun ws => ws[w]?)).bind (fun word =>
    if isIdentity (wordId word) then
      ((decode word (wordId word) (wordKind word) 0xA e.now 0xFFFF).x?).map (fun x => (wordId word, wordKind word, x))
    else none)

/-- Requests in the partner's mirror (R291). -/
def Env.partnerReqs (e : Env) (m : MirrorEnv) : List Req :=
  let r := (e.partnerNumber m 0 6).getD 0
  (List.range r).filterMap (fun i =>
    let ws := (List.range 7).map (fun w => (e.partnerNumber m (i + 2) (w + 1)).getD 0)
    match e.partnerNumber m (i + 2) 0, reqOf ws with
    | some slot, some k => some { kind := k, slot := if slot = 0xFFFF then none else some slot }
    | _, _ => none)

/-- The partner's running digest words equal this member's own (Table 14-2). -/
def Env.partnerDigestOk (e : Env) (m : MirrorEnv) : Bool :=
  (List.range 4).map (fun w => e.partnerNumber m 0 (w + 2)) == (digestWords m.digest).map some

/-- The unused word as decoded. -/
def isUnused (q : Nat × Nat × Nat) : Bool := q.1 == 0x743F && q.2.1 == 4 && q.2.2 == 0

/-- Items swept by the partner: the first sweep index, and the items from there in order up to the sequence's end; an
item that does not decode is none. -/
def Env.partnerSweep (e : Env) (m : MirrorEnv) : Option (Nat × List (Option (Nat × Nat × Nat))) :=
  match e.partnerNumber m 0 6, e.partnerNumber m 0 7 with
  | some r, some i =>
    some (i, ((List.range (e.forme.mirrorRoom - r)).flatMap (fun k =>
      (List.range 7).map (fun w => e.partnerItem m (r + 2 + k) (w + 1)))).takeWhile (fun q => !(q.map isUnused).getD false))
  | _, _ => none

/-- One word-store item: adopted where it differs (R292, R417). -/
def Ev.adoptWord (e : Env) (v : Ev) (a : Nat) (q : Nat × Nat × Nat) : Ev :=
  let d := e.forme.decl a
  if q.1 ≠ d.id ∨ (!d.scratch ∧ q.2.1 ≠ d.kind ∧ !(q.2.1 = 4 ∧ q.2.2 = 0)) then v
  else if v.x e a = q.2.2 then v
  else { v.putRaw e a q.2.1 q.2.2 with adopted := v.adopted + 1 }

def rowKey (id owner : Nat) : Nat := id * 65536 + owner

/-- Held rows from the last swept row to the end of this block become the swept ones. -/
def Ev.adoptRows (e : Env) (v : Ev) (rows : List Row) : Ev :=
  match rows.getLast? with
  | none => v
  | some last =>
    let hi := rowKey last.id last.owner
    let inside (k : Nat) : Bool := decide (v.core.sweepRow ≤ k) && decide (k ≤ hi)
    let mine := (v.core.quoin.map (heldRow e)).filter (fun h => inside (rowKey h.id (h.owner.getD 0)))
    let same (h : Held) (r : Row) : Bool :=
      h.id == r.id && h.owner == some r.owner && h.kind == r.kind && h.state == r.state && h.group == r.group
    let drop := mine.filter (fun h => !rows.any (same h))
    let add := rows.filter (fun r => !mine.any (fun h => same h r))
    let core := { v.core with quoin := v.core.quoin.filter (fun p => !drop.any (fun h => h.row == p.1)), sweepRow := hi + 1 }
    { ({ v with core := core }).commit e add with adopted := v.adopted + drop.length + add.length }

/-- Whole groups at the head of swept row and frisket words: rows, entries, and the words of an incomplete group. -/
def groupsOf : Nat → List (Nat × Nat × Nat) → List Row × List Force × List (Nat × Nat × Nat)
  | 0, l => ([], [], l)
  | n + 1, l =>
    match l with
    | [] => ([], [], [])
    | a :: t =>
      if a.2.1 = 3 then
        if l.length < 8 then ([], [], l)
        else
          let out := groupsOf n (l.drop 8)
          (out.1, forceOf ((l.take 8).flatMap (fun q => leBytes 2 q.2.2)) :: out.2.1, out.2.2)
      else match t with
        | [] => ([], [], l)
        | b :: u =>
          let out := groupsOf n u
          let r : Row := { id := a.1, kind := a.2.2 / 4096, state := a.2.2 / 256 % 16, group := a.2.2 % 256, owner := b.2.2 }
          (if a.1 = b.1 then r :: out.1 else out.1, out.2.1, out.2.2)

def Ev.adoptForce (v : Ev) (q : Force) : Ev :=
  if v.core.frisket.contains q then v
  else { v with adopted := v.adopted + 1, core := { v.core with
      frisket := sortBy (fun a b => decide (a.num ≤ b.num)) ((v.core.frisket.filter (fun r => r.num != q.num)) ++ [q]) } }

/-- A new pass begins: held rows after the last swept one are not held by the commanding member, unless an item of the
pass was missed. -/
def Ev.closePass (e : Env) (v : Ev) : Ev :=
  let beyond := if v.core.sweepLost then [] else
    (v.core.quoin.map (heldRow e)).filter (fun h => decide (v.core.sweepRow ≤ rowKey h.id (h.owner.getD 0)))
  { v with adopted := v.adopted + beyond.length, core := { v.core with
      quoin := v.core.quoin.filter (fun p => !beyond.any (fun h => h.row == p.1)), sweepRow := 0, sweepTail := [],
      sweepLost := false } }

/-- The row and frisket words of a block; after a missed item the rest of the pass is not judged. -/
def Ev.adoptTail (e : Env) (v : Ev) (l : List (Option (Nat × Nat × Nat))) : Ev :=
  let lost := v.core.sweepLost || l.any (·.isNone)
  if lost then { v with core := { v.core with sweepLost := true, sweepTail := [] } }
  else
    let all := v.core.sweepTail ++ l.filterMap id
    let g := groupsOf all.length all
    let v := { v with core := { v.core with sweepTail := g.2.2 } }
    g.2.1.foldl Ev.adoptForce (v.adoptRows e g.1)

/-- The standby's input phase: compare the swept items with its own values and adopt (R292). A pass that is not followed
from its start is not judged. -/
def Ev.adoptSweep (e : Env) (v : Ev) (m : MirrorEnv) : Ev :=
  match e.partnerSweep m with
  | none => { v with core := { v.core with sweepLost := true } }
  | some (i, items) =>
    let addrs := e.forme.sweepAddrs
    let v := if i = 0 then v.closePass e else v
    let v := if i = m.sweepAt then v else { v with core := { v.core with sweepLost := true } }
    let at_ := 7 * i
    let n := min items.length (addrs.length - at_)
    let words := (items.take n).zip (addrs.drop at_)
    let v := words.foldl (fun v p => match p.1 with
      | some q => v.adoptWord e p.2 q
      | none => { v with core := { v.core with sweepLost := true } }) v
    v.adoptTail e (items.drop n)

end Sys2Proof.Machine
end

