-- ==== Sys2Proof/Machine/Crossing.lean ====
section
/-! DEFINITION. The crossing evaluator EVX (R145 to R148), with crossing restoration (R182). -/

namespace Sys2Proof.Machine

def CrossingMem.empty : CrossingMem := { cause := 0, dark := 0, lit := 0, again := false, back := false }

/-- What a scan of a crossing sees. -/
structure CrossingView where
  trigger : Bool
  islandClear : Bool
  lights : Bool
  down : Bool
  /-- light-proving failure at this scan: 2 consecutive scans dark at or after step 2 -/
  darkFail : Bool
  nWarn : Nat
  nLower : Nat
  nOpen : Nat
  /-- state 2 that returns to state 5 as soon as the lights are proved -/
  back : Bool
  deriving DecidableEq, Repr

/-- State 5 or 4 for a crossing whose barriers are down (steps 5 and 6 of Table 7-5). -/
def closedState (typ : Nat) (c : CrossingView) : Nat :=
  if c.lights ∧ (typ = 2 ∨ c.islandClear) then 5 else 4

/-- Where a crossing resumes when its failure ends (R147). -/
def resumeState (typ : Nat) (c : CrossingView) : Nat :=
  if !c.trigger then 6 else if typ = 1 then 2 else if c.down then 4 else 3

/-- The next state and phase count of a crossing that is not failed and does not fail, and whether the barriers were
not down in time (Table 7-5, R146 to R148). -/
def crossingNext (typ state phase : Nat) (c : CrossingView) : Nat × Nat × Bool :=
  match state with
  | 1 => if c.trigger then (2, 0, false) else (1, sat16 phase 1, false)
  | 2 =>
    if c.back then (if c.lights then 5 else 2, if c.lights then 0 else sat16 phase 1, false)
    else if sat16 phase 1 < c.nWarn then (2, sat16 phase 1, false)
    else if typ = 1 then (if c.lights then 5 else 2, if c.lights then 0 else sat16 phase 1, false)
    else (3, 0, false)
  | 3 =>
    if c.down then (closedState typ c, 0, false)
    else if c.nLower ≤ sat16 phase 1 then (3, sat16 phase 1, true)
    else (3, sat16 phase 1, false)
  | 4 =>
    if !c.trigger ∧ c.islandClear then (6, 0, false)
    else if c.down ∧ closedState typ c = 5 then (5, 0, false)
    else (4, sat16 phase 1, false)
  | 5 =>
    if !c.trigger ∧ c.islandClear then (6, 0, false)
    else if typ = 1 then (if c.lights then (5, sat16 phase 1, false) else (2, 0, false))
    else if c.down ∧ closedState typ c = 5 then (5, sat16 phase 1, false)
    else (4, 0, false)
  | _ =>
    if c.trigger then
      if typ = 1 then (if c.lights then 5 else 2, 0, false) else (3, 0, false)
    else if c.nOpen ≤ sat16 phase 1 then (1, 0, false)
    else (6, sat16 phase 1, false)

/-- EVX: one scan of a level crossing; the answer is "crossing protected". -/
def Ev.evx (e : Env) (v : Ev) (i : Nat) : Ev × Bool :=
  match e.forme.crossings[i]? with
  | none => (v, false)
  | some x =>
    let v := (v.applyBlock e x.id).removeBlock e x.id
    let m := kvGetD v.core.crossings i .empty
    let state := v.rd e 0x0A i 0
    let phase := v.rd e 0x0A i 1
    let downs := x.downs.filter (fun r => !refNone r)
    let lights := v.input e x.proving
    let down := x.typ == 1 || downs.all (fun r => v.input e r)
    let m0 := v.notBlocked e x.id (x.light :: x.proving :: x.barrierCmd :: downs)
    let trigger := (v.rowsOf e x.id).any (fun h => h.kind == 7) ||
      (x.strikes.filter (· != 0xFFFF)).any (fun id => v.sectionState e id != 3)
    let islandClear := x.island == 0xFFFF || v.sectionState e x.island == 3
    -- lights are judged from step 2 on, that is in every scan after the one that starts the warning
    let judged := state != 1 && state != 0 && !m.again
    let dark := if judged && !lights then min (m.dark + 1) 2 else 0
    let c : CrossingView :=
      { trigger := trigger, islandClear := islandClear, lights := lights, down := down, darkFail := dark == 2,
        nWarn := e.forme.ceilCycles x.warning, nLower := e.forme.floorCycles x.lowering,
        nOpen := e.forme.ceilCycles x.lowering, back := m.back }
    -- auxiliary crossing restoration (code 0x3)
    let act := v.action 3 x.id
    let why := if m0 then 0 else 0x0B
    let v := match act with
      | some q => v.endAction e q why
      | none => v
    let restored := act.isSome && why == 0 && state == 0 && m.cause == 2
    let lit := if state = 0 ∧ m.cause = 1 ∧ lights then min (m.lit + 1) 3 else 0
    let ends := restored || (state == 0 && m.cause == 1 && lit == 3)
    let step : Nat × Nat × Bool := if m.again then (2, 0, false) else crossingNext x.typ state phase c
    let late := state != 0 && step.2.2
    let fails := state != 0 && (c.darkFail || late)
    let cause := if fails then (if late then 2 else 1) else if ends then 0 else m.cause
    let next : Nat × Nat :=
      if fails then (0, 0)
      else if state = 0 then (if ends then (resumeState x.typ c, 0) else (0, sat16 phase 1))
      else (step.1, step.2.1)
    let v := if fails then v.raise evCrossingFail (leBytes 2 x.id ++ leBytes 1 cause) else v
    let m : CrossingMem := { cause := cause, dark := if fails then 0 else dark, lit := lit, again := false,
                             back := x.typ == 1 && next.1 == 2 && (state == 5 || state == 6 || (state == 2 && m.back)) }
    let v := { v with core := { v.core with crossings := kvSet v.core.crossings i m } }
    let v := v.wr e 0x0A i 0 next.1
    let v := v.wr e 0x0A i 1 next.2
    let v := v.wr e 0x0A i 2 (ofMembers [m0, lights, down])
    let v := v.output e x.light (b2n (next.1 == 1))
    let v := if refNone x.barrierCmd then v else v.output e x.barrierCmd (b2n (next.1 == 1 || next.1 == 2 || next.1 == 6))
    (v, v.rd e 0x0A i 0 == 5)

end Sys2Proof.Machine
end

