-- ==== Sys2Proof/Machine/Motion.lean ====
section
/-! DEFINITION. Motion functions (R213 to R217) and guard functions (R218 to R221), with feedback and reset. -/

namespace Sys2Proof.Machine

def FuncMem.empty : FuncMem :=
  { sound := 0, held := 0, fb := 0, press := 0, disc2 := 0, latch1 := false, latch2 := false, awaiting := false, granted := false,
    inDemand := false }

/-- The members of the status word (Table 11-4). -/
structure FuncBits where
  m0 : Bool
  m1 : Bool
  m2 : Bool
  m3 : Bool
  m4 : Bool
  m5 : Bool
  m6 : Bool
  m7 : Bool
  m8 : Bool
  m9 : Bool
  deriving DecidableEq, Repr

def FuncBits.ofX (x : Nat) : FuncBits :=
  { m0 := member x 0, m1 := member x 1, m2 := member x 2, m3 := member x 3, m4 := member x 4, m5 := member x 5,
    m6 := member x 6, m7 := member x 7, m8 := member x 8, m9 := member x 9 }

def FuncBits.x (b : FuncBits) : Nat := ofMembers [b.m0, b.m1, b.m2, b.m3, b.m4, b.m5, b.m6, b.m7, b.m8, b.m9]

/-- The status word after a restart (R224). -/
def FuncBits.atRestart (g : FuncRec) : FuncBits :=
  { m0 := false, m1 := true, m2 := true, m3 := g.resetMode == 1, m4 := g.typ != 4, m5 := false, m6 := false,
    m7 := false, m8 := false, m9 := false }

def Ev.funcMem (v : Ev) (i : Nat) : FuncMem := kvGetD v.core.funcs i .empty

def Ev.setFuncMem (v : Ev) (i : Nat) (m : FuncMem) : Ev := { v with core := { v.core with funcs := kvSet v.core.funcs i m } }

/-! ### Feedback and reset (R219, R220) -/

/-- The monitored position commands on, as it stood at the close of the previous cycle. -/
def Ev.monitoredOn (e : Env) (v : Ev) (g : FuncRec) : Bool :=
  match e.forme.galleyId g.monitored with
  | some i => nthD v.core.lastGalley i 0 != 0
  | none => false

/-- What one scan of the feedback and the reset gives. -/
structure FbReset where
  m2 : Bool
  m3 : Bool
  m6 : Bool
  fb : Nat
  press : Nat
  /-- `ev.guard_feedback` is raised -/
  raised : Bool
  ready : Bool
  accepted : Bool
  deriving DecidableEq, Repr

/-- One scan of feedback monitoring and of the reset. `o` monitored output on, `fbIn` the feedback member, `rIn` the
reset member, `permit` the inputs in permit, `m1` the inputs sound. -/
def fbReset (hasFb o fbIn rIn permit m1 m2 m3 m6 : Bool) (fb press nFb nMin nMax : Nat) : FbReset :=
  let fb' := if hasFb ∧ o = fbIn then sat16 fb 1 else 0
  let welded := hasFb && decide (nFb ≤ fb') && m2
  let m2' := m2 && !(hasFb && decide (nFb ≤ fb'))
  let released := m6 && !rIn
  let accepted := released && decide (nMin ≤ press) && decide (press ≤ nMax) && permit && m1 &&
    (!hasFb || (!o && fbIn))
  { m2 := m2' || accepted, m3 := m3 || accepted, m6 := rIn, fb := fb', press := if rIn then sat16 press 1 else 0,
    raised := welded, ready := !hasFb || o || fbIn, accepted := accepted }

/-- The feedback and reset of a function, from its common fields (Table 11-1). -/
def Ev.fbReset (e : Env) (v : Ev) (g : FuncRec) (permit m1 m2 m3 m6 : Bool) (fb press : Nat) : FbReset :=
  Machine.fbReset (!refNone g.feedback) (v.monitoredOn e g) (v.input e g.feedback) (v.input e g.resetIn) permit m1 m2 m3
    m6 fb press (e.forme.floorCycles g.fbDelay) (e.forme.ceilCycles 100) (e.forme.floorCycles 3000)

/-! ### Motion -/

/-- The source of a motion function at this scan: its count or frequency word, and whether it is sound (R213). -/
def Ev.motionSource (e : Env) (v : Ev) (g : FuncRec) : Nat × Bool :=
  if g.srcKind = 1 then
    match e.forme.headNo g.srcId with
    | some i => (v.rd e 0x09 i 1, v.rd e 0x09 i 0 == 1)
    | none => (0, false)
  else
    match e.forme.chanGroup g.srcId with
    | some i => (v.rd e 0x03 i 0, member (v.rd e 0x03 i 1) 0 && !v.core.unavail.contains (e.forme.addr 0x03 i 0))
    | none => (0, false)

/-- Differences d_1, d_2, … of a history, newest first (R213). -/
def diffs : List Nat → List Int
  | a :: b :: t => signed16 (a + 65536 - b % 65536) :: diffs (b :: t)
  | _ => []

/-- Floor of a signed quotient by a positive number. -/
def floorDiv (n : Int) (d : Nat) : Int := Int.ediv n d

/-- m9 of a motion function that is sound with a full history (R214 to R217). -/
def motionWithin (g : FuncRec) (old : Bool) (speed : Nat) (sum : Int) (phase nStill : Nat) (m4 : Bool) (pos : Int) : Bool :=
  match g.typ with
  | 0x01 => if g.limit < speed then false else if (speed : Int) ≤ (g.limit : Int) - (g.hyst : Int) then true else old
  | 0x02 => decide ((if g.dir = 1 then -sum else sum) ≤ (g.tolerance : Int))
  | 0x03 => decide (nStill ≤ phase)
  | _ =>
    let mm := g.refPos + floorDiv (pos * (g.scale : Int)) 1000
    m4 && decide (g.posLow ≤ mm) && decide (mm ≤ g.posHigh)

/-- MOT: one scan of a motion function; the answer is "within limits". A difference needs two counts since the history was empty (R213,
R224). -/
def Ev.mot (e : Env) (v : Ev) (i : Nat) : Ev × Bool :=
  match e.forme.funcs[i]? with
  | none => (v, false)
  | some g =>
    let b := FuncBits.ofX (v.rd e 0x13 i 0)
    let m := v.funcMem i
    let src := v.motionSource e g
    let m1 := src.2
    let hist := src.1 :: (List.range 16).map (fun j => v.rd e 0x13 i (4 + j))
    let held := min (m.held + 1) 17
    let sound := if m1 then min (m.sound + 1) (g.window + 1) else 0
    let full := sound == g.window + 1
    let ds := (diffs hist).take (min g.window (held - 1))
    let d1 := (ds.head?).getD 0
    let sum := if g.srcKind = 1 then ds.foldl (· + ·) 0 else Config.freqMovement src.1 g.window
    let speed :=
      if g.srcKind = 1 then ceilDiv (sum.natAbs * g.scale * 1000000) (g.window * e.forme.tcNs)
      else ceilDiv (src.1 * g.scale) 4000
    -- standstill (R216)
    let phase := if g.typ = 3 then (if m1 ∧ sum.natAbs ≤ g.tolerance then sat16 (v.rd e 0x13 i 3) 1 else 0) else 0
    -- position (R217)
    let p0 := signed32 (v.rd e 0x13 i 1 + 65536 * v.rd e 0x13 i 2)
    let p1 := p0 + d1
    let inRange := decide (-2147483648 ≤ p1) && decide (p1 ≤ 2147483647)
    let refIn := v.input e g.refIn
    let edge := refIn && !b.m5 && m1
    let m4 := g.typ != 4 || (m1 && (edge || (b.m4 && inRange)))
    let pos := if edge then 0 else if inRange then p1 else p0
    let m9 := m1 && full && motionWithin g b.m9 speed sum phase (e.forme.ceilCycles g.still) m4 pos
    let m3 := g.resetMode == 1 || (b.m3 && m9)
    let r := v.fbReset e g (m9 && m4) m1 b.m2 m3 b.m6 m.fb m.press
    let m3 := r.m3 && (g.resetMode == 1 || m9)
    let m0 := m9 && m1 && r.m2 && m3 && m4 && r.ready
    let v := if b.m1 && !m1 then v.raise evMotionSource (leBytes 2 g.id) else v
    let v := if b.m9 && !m9 then v.raise evMotionViolation (leBytes 2 g.id) else v
    let v := if r.raised then v.raise evGuardFeedback (leBytes 2 g.id) else v
    let v := v.setFuncMem i { m with sound := sound, held := held, fb := r.fb, press := r.press }
    let bits : FuncBits :=
      { m0 := m0, m1 := m1, m2 := r.m2, m3 := m3, m4 := m4, m5 := refIn, m6 := r.m6, m7 := false, m8 := b.m8, m9 := m9 }
    let v := v.wr e 0x13 i 0 bits.x
    let v := v.wr e 0x13 i 1 (if g.typ = 4 then toU32 pos % 65536 else min speed 65535)
    let v := v.wr e 0x13 i 2 (if g.typ = 4 then toU32 pos / 65536 else 0)
    let v := v.wr e 0x13 i 3 phase
    let v := (indexed hist).foldl (fun v q => v.wr e 0x13 i (4 + q.1) q.2) v
    (v, member (v.rd e 0x13 i 0) 0)

/-! ### Guard functions -/

/-- Permit and demand of a channel pair (R218): equivalent mode 0x01, antivalent 0x02. -/
def pairPermit (mode : Nat) (a b : Bool) : Bool := if mode = 1 then a && b else a && !b
def pairDemand (mode : Nat) (a b : Bool) : Bool := if mode = 1 then !a && !b else !a && b

/-- The discrepancy part for one pair: new count, and whether it latches at this scan or stays latched. -/
def discStep (permit demand : Bool) (count n : Nat) (latched : Bool) : Nat × Bool :=
  let count' := if permit || demand then 0 else sat16 count 1
  let latched' := latched || (!(permit || demand) && decide (n ≤ count'))
  (count', latched' && !demand)

/-- The two-hand sequence (R221): armed, awaiting, simultaneity count, granted. -/
def twoHandStep (p1 p2 released armed awaiting granted : Bool) (sim n : Nat) : Bool × Bool × Nat × Bool :=
  if released then (true, false, 0, false)
  else if armed && (p1 || p2) then (false, !(p1 && p2), 0, p1 && p2)
  else
    let sim' := if awaiting then sat16 sim 1 else sim
    let inTime := awaiting && decide (sim' ≤ n)
    let now := inTime && p1 && p2
    (armed, inTime && !now, sim', (granted || now) && p1 && p2)

/-- GRD: one scan of a guard function; the answer is "release". -/
def Ev.grd (e : Env) (v : Ev) (i : Nat) : Ev × Bool :=
  match e.forme.funcs[i]? with
  | none => (v, false)
  | some g =>
    let b := FuncBits.ofX (v.rd e 0x13 i 0)
    let m := v.funcMem i
    let twoHand := g.typ == 0x12
    let a := v.input e g.chA
    let bb := v.input e g.chB
    let c := v.input e g.chC
    let d := v.input e g.chD
    let mode := if twoHand then 2 else g.mode
    let per1 := pairPermit mode a bb
    let dem1 := pairDemand mode a bb
    let per2 := pairPermit 2 c d
    let dem2 := pairDemand 2 c d
    let nDisc := e.forme.floorCycles g.disc
    let latched1 := if twoHand then m.latch1 else !b.m1
    let d1 := discStep per1 dem1 (v.rd e 0x13 i 3) nDisc latched1
    let d2 := if twoHand then discStep per2 dem2 m.disc2 nDisc m.latch2 else (0, false)
    let m1 := !d1.2 && !d2.2
    let th := twoHandStep per1 per2 (dem1 && dem2) b.m7 m.awaiting m.granted (v.rd e 0x13 i 6) (e.forme.floorCycles g.simul)
    let permit := if twoHand then th.2.2.2 else per1
    let demand := if twoHand then dem1 && dem2 else dem1
    let m8 := b.m8 || demand
    let m3 := b.m3 && !(g.resetMode == 2 && (demand || !m1))
    let r := v.fbReset e g permit m1 b.m2 m3 b.m6 (v.rd e 0x13 i 4) (v.rd e 0x13 i 5)
    let tested := m8 || g.startTest == 0
    let m3 := r.m3 || (g.resetMode == 1 && m1 && r.m2 && tested)
    let m0 := permit && m1 && r.m2 && m3 && tested && r.ready
    let v := if b.m1 && !m1 then v.raise evGuardDiscrepancy (leBytes 2 g.id) else v
    let v := if r.raised then v.raise evGuardFeedback (leBytes 2 g.id) else v
    let v := { v with demands := v.demands + b2n (demand && !m.inDemand), resets := v.resets + b2n r.accepted }
    let v := v.setFuncMem i { m with
      disc2 := d2.1, latch1 := d1.2, latch2 := d2.2, awaiting := th.2.1, granted := th.2.2.2, inDemand := demand }
    let bits : FuncBits :=
      { m0 := m0, m1 := m1, m2 := r.m2, m3 := m3, m4 := true, m5 := b.m5, m6 := r.m6, m7 := twoHand && th.1, m8 := m8,
        m9 := b.m9 }
    let v := v.wr e 0x13 i 0 bits.x
    let v := v.wr e 0x13 i 1 0
    let v := v.wr e 0x13 i 2 0
    let v := v.wr e 0x13 i 3 d1.1
    let v := v.wr e 0x13 i 4 r.fb
    let v := v.wr e 0x13 i 5 r.press
    let v := v.wr e 0x13 i 6 (if twoHand then th.2.2.1 else 0)
    let v := (List.range 14).foldl (fun v j => v.wr e 0x13 i (7 + j) 0) v
    (v, member (v.rd e 0x13 i 0) 0)

end Sys2Proof.Machine
end

