-- ==== Sys2Proof/Machine/Track.lean ====
section
/-! DEFINITION. The counting head evaluator EVH and the section evaluator EVT (R139 to R144). -/

namespace Sys2Proof.Machine

/-- The count word of a head, where it is available (Table 4-15). -/
def Ev.headCount (e : Env) (v : Ev) (h : HeadRec) : Option Nat :=
  let at? : Option Nat :=
    if h.source = 1 then (e.forme.chanGroup h.id).map (fun i => e.forme.addr 0x03 i 0)
    else (e.forme.inputAt h.count).map (·.1)
  match at? with
  | none => none
  | some a => if v.core.unavail.contains a then none else (v.word e a).x?

/-- The health input of a head and the health member of a local pair read 1. -/
def Ev.headHealth (e : Env) (v : Ev) (h : HeadRec) : Bool :=
  (refNone h.health || v.input e h.health) &&
  (h.source != 1 || (match e.forme.chanGroup h.id with
    | some i => member (v.x e (e.forme.addr 0x03 i 1)) 0
    | none => false))

/-- The largest count difference of one scan (R139): ⌈fmax × (M + 1) × Tn⌉. -/
def Forme.maxAxles (f : Forme) (h : HeadRec) : Nat := ceilDiv (h.maxFreq * (f.header.m + 1) * f.header.cycleNs) 1000000000

/-- Count minus last count modulo 65 536, read as signed (R139). -/
def countDiff (count last : Nat) : Int := signed16 (count + 65536 - last % 65536)

/-- EVH: one scan of a counting head; the answer is "head healthy". -/
def Ev.evh (e : Env) (v : Ev) (i : Nat) : Ev × Bool :=
  match e.forme.heads[i]? with
  | none => (v, false)
  | some h =>
    let healthy := v.rd e 0x09 i 0 == 1
    let last := v.rd e 0x09 i 1
    let put (v : Ev) (state count : Nat) (d : Int) : Ev :=
      let v := { v with headD := kvSet v.headD i d }
      (v.wr e 0x09 i 0 state).wr e 0x09 i 1 count
    let fail (v : Ev) (count : Nat) : Ev :=
      let v := if healthy then v.raise evHeadFail (leBytes 2 h.id) else v
      put v 0 count 0
    let v := match v.headCount e h with
      | none => fail v last
      | some c =>
        if !v.headHealth e h then fail v c
        else if healthy then
          let d := countDiff c last
          if e.forme.maxAxles h < d.natAbs then fail v c else put v 1 c d
        else put v 1 c 0
    (v, v.rd e 0x09 i 0 == 1)

/-- Boundary heads of a section: record number, and whether it counts in on its up direction. -/
def Forme.boundary (f : Forme) (s : SectionRec) : List (Option Nat × Bool) :=
  (List.range s.nHeads).map (fun j => (f.headNo (nthD s.heads j 0xFFFF), member s.mask j))

/-- Axles into the section at one head in this scan. -/
def Ev.axlesIn (v : Ev) (b : Option Nat × Bool) : Int :=
  match b.1 with
  | some i => let d := kvGetD v.headD i 0; if b.2 then d else -d
  | none => 0

/-- The direction word (R142): the heads that counted axles in, by the sign of their d. -/
def Ev.direction (v : Ev) (bs : List (Option Nat × Bool)) (old : Nat) : Nat :=
  let ins := bs.filter (fun b => decide (0 < v.axlesIn b))
  let up := ins.any (·.2)
  let down := ins.any (fun b => !b.2)
  match up, down with
  | true, true => 0
  | true, false => 1
  | false, true => 2
  | false, false => old

/-- A section that a warm restart may restore (Table 5-5): every boundary head is remote, its node reports no restart,
and its first valid count equals the checkpoint's. None while some head has no valid count. -/
def Ev.restorable (e : Env) (v : Ev) (s : SectionRec) : Option Bool :=
  let bs := (e.forme.boundary s).filterMap (·.1)
  if bs.any (fun i => v.rd e 0x09 i 0 != 1) then none
  else some (bs.all (fun i =>
    match e.forme.heads[i]? with
    | none => false
    | some h =>
      h.source == 2 && kvGet v.core.headRef i == some (v.rd e 0x09 i 1) &&
      !(match e.forme.remotes[refIndex h.count]? with
        | some r => match e.forme.nodes[r.node]? with
          | some n => e.restarted.contains n.id
          | none => false
        | none => false)))

/-- The state of a section in the order of R140 and R144: new state, sweep count, swept, disturbed. `ever` says that
the tally has been above 0 since the reset. The sweep count advances at every scan that finds the section awaiting its sweep, and
stands otherwise. -/
def sectionNext (old : Nat) (disturbed : Bool) (tally : Int) (vacant ever : Bool) (sweep limit : Nat) :
    Nat × Nat × Bool × Bool :=
  if old = 0 then (0, sweep, false, false)
  else if old = 1 then
    if disturbed then (0, sweep + 1, false, true)
    else if ever ∧ tally = 0 ∧ vacant then (3, sweep + 1, true, false)
    else if limit ≤ sweep + 1 then (0, sweep + 1, false, true)
    else (1, sweep + 1, false, false)
  else if disturbed then (0, sweep, false, true)
  else if 0 < tally ∨ !vacant then (2, sweep, false, false)
  else (3, sweep, false, false)

/-- Sweep count of a section: its word, or beyond what a word holds the lane's own count (R144, log 59). -/
def Ev.sweepCount (e : Env) (v : Ev) (i : Nat) : Nat :=
  let x := v.rd e 0x08 i 3
  if x < 65535 then x else kvGetD v.core.sweeps i 65535

/-- EVT: one scan of a track section; the answer is "clear". -/
def Ev.evt (e : Env) (v : Ev) (i : Nat) : Ev × Bool :=
  match e.forme.sections[i]? with
  | none => (v, false)
  | some s =>
    let v := (v.applyBlock e s.id).removeBlock e s.id
    let bs := e.forme.boundary s
    let failed := bs.any (fun b => match b.1 with
      | some j => v.rd e 0x09 j 0 != 1
      | none => true)
    let vacant := refNone s.aux || v.input e s.aux
    let m0 := v.notBlocked e s.id [s.aux]
    let old := v.rd e 0x08 i 0
    let tally := (v.rd e 0x08 i 1 : Int) + (bs.map v.axlesIn).foldl (· + ·) 0
    let sweep := v.sweepCount e i
    let dir := v.direction bs (v.rd e 0x08 i 2)
    let act := v.action 1 s.id
    let why := if v.named e s.id then 0x03 else if !m0 then 0x0B else if failed then 0x14 else 0
    let reset := act.isSome && why == 0
    let v := match act with
      | some q => v.endAction e q why
      | none => v
    -- a warm restart's state returns once every head has counted (Table 5-5)
    let waiting := kvGet v.core.restore i
    let back := match waiting with
      | some st => match v.restorable e s with
        | some true => some st
        | _ => none
      | none => none
    let judgedNow := waiting.isSome && (v.restorable e s).isSome
    let v := if judgedNow || reset then { v with core := { v.core with restore := kvDel v.core.restore i } } else v
    let old := back.getD old
    let out : Nat × Nat × Bool × Bool :=
      if reset then
        if s.resetClass = 2 then (if vacant then 3 else 2, sweep, false, false) else (1, 0, false, false)
      else if waiting.isSome ∧ back.isNone then (0, sweep, false, false)
      else sectionNext old (failed || decide (tally < 0) || decide (32767 < tally)) tally vacant
        (v.core.swept.contains i || decide (0 < tally)) sweep (e.forme.floorCycles (s.sweep * 1000))
    let (state, sweep, swept, disturbed) := out
    let tally := if reset then 0 else tally
    let v := if swept then v.raise evSectionSwept (leBytes 2 s.id) else v
    let v := if disturbed then v.raise evSectionDisturbed (leBytes 2 s.id) else v
    let v := { v with core := { v.core with
      sweeps := if 65535 ≤ sweep then kvSet v.core.sweeps i sweep else kvDel v.core.sweeps i,
      swept := withFlag v.core.swept i (state == 1 && !reset && (v.core.swept.contains i || decide (0 < tally))) } }
    let v := v.wr e 0x08 i 0 state
    let v := v.wr e 0x08 i 1 (toU16 tally)
    let v := v.wr e 0x08 i 2 dir
    let v := v.wr e 0x08 i 3 (min sweep 65535)
    let v := v.wr e 0x08 i 4 (ofMembers [m0, vacant])
    (v, v.rd e 0x08 i 0 == 3)

end Sys2Proof.Machine
end

