-- ==== Sys2Proof/Machine/Term.lean ====
section
/-! DEFINITION. The logic engine: the operators of Table 4-17, strands, and the order in which a lane runs the strands
of a level (R76 to R80). -/

namespace Sys2Proof.Machine

/-- acc[0]: member 0 of the accumulator. -/
def Ev.acc0 (v : Ev) : Bool := member v.acc.2 0

/-- acc[0] := b. The other members of a boolean set stay; an accumulator of another kind becomes a boolean set whose
other members are open (log 19). -/
def Ev.setAcc0 (v : Ev) (b : Bool) : Ev :=
  let x := if v.acc.1 = 1 then v.acc.2 else Config.mismatchedX v.acc.1 v.acc.2 1 % 65536
  { v with acc := (1, setMember x 0 b) }

/-- Member m of the word at an address. -/
def Ev.memberAt (e : Env) (v : Ev) (a m : Nat) : Bool := member (v.x e a) m

/-- An evaluator's answer goes to acc[0]. -/
def Ev.answer (p : Ev × Bool) : Ev := p.1.setAcc0 p.2

/-- STW: the accumulator's word; x is open where the kinds do not match (log 2). -/
def Ev.storeAcc (e : Env) (v : Ev) (a : Nat) : Ev :=
  let d := e.forme.decl a
  let x := if d.scratch || d.kind == v.acc.1 then v.acc.2 else Config.mismatchedX v.acc.1 v.acc.2 d.kind % 65536
  v.putPath e 0x02 a v.acc.1 x

/-- The decodes of a term's operands that fail count in the recorder, each word it reads (R79, R125) once (R26). -/
def Ev.countReads (e : Env) (v : Ev) (t : Term) : Ev :=
  ((e.forme.termReads t ++ e.forme.inputReads t).eraseDups).foldl (fun v a => v.countBad e (v.word e a)) v

/-- The effect of one term other than END (Table 4-17). -/
def Ev.act (e : Env) (v : Ev) (t : Term) : Ev :=
  match t.op with
  | 0x01 => { v with acc := (readKind e.forme v.core.store t.a, v.x e t.a) }
  | 0x02 => v.setAcc0 (v.memberAt e t.a t.m)
  | 0x03 => v.setAcc0 (!v.memberAt e t.a t.m)
  | 0x04 => v.setAcc0 (v.acc0 && v.memberAt e t.a t.m)
  | 0x05 => v.setAcc0 (v.acc0 && !v.memberAt e t.a t.m)
  | 0x06 => v.setAcc0 (v.acc0 || v.memberAt e t.a t.m)
  | 0x07 => v.setAcc0 (v.acc0 || !v.memberAt e t.a t.m)
  | 0x08 => v.setAcc0 (v.x e t.a == t.k)
  | 0x09 => v.setAcc0 (v.acc0 && v.x e t.a == t.k)
  | 0x0A => v.putPath e 0x02 t.a 1 (setMember (v.x e t.a) t.m v.acc0)
  | 0x0B => v.storeAcc e t.a
  | 0x0C => v.putPath e 0x02 t.a 3 (if v.acc0 then t.k else 0)
  | 0x10 => Ev.answer (v.tmr e t.a v.acc0)
  | 0x11 => Ev.answer (v.edg e t.a)
  | 0x12 => Ev.answer (v.evp e t.a v.acc0)
  | 0x13 => Ev.answer (v.evs e t.a)
  | 0x14 => Ev.answer (v.evt e t.a)
  | 0x15 => Ev.answer (v.evh e t.a)
  | 0x16 => Ev.answer (v.evx e t.a)
  | 0x17 => Ev.answer (v.rte e t.a)
  | 0x18 => Ev.answer (v.ovl e t.a)
  | 0x20 => Ev.answer (v.mot e t.a)
  | 0x21 => Ev.answer (v.grd e t.a)
  | _ => v

/-- One term other than END. -/
def Ev.term (e : Env) (v : Ev) (t : Term) : Ev := (v.countReads e t).act e t

/-- The accumulator holds the restrictive boolean. -/
def Ev.clearAcc (v : Ev) : Ev := { v with acc := (1, 0) }

/-- Terms up to END. -/
def Ev.terms (e : Env) (v : Ev) : List Term → Ev
  | [] => v
  | t :: ts => if t.op = 0x3E then v.clearAcc else Ev.terms e (v.term e t) ts

/-- Strand number i of the strand table. -/
def Ev.strand (e : Env) (v : Ev) (i : Nat) : Ev :=
  v.clearAcc.terms e (e.forme.terms.drop (nthD e.forme.strands i 0))

/-- The stride lane C uses: s, or the next odd value coprime with n (R78). -/
def coprimeStride (s n : Nat) : Nat :=
  (((List.range (n + 1)).map (fun i => s + 2 * i)).find? (fun t => Nat.gcd t n == 1)).getD 1

/-- The order in which a lane takes the n strands of a level (R78). -/
def laneOrder (l : LaneId) (s n : Nat) : List Nat :=
  match l with
  | .a => List.range n
  | .b => (List.range n).reverse
  | .c => (List.range n).map (fun i => i * coprimeStride s n % n)

/-- First strand and strand count of each level. -/
def Forme.levelStrands (f : Forme) : List (Nat × Nat) :=
  let firsts := f.levels.map (·.strand)
  let ends := firsts.drop 1 ++ [f.strands.length]
  firsts.zip (firsts.zipWith (fun a b => b - a) ends)

/-- One level. -/
def Ev.level (e : Env) (v : Ev) (p : Nat × Nat) : Ev :=
  (laneOrder e.lane e.forme.header.stride p.2).foldl (fun v i => v.strand e (p.1 + i)) v

/-- The whole term program, and the end of the route strand (R78, R80, R118). -/
def Ev.program (e : Env) (v : Ev) : Ev := (e.forme.levelStrands.foldl (Ev.level e) v).finishRoutes e

end Sys2Proof.Machine
end

