-- ==== Sys2Proof/Machine/FormeCheck.lean ====
section
/-! DEFINITION. The load checks of Table 4-22, each a test of the parsed forme, in the order of the table, and the items
of Table 8-1 that an exchange keeps (R65, R66, R82, R83, R190, R210, R233, R243, R418, R151). -/

namespace Sys2Proof.Machine

/-! ### Check 5: the header (R65) -/

def Forme.check5 (f : Forme) : Bool :=
  let h := f.header
  h.magic == 0x46585350 && h.format == 1 && h.zerosOk && (h.personality == 1 || h.personality == 2) &&
  (h.variant == 1 || h.variant == 2) && decide (5 ≤ h.m) && decide (h.m ≤ 100) && decide (h.hold ≤ 500) &&
  decide (h.duplex ≤ 1) && h.stride % 2 == 1 && decide (3 ≤ h.stride) && decide (h.stride ≤ 15) &&
  decide (1 ≤ h.storeSize) && decide (h.storeSize ≤ 262144)

/-! ### Check 8: the directory (R64, R66, R125, R161, R184, R211) -/

/-- A length rounded up to whole 4 KiB blocks. -/
def blocks (n : Nat) : Nat := ceilDiv n 4096 * 4096

/-- One entry: its place, code, alignment, order, length and words per record; `at_` is the end of the region before. Regions follow one
another in table order, and an empty one takes no place but keeps the order: its offset may not lie before that end (DESIGN CHOICE, log
62: the spec says of an empty region only that it has its entry). -/
def dirEntryOk (i at_ : Nat) (e : DirEntry) : Bool :=
  let sp := regionSpec (i + 1)
  e.code == i + 1 && e.offset % 4096 == 0 && decide (at_ ≤ e.offset) && decide (e.length ≤ sp.2.2) &&
  (sp.1 == 0 || e.length == e.count * sp.1) && e.reserved == 0 &&
  (match wordsPerRecord (i + 1) with
    | some n => e.wordsPer == n
    | none => wordRegions.contains (i + 1) || e.wordsPer == 0)

def dirOk : Nat → Nat → List DirEntry → Bool
  | _, _, [] => true
  | i, at_, e :: t => dirEntryOk i at_ e && dirOk (i + 1) (if e.length = 0 then at_ else e.offset + blocks e.length) t

/-- Size the directory describes. -/
def Forme.dirSize (f : Forme) : Nat := f.dir.foldl (fun n e => if e.length = 0 then n else max n (e.offset + e.length)) 0

/-- Check 8. A directory that describes more bytes than the image holds fails it too (DESIGN CHOICE, log 62: the spec names only the
limit of 24 512 KiB). -/
def Forme.check8 (f : Forme) : Bool :=
  dirOk 0 0 f.dir && decide (f.dirSize ≤ 24512 * 1024) && decide (f.dirSize ≤ f.imageLen) &&
  (f.entry 0x01).offset == 0 && (f.entry 0x02).offset == 4096

/-! ### Check 9: counts, imposition, template, duplex -/

/-- Every record count is within Table 4-1. -/
def Forme.countsOk (f : Forme) : Bool :=
  f.dir.all (fun e => (regionSpec e.code).2.1 == 0 || decide (e.count ≤ (regionSpec e.code).2.1)) &&
  decide (f.header.quoinBound ≤ 65536) && decide ((f.heads.filter (·.source == 1)).length ≤ 16)

/-- Region 0x14 (R184). -/
def Forme.authoritiesOk (f : Forme) : Bool :=
  let e := f.entry 0x14
  decide (f.authCount ≤ 8) && decide (f.rangeCount ≤ 2030) && (e.length == 0 || e.length == 144 + 8 * f.rangeCount)

/-- An imposition header and its timing (R233, Table 12-9). -/
def Imposition.timingOk (p : Imposition) (cycleNs : Nat) : Bool :=
  p.cycleNs == cycleNs && decide (1 ≤ p.slots) && decide (p.slots ≤ 512) && decide (p.minislots ≤ 479) &&
  decide (42 ≤ p.idle) && decide (200 ≤ p.hop) && decide (p.hop ≤ 240) &&
  decide (ceilDiv (p.nodes * p.hop) 1000 ≤ p.allowance) &&
  (p.slots + 2 * p.minislots + p.allowance + p.idle) * 1000 == p.cycleNs &&
  decide (1 ≤ p.nodes) && decide (p.nodes ≤ 1024) && decide (1 ≤ p.entryCount) && decide (p.entryCount ≤ 8184) &&
  (p.topology == 1 || p.topology == 2) && (p.topology != 2 || decide (p.nodes ≤ 64)) && p.reserved == 0

/-- Static entry. -/
def ImpEntry.isStatic (e : ImpEntry) : Bool := e.flags % 2 == 0

/-- One entry is well formed (Table 12-10). -/
def ImpEntry.ok (p : Imposition) (e : ImpEntry) : Bool :=
  decide (e.flags ≤ 15) &&
  (if e.isStatic then
    decide (e.slot < p.slots) && [1, 2, 4, 8, 16].contains e.k && decide (e.f < e.k) && e.len == 16
   else decide (1 ≤ e.slot) && decide (e.slot ≤ p.minislots) && e.k == 1 && e.f == 0 && decide (1 ≤ e.len))

/-- Two static entries give one slot in the same network cycle number. -/
def ImpEntry.clash (a b : ImpEntry) : Bool :=
  a.slot == b.slot && (if a.isStatic && b.isStatic then a.f % min a.k b.k == b.f % min a.k b.k
    else !a.isStatic && !b.isStatic && a.owner != b.owner)

def pairwiseNone {α : Type} (p : α → α → Bool) : List α → Bool
  | [] => true
  | a :: t => !t.any (p a) && pairwiseNone p t

/-- Some k = 1 entry of a node carries a flag bit. -/
def Imposition.hasSlot (p : Imposition) (owner bit : Nat) : Bool :=
  p.entries.any (fun e => e.isStatic && e.owner == owner && e.k == 1 && e.flags.testBit bit)

/-- R243 on entries and node records; `masters` are the record numbers that may hold the cycle-master role. -/
def Imposition.rulesOk (p : Imposition) (nodes : List NodeRec) (masters : List Nat) : Bool :=
  let sync := nodes.filter (·.roles.testBit 0)
  let cold := nodes.filter (·.roles.testBit 1)
  p.entries.all (ImpEntry.ok p) && pairwiseNone ImpEntry.clash p.entries &&
  decide (sync.length ≤ 4) && decide (cold.length ≤ 3) && pairwiseNone (fun a b => a.id % 16 == b.id % 16) cold &&
  sync.all (fun n => p.hasSlot n.id 1) && cold.all (fun n => p.hasSlot n.id 2) &&
  (indexed nodes).all (fun q => !q.2.roles.testBit 2 || (masters.contains q.1 && q.2.roles.testBit 0 && q.2.roles.testBit 1))

/-- Own node identities of a forme: one, or the pair's two (R280). -/
def Forme.ownNodes (f : Forme) : List Nat :=
  if f.header.duplex = 1 then [f.header.node, f.header.node + 1] else [f.header.node]

/-- An interlocking forme's imposition (R233, R241 to R243). It need not list the module: one that it does not list is a bypass node (R232). -/
def Forme.impositionOk (f : Forme) : Bool :=
  f.imp.timingOk f.header.cycleNs && f.imp.nodes == f.nodes.length && f.imp.topology == 1 &&
  f.imp.rulesOk f.nodes (if f.header.duplex = 1 then [0, 1] else [0]) &&
  f.nodes.all (fun n => decide (1 ≤ n.typ) && decide (n.typ ≤ 3) && decide (n.roles ≤ 15) && n.reserved == 0)

/-- Static entries with the heartbeat flag and k = 1 of a node. -/
def Imposition.heartbeats (p : Imposition) (owner : Nat) : Nat :=
  (p.entries.filter (fun e => e.isStatic && e.flags.testBit 3 && e.k == 1 && e.owner == owner)).length

/-- The member's entries that carry the mirror: static, k = 1, no heartbeat flag, and the ordinal of no output point
(log 20). -/
def Forme.mirrorOf (f : Forme) (owner : Nat) : List Nat :=
  let own := entriesOf f.imp.entries owner
  ((indexed own).filter (fun q =>
    !f.remotes.any (fun r => r.output == 1 && r.ordinal == q.1) &&
    (match f.imp.entries[q.2]? with
      | some e => e.k == 1 && !e.flags.testBit 3
      | none => false))).map (·.2)

/-- R280 and R281. -/
def Forme.duplexOk (f : Forme) : Bool :=
  let roles (i : Nat) : Nat := ((f.nodes[i]?).map (·.roles)).getD 0
  let referees := (indexed f.nodes).filter (fun q => q.2.roles.testBit 3)
  let p := f.mirrorEntries
  let n0 := f.header.node
  roles 0 % 8 == 7 && roles 1 % 8 == 7 && referees.length == 1 && referees.all (fun q => decide (2 ≤ q.1)) &&
  ((f.nodes[0]?).map (·.id)) == some n0 && ((f.nodes[1]?).map (·.id)) == some (n0 + 1) &&
  f.imp.heartbeats n0 == 1 && f.imp.heartbeats (n0 + 1) == 1 &&
  referees.all (fun q => f.imp.heartbeats q.2.id == 1) &&
  decide (8 ≤ p) && decide (p ≤ 64) && f.mirrorPositions.length == 8 * p &&
  (f.mirrorPositions.map (·.index)) == List.range (8 * p) &&
  decide (p ≤ (f.mirrorOf n0).length) && decide (p ≤ (f.mirrorOf (n0 + 1)).length) &&
  (f.galley.filter (fun g => g.target == 3)).all (fun g => f.remotes.any (fun r => r.output == 1 && r.group == g.id))

/-- A train forme's node region and template (R262, R263). -/
def Forme.trainOk (f : Forme) : Bool :=
  let t := f.template
  f.header.installation / 281474976710656 == 0 && f.header.node == 0x7F00 && f.nodes.length == 64 &&
  (indexed f.nodes).all (fun q => q.2.id == 0x7F01 + q.1 && q.2.typ == 1 && q.2.roles == 0 && q.2.reserved == 0) &&
  (f.entry 0x05).length == 64 && t.cycleNs == 1000000 && f.header.cycleNs == 1000000 && t.slotUse % 2 == 1 &&
  decide (1 ≤ t.maxAge) && t.reserved == 0

/-- Table 4-20. -/
def Forme.personalityOk (f : Forme) : Bool :=
  if f.header.personality = 2 then
    f.routes.isEmpty && f.overlaps.isEmpty && f.flanks.isEmpty && f.crossings.isEmpty && f.header.duplex == 0 && f.trainOk
  else f.impositionOk && (f.header.duplex == 0 || f.duplexOk)

def Forme.check9 (f : Forme) : Bool := f.countsOk && f.authoritiesOk && f.personalityOk

/-! ### Check 10: identities and references -/

/-- Identities of the elements and functions. -/
def Forme.elementIds (f : Forme) : List Nat :=
  f.points.map (·.id) ++ f.signals.map (·.id) ++ f.sections.map (·.id) ++ f.heads.map (·.id) ++ f.crossings.map (·.id) ++
  f.funcs.map (·.id)

/-- Every identity of the forme. -/
def Forme.allIds (f : Forme) : List Nat :=
  f.elementIds ++ f.channels.map (·.group) ++ f.remotes.map (·.group) ++ f.timers.map (·.owner) ++ f.edges.map (·.owner) ++
  f.galley.map (·.id)

/-- Identity and kind of each word on the local input path. -/
def Forme.localPath (f : Forme) : List (Nat × Nat) :=
  f.localInputs.map (fun a => ((f.decl a).id, (f.decl a).kind))

/-- Identity and kind of the words from one node. -/
def Forme.nodePath (f : Forme) (node : Nat) : List (Nat × Nat) :=
  f.remoteInputs.filterMap (fun g => (f.remGroup g 0).bind (fun i => (f.remotes[i]?).bind (fun r =>
    if r.node = node then some (g, f.remoteKind i) else none)))

/-- R67. -/
def Forme.identitiesOk (f : Forme) : Bool :=
  f.allIds.all isIdentity && decide (f.elementIds.Nodup) && decide (f.localPath.Nodup) &&
  ((f.remotes.map (·.node)).eraseDups).all (fun n => decide ((f.nodePath n).Nodup)) &&
  decide ((f.galley.map (fun g => (g.id, g.kind))).Nodup) &&
  (f.header.personality != 2 || (f.elementIds.all (fun id => !(decide (0x7000 ≤ id) && decide (id ≤ 0x740F))))) &&
  (f.header.duplex == 0 || f.elementIds.all (fun id => !(decide (0x7420 ≤ id) && decide (id ≤ 0x743F))))

/-- Node identities are in range and unique in the region (Table 12-8). -/
def Forme.nodesOk (f : Forme) : Bool := f.nodes.all (fun n => isIdentity n.id) && pairwiseNone (fun a b => a.id == b.id) f.nodes

/-- Universal channels and vital outputs a variant has (Table 0-1): L 16 and 8, F 32 and 16. -/
def variantUniversal (variant : Nat) : Nat := if variant = 1 then 16 else 32
def variantVital (variant : Nat) : Nat := if variant = 1 then 8 else 16

/-- A reference that exists on the variant; `optional` allows class 0x0 (R68). -/
def Forme.refOk (f : Forme) (optional : Bool) (r : Nat) : Bool :=
  match refClass r with
  | 0x0 => optional
  | 0x1 => decide (refIndex r < variantUniversal f.header.variant)
  | 0x2 => decide (refIndex r < variantVital f.header.variant)
  | 0x3 => decide (refIndex r < f.remotes.length)
  | _ => false

/-- Bank of a universal channel: eight channels each (Table 10-1). -/
def channelBank (ch : Nat) : Nat := ch / 8

/-- One local channel record (R190, Table 10-2). -/
def Forme.channelOk (f : Forme) (r : ChannelRec) : Bool :=
  let fv := f.header.variant == 2
  let combo :=
    if 32 ≤ r.channel then r.func == 1 && r.dir == 2
    else if r.dir = 2 then r.func == 1 && r.vital == 0
    else match r.func with
      | 1 | 2 => true
      | 3 => fv && f.heads.any (fun h => h.source == 1 && h.id == r.group)
      | 4 => fv && (f.channels.filter (fun q => q.group == r.group)).length == 1
      | 5 => !fv && r.member != 15
      | _ => false
  let pair := match r.func with
    | 2 => r.partner != r.channel && f.channels.any (fun q => q.func == 2 && q.channel == r.partner && q.partner == r.channel)
    | 3 => r.partner == (if r.channel % 2 = 0 then r.channel + 1 else r.channel - 1) &&
        f.channels.any (fun q => q.func == 3 && q.channel == r.partner && q.group == r.group)
    | _ => true
  (decide (r.channel < variantUniversal f.header.variant) ||
    (decide (32 ≤ r.channel) && decide (r.channel < 32 + variantVital f.header.variant))) && (r.dir == 1 || r.dir == 2) && combo && pair && decide (r.filter ≤ 100) && decide (r.member ≤ 15)

/-- The record that a reference names declares it vital. -/
def Forme.refVital (f : Forme) (r : Nat) : Bool :=
  match refClass r with
  | 0x1 => ((f.chanOf (refIndex r)).map (fun c => c.vital == 1)).getD false
  | 0x2 => ((f.chanOf (32 + refIndex r)).map (fun c => c.vital == 1)).getD false
  | 0x3 => ((f.remotes[refIndex r]?).map (fun c => c.vital == 1)).getD false
  | _ => false

/-- References of the outputs that points, signals and crossings command. -/
def Forme.outputRefs (f : Forme) : List Nat :=
  f.points.flatMap (fun p => [p.driveN, p.driveR]) ++
  f.signals.flatMap (fun s => if s.lamps = 0 then [s.output] else (List.range s.lamps).map (refPlus s.output)) ++
  f.crossings.flatMap (fun x => [x.light, x.barrierCmd])

/-- R190 over all channel records. -/
def Forme.channelsOk (f : Forme) : Bool :=
  f.channels.all f.channelOk && decide ((f.channels.map (·.channel)).Nodup) &&
  pairwiseNone (fun a b => a.group == b.group && a.member == b.member) f.channels &&
  pairwiseNone (fun a b => decide (a.channel < 32) && decide (b.channel < 32) &&
    channelBank a.channel == channelBank b.channel && a.typ != b.typ) f.channels &&
  (f.outputRefs.filter (fun r => refClass r == 2)).all (fun r => (f.chanOf (32 + refIndex r)).isSome) &&
  (f.galley.filter (fun g => g.target == 1)).all (fun g => (f.chanOf (32 + g.index)).isSome)

/-- References of every element record and of the vehicle template (R68, R128, R263). A frequency group is a group of local channel
records (Table 10-2): R213 judges it by its status word, which no remote point carries (DEDUCED, log 62). -/
def Forme.refsOk (f : Forme) : Bool :=
  f.points.all (fun p => f.refOk false p.driveN && f.refOk false p.driveR &&
    (List.range p.machines).all (fun j => f.refOk false (refPlus p.detN j) && f.refOk false (refPlus p.detR j)) &&
    (f.sectionNo p.sec).isSome && (p.coupled == 0xFFFF || (f.pointNo p.coupled).isSome) &&
    (p.flank == 0xFFFFFFFF || decide (p.flank < f.flanks.length))) &&
  f.signals.all (fun s => (if s.lamps = 0 then refClass s.output == 3 && f.refOk false s.output
      else (List.range s.lamps).all (fun j => f.refOk false (refPlus s.output j))) && f.refOk true s.proving &&
    (s.approach == 0xFFFF || (f.sectionNo s.approach).isSome) && (s.linked == 0xFFFF || (f.signalNo s.linked).isSome)) &&
  f.sections.all (fun s => f.refOk true s.aux && (List.range s.nHeads).all (fun j => (f.headNo (nthD s.heads j 0xFFFF)).isSome)) &&
  f.heads.all (fun h => f.refOk true h.health &&
    (if h.source = 1 then f.header.variant == 2 && decide (h.even ≤ 30) && h.even % 2 == 0 && (f.chanGroup h.id).isSome
     else refClass h.count == 3 && f.refOk false h.count)) &&
  f.crossings.all (fun x => f.refOk false x.light && f.refOk false x.proving && f.refOk true x.barrierCmd &&
    x.downs.all (f.refOk true) && (x.strikes.filter (· != 0xFFFF)).all (fun id => (f.sectionNo id).isSome) &&
    (x.island == 0xFFFF || (f.sectionNo x.island).isSome)) &&
  f.funcs.all (fun g => f.refOk true g.resetIn && f.refOk true g.feedback &&
    (g.monitored == 0xFFFF || (f.galleyId g.monitored).isSome) &&
    (if g.typ < 0x10 then f.refOk true g.refIn &&
      (if g.srcKind = 1 then (f.headNo g.srcId).isSome else (f.chanGroup g.srcId).isSome)
     else f.refOk false g.chA && f.refOk false g.chB && f.refOk true g.chC && f.refOk true g.chD)) &&
  f.authorities.all (fun a => refClass a.confirm == 3 && f.refOk false a.confirm && (f.galleyId a.offer).isSome &&
    (f.galleyId a.offerTarget).isSome && (f.timerNo a.offer a.timer).isSome) &&
  (f.header.personality != 2 || [f.template.cab1, f.template.cab2].all (fun r => refNone r || (f.refOk false r && f.refVital r)))

/-- An element of the type that a pool role names. -/
def Forme.roleOk (f : Forme) (p : PoolEntry) : Bool :=
  match p.role with
  | 0x1 | 0x2 | 0x7 => (f.pointNo p.id).isSome
  | 0x3 | 0x5 => (f.sectionNo p.id).isSome
  | 0x4 => (f.signalNo p.id).isSome
  | 0x6 => (f.crossingNo p.id).isSome
  | _ => true

/-- The role in which a pool names a point (0 when it does not). -/
def pointRole (pool : List PoolEntry) (id : Nat) : Nat :=
  ((pool.find? (fun p => (p.role == 1 || p.role == 2) && p.id == id)).map (·.role)).getD 0

/-- A pool names both points of a coupled pair in the matching position, and no anchor point in role 0x1 or 0x2
(R113, R133). -/
def Forme.poolOk (f : Forme) (pool : List PoolEntry) : Bool :=
  pool.all f.roleOk &&
  pool.all (fun p => !(p.role == 1 || p.role == 2) ||
    (match f.points.find? (fun q => q.id == p.id) with
      | some q => q.coupled == 0xFFFF || pointRole pool q.coupled == p.role
      | none => false)) &&
  pool.all (fun p => p.role != 7 || pointRole pool p.id == 0)

/-- The protecting element of a flank rule is of the type its role names (Table 4-13); a coupled point has beside it a
rule for the other point of its pair in the matching position (R133). An unlisted role is check 11's (R69). -/
def Forme.flankRefOk (f : Forme) (r : FlankRec) : Bool :=
  match r.prole with
  | 0x2 => (f.signalNo r.pid).isSome
  | 0x1 | 0x3 =>
    (match f.points.find? (fun q => q.id == r.pid) with
      | some q => (r.prole == 1 || q.typ == 2) && (q.coupled == 0xFFFF ||
          f.flanks.any (fun t => t.prot == r.prot && t.trigger == r.trigger && t.pid == q.coupled && t.prole == r.prole && t.ppos == r.ppos))
      | none => false)
  | _ => true

/-- Routes and overlaps (R71, R113, R133). -/
def Forme.routesOk (f : Forme) : Bool :=
  f.routes.all (fun r => (f.signalNo r.entry).isSome && (f.signalNo r.exit).isSome &&
    decide (r.first + r.n + r.approachN ≤ f.pool.length) && (r.overlap == 0xFFFF || decide (r.overlap < f.overlaps.length)) &&
    f.poolOk (f.routePool r) && (f.routeApproach r).all (fun p => p.role == 5 && f.roleOk p)) &&
  f.overlaps.all (fun o => (f.signalNo o.start).isSome && (f.sectionNo o.trigger).isSome &&
    decide (o.first + o.n ≤ f.pool.length) && (o.alt == 0xFFFF || decide (o.alt < f.overlaps.length)) &&
    f.poolOk (f.overlapPool o)) &&
  f.flanks.all (fun r => (f.pointNo r.prot).isSome && (r.next == 0xFFFFFFFF || decide (r.next < f.flanks.length)) &&
    f.flankRefOk r)

/-- Number of static entries of a sender that a remote point names; of a pair's output point, those that both members have. -/
def Forme.senderEntries (f : Forme) (r : RemoteRec) : Nat :=
  if f.header.personality = 2 then (List.range 8).foldl (fun n o => n + b2n (f.template.slotUse.testBit o)) 0
  else if r.output = 1 then
    (f.ownNodes.map (fun n => (entriesOf f.imp.entries n).length)).foldl min (entriesOf f.imp.entries f.header.node).length
  else ((f.nodes[r.node]?).map (fun n => (entriesOf f.imp.entries n.id).length)).getD 0

/-- Remote points: node, carrying entry and word (R238, R247, R262), one group on one word. -/
def Forme.remotesOk (f : Forme) : Bool :=
  f.remotes.all (fun r => (decide (r.node < f.nodes.length) ||
      (f.header.personality == 2 && (r.node == 0xFFE1 || r.node == 0xFFE2))) &&
    decide (r.ordinal < f.senderEntries r) && decide (r.word < 8)) &&
  pairwiseNone (fun a b => a.group == b.group && a.output == b.output &&
    !(a.node == b.node && a.ordinal == b.ordinal && a.word == b.word)) f.remotes

def Forme.check10 (f : Forme) : Bool :=
  f.identitiesOk && f.nodesOk && f.channelsOk && f.refsOk && f.routesOk && f.remotesOk &&
  f.edges.all (fun e => f.inStore e.addr && decide (e.member < 16))

/-! ### Check 11: senses, enumerations, kinds, ages, presets -/

/-- A duration in ms is at least two interlocking cycles (R126, R212). -/
def Forme.twoCycles (f : Forme) (ms : Nat) : Bool := decide (2 * f.tcNs ≤ ms * 1000000)

def inRange (lo hi n : Nat) : Bool := decide (lo ≤ n) && decide (n ≤ hi)

/-- Point, signal, section, head and crossing records (Tables 4-5 to 4-9, R126, R137). A crossing whose barrier-down references are not
as many as its barriers is refused (DESIGN CHOICE, log 62: the spec names no refusal of it). -/
def Forme.elementsOk (f : Forme) : Bool :=
  f.points.all (fun p => inRange 1 3 p.typ && inRange 1 4 p.machines && inRange 100 30000 p.stroke && f.twoCycles p.stroke &&
    decide (p.filter ≤ 500) && p.reserved == 0) &&
  f.signals.all (fun s => inRange 1 4 s.typ && inRange 1 16 s.aspects && decide (s.lamps ≤ 8) && s.reserved == 0 &&
    (s.table.drop s.aspects).all (· == 0) &&
    (if s.lamps = 0 then !refNone s.proving else decide (10 ≤ s.low) && decide (s.high ≤ 1500) && decide (s.low < s.high))) &&
  f.sections.all (fun s => inRange 1 8 s.nHeads && inRange 1 2 s.resetClass && inRange 10 3600 s.sweep &&
    f.twoCycles (s.sweep * 1000) && (s.heads.drop s.nHeads).all (· == 0xFFFF) && s.reserved == 0) &&
  f.heads.all (fun h => inRange 1 2 h.source && inRange 40 1000 h.minPulse && inRange 1 10000 h.maxFreq && h.reserved == 0) &&
  f.crossings.all (fun x => inRange 1 3 x.typ && decide (x.barriers ≤ 4) && f.twoCycles x.lowering &&
    (x.downs.filter (fun r => !refNone r)).length == x.barriers && x.reserved == 0)

/-- Route, overlap, pool, flank and timer fields (Tables 4-11 to 4-14, R71, R73, R99, R184). -/
def Forme.recordsOk (f : Forme) : Bool :=
  let release (owner ord : Nat) : Bool := match (f.timerNo owner ord).bind (fun i => f.timers[i]?) with
    | some t => t.cls == 1
    | none => false
  f.routes.all (fun r => inRange 1 3 r.cls && inRange 1 2 r.release && decide (r.approachN ≤ 8) && r.reserved == 0 &&
    release r.entry r.timer) &&
  f.overlaps.all (fun o => o.reserved == 0 && release o.start o.timer) &&
  f.pool.all (fun p => inRange 1 7 p.role && decide (p.flags ≤ 1) && (match p.role with
    | 0x4 => true
    | 0x3 | 0x7 => p.state == 1 || p.state == 2
    | _ => p.state == 0)) &&
  f.flanks.all (fun r => inRange 1 2 r.trigger && inRange 1 3 r.prole && (r.prole != 1 || inRange 1 2 r.ppos) && r.reserved == 0) &&
  f.timers.all (fun t => inRange 1 2 t.cls && decide (1 ≤ t.preset) && decide (t.preset * 1000000 ≤ 65535 * f.tcNs) &&
    (t.cls != 2 || decide (f.tcNs ≤ t.preset * 1000000)) && t.reserved == 0) &&
  decide ((f.timers.map (fun t => (t.owner, t.ord))).Nodup) && decide ((f.edges.map (fun t => (t.owner, t.ord))).Nodup) &&
  f.edges.all (fun e => inRange 1 3 e.typ && (f.decl e.addr).kind == 1) &&
  f.authorities.all (fun a => match (f.timerNo a.offer a.timer).bind (fun i => f.timers[i]?) with
    | some t => t.cls == 2 && inRange 1000 10000 t.preset
    | none => false)

/-- Multiplex period of the entry that carries a remote input; 0 where no such bound is (R247). -/
def Forme.remotePeriod (f : Forme) (r : RemoteRec) : Nat :=
  if r.output = 1 ∨ f.header.personality = 2 then 0
  else (((f.nodes[r.node]?).bind (fun n => (entriesOf f.imp.entries n.id)[r.ordinal]?)).bind (fun i =>
    (f.imp.entries[i]?).map (·.k))).getD 0

/-- Kinds and targets of galley positions (R41, R50, R420), and maximum ages (R32, R74). R74 speaks of input points; an output point with
age 0 is refused as well (DESIGN CHOICE, log 62). -/
def Forme.kindsOk (f : Forme) : Bool :=
  f.galley.all (fun g => inRange 1 5 g.target && inRange 1 4 g.kind && g.reserved == 0 && (match g.target with
    | 0x1 => g.kind == 4 && decide (g.index < variantVital f.header.variant)
    | 0x2 => g.kind == 4 && (g.index == 4 || (g.index == 5 && f.header.variant == 2))
    | 0x5 => g.kind == 1
    | _ => true)) &&
  f.remotes.all (fun r => decide (1 ≤ r.maxAge) && decide (f.remotePeriod r ≤ r.maxAge) && inRange 0 1 r.vital) &&
  f.channels.all (fun r => (r.typ == 1 || r.typ == 3) && decide (r.vital ≤ 1) && r.reserved == 0)

/-- A channel reference is declared non-vital. -/
def Forme.refNonVital (f : Forme) (r : Nat) : Bool :=
  match refClass r with
  | 0x1 => ((f.chanOf (refIndex r)).map (fun c => c.vital == 0)).getD false
  | 0x2 => ((f.chanOf (32 + refIndex r)).map (fun c => c.vital == 0)).getD false
  | 0x3 => ((f.remotes[refIndex r]?).map (fun c => c.vital == 0)).getD false
  | _ => true

/-- Motion and guard records (Tables 11-1 to 11-3, R210, R212). -/
def Forme.funcOk (f : Forme) (g : FuncRec) : Bool :=
  let mode := inRange 1 2 g.resetMode
  let fb := refNone g.feedback || (g.monitored != 0xFFFF && !refNone g.resetIn && inRange 20 1000 g.fbDelay && f.twoCycles g.fbDelay)
  let manual := g.resetMode != 2 || !refNone g.resetIn
  let own := g.zerosOk &&
    if g.typ < 0x10 then
      inRange 1 4 g.typ && inRange 1 2 g.srcKind &&
      (g.srcKind != 2 || f.channels.all (fun c => c.group != g.srcId || c.func == 4)) && inRange 1 4000000 g.scale && inRange 1 16 g.window &&
      (g.typ != 3 || (g.resetMode == 1 && inRange 100 10000 g.still)) &&
      (g.typ != 2 || (inRange 1 2 g.dir && g.srcKind == 1)) && (g.typ != 4 || (g.srcKind == 1 && !refNone g.refIn))
    else
      inRange 0x10 0x13 g.typ && inRange 20 3000 g.disc && f.twoCycles g.disc && decide (g.startTest ≤ 1) &&
      (g.typ == 0x11 || g.startTest == 0) && (g.typ != 0x10 || g.resetMode == 2) &&
      inRange 1 2 g.mode &&
      (if g.typ = 0x12 then g.resetMode == 1 && inRange 100 500 g.simul && !refNone g.chC && !refNone g.chD &&
          f.refNonVital g.chB && f.refNonVital g.chD
       else refNone g.chC && refNone g.chD && (g.typ != 0x13 || g.mode == 1) && (g.mode != 2 || f.refNonVital g.chB))
  mode && fb && manual && own

def Forme.check11 (f : Forme) : Bool := f.elementsOk && f.recordsOk && f.kindsOk && f.funcs.all f.funcOk

/-! ### Check 12: the term program -/

/-- Opcodes of Table 4-17. -/
def opDefined (op : Nat) : Bool :=
  inRange 0x01 0x0C op || inRange 0x10 0x18 op || op == 0x20 || op == 0x21 || op == 0x3E || op == 0x3F

/-- The operand lies in the word store or in the region the operator names (R76). -/
def Forme.operandOk (f : Forme) (t : Term) : Bool :=
  match t.op with
  | 0x10 => decide (t.a < f.timers.length)
  | 0x11 => decide (t.a < f.edges.length)
  | 0x12 => decide (t.a < f.points.length)
  | 0x13 => decide (t.a < f.signals.length)
  | 0x14 => decide (t.a < f.sections.length)
  | 0x15 => decide (t.a < f.heads.length)
  | 0x16 => decide (t.a < f.crossings.length)
  | 0x17 => decide (t.a < f.routes.length)
  | 0x18 => decide (t.a < f.overlaps.length)
  | 0x20 => ((f.funcs[t.a]?).map (fun g => decide (g.typ < 0x10))).getD false
  | 0x21 => ((f.funcs[t.a]?).map (fun g => decide (0x10 ≤ g.typ))).getD false
  | 0x3E | 0x3F => true
  | _ => f.inStore t.a

/-- How many terms of an opcode name a record. -/
def namedBy (terms : List Term) (op a : Nat) : Nat := (terms.filter (fun t => t.op == op && t.a == a)).length

/-- Every record of n is named exactly once by an opcode. -/
def onceEach (terms : List Term) (op n : Nat) : Bool := (List.range n).all (fun i => namedBy terms op i == 1)

/-- R98 and R418. -/
def Forme.namingOk (f : Forme) : Bool :=
  let ts := f.allStrands.flatten
  onceEach ts 0x10 f.timers.length && onceEach ts 0x11 f.edges.length && onceEach ts 0x12 f.points.length && onceEach ts 0x13 f.signals.length &&
  onceEach ts 0x14 f.sections.length && onceEach ts 0x15 f.heads.length && onceEach ts 0x16 f.crossings.length &&
  (indexed f.funcs).all (fun q => namedBy ts (if q.2.typ < 0x10 then 0x20 else 0x21) q.1 == 1)

/-- The strand and level tables: strands start after the END before them, levels cover them in order (R78). The level table's own
cost-bound field is not compared with the bound that R81 gives (DESIGN CHOICE, log 62: the spec names no check of it). -/
def Forme.tablesOk (f : Forme) : Bool :=
  let starts := f.strands
  let ends := (indexed f.terms).filterMap (fun q => if q.2.op = 0x3E then some (q.1 + 1) else none)
  let levelsOk := (indexed f.levels).all (fun q =>
    (if q.1 = 0 then q.2.strand == 0 && q.2.first == 0 else
      match f.levels[q.1 - 1]? with
      | some p => decide (p.strand ≤ q.2.strand) && q.2.first == p.first + p.count
      | none => false) &&
    (q.2.strand == f.strands.length || nthD f.strands q.2.strand 0 == q.2.first))
  (starts.head?).getD 0 == 0 && starts == (0 :: ends).take starts.length && ends.length == starts.length &&
  (ends.getLast?).getD 0 == f.terms.length && levelsOk &&
  ((f.levels.getLast?).map (fun p => p.first + p.count)).getD 0 == f.terms.length

/-- Kind of the word at an address; none for a scratch word, which takes any. -/
def Forme.kindAt (f : Forme) (a : Nat) : Option Nat := let d := f.decl a
  if d.scratch then none else some d.kind

/-- The word's kind is one of those listed, where it has one. -/
def kindIn (l : List Nat) : Option Nat → Bool
  | none => true
  | some k => l.contains k

/-- The kinds of Table 4-17 along a strand; `acc` is the accumulator's kind (none: open). -/
def Forme.kindsMatch (f : Forme) : Option Nat → List Term → Bool
  | _, [] => true
  | acc, t :: ts =>
    let k := f.kindAt t.a
    (match t.op with
      | 0x02 | 0x03 | 0x04 | 0x05 | 0x06 | 0x07 | 0x0A => kindIn [1] k
      | 0x08 | 0x09 => kindIn [3, 4] k
      | 0x0B => acc.isNone || k.isNone || acc == k
      | _ => true) &&
    Forme.kindsMatch f (match t.op with
      | 0x01 => k
      | 0x0A | 0x0B | 0x0C | 0x3F => acc
      | _ => some 1) ts

/-- Words a strand reads and writes. -/
def Forme.strandReads (f : Forme) (ts : List Term) : List Nat := ts.flatMap f.termReads
def Forme.strandWrites (f : Forme) (ts : List Term) : List Nat := ts.flatMap f.termWrites

/-- R79: no strand of a level writes a word that another strand of it reads or writes. -/
def Forme.levelOk (f : Forme) (p : Nat × Nat) : Bool :=
  let ss := (List.range p.2).map (fun i => f.strandTerms (p.1 + i))
  let rw := ss.map (fun ts => (f.strandReads ts, f.strandWrites ts))
  (indexed rw).all (fun a => (indexed rw).all (fun b =>
    a.1 == b.1 || !a.2.2.any (fun w => b.2.1.contains w || b.2.2.contains w)))

/-- R80: every RTE and OVL term in one strand, in the last level. -/
def Forme.routeStrandOk (f : Forme) : Bool :=
  let holders := (List.range f.strands.length).filter (fun i => (f.strandTerms i).any (fun t => t.op == 0x17 || t.op == 0x18))
  let lastFirst := ((f.levels.getLast?).map (·.strand)).getD 0
  decide (holders.length ≤ 1) && holders.all (fun i => decide (lastFirst ≤ i))

/-- R417: a word that a term or evaluator reads is written by a term, an evaluator, a handler or the input phase. -/
def Forme.writtenOk (f : Forme) : Bool :=
  let ts := f.allStrands.flatten
  let written := ts.flatMap f.termWrites ++ f.inputWrites ++ f.handlerWrites
  ts.all (fun t => (f.termReads t ++ f.inputReads t).all written.contains)

/-- R293: no member-local word is read by an RTE, OVL or EVX term or feeds a position of target 0x03 or 0x04. -/
def Forme.duplexWordsOk (f : Forme) : Bool :=
  let loc := f.memberLocal
  f.allStrands.flatten.all (fun t => !(t.op == 0x17 || t.op == 0x18 || t.op == 0x16) || !(f.termReads t ++ f.inputReads t).any loc.contains) &&
  (indexed f.galley).all (fun q => !(q.2.target == 3 || q.2.target == 4) || !loc.contains (f.addr 0x12 q.1 0))

def Forme.check12 (f : Forme) : Bool :=
  f.terms.all (fun t => opDefined t.op && f.operandOk t) && f.tablesOk && f.levelStrands.all f.levelOk && f.routeStrandOk &&
  f.allStrands.all (f.kindsMatch (some 1)) && f.namingOk && f.writtenOk && (f.header.duplex == 0 || f.duplexWordsOk) &&
  wordRegions.all (fun c => let e := f.entry c; e.count * e.wordsPer == 0 || decide (e.base + e.count * e.wordsPer ≤ f.header.storeSize)) &&
  (f.header.personality != 2 || decide (f.template.t0 + 4 ≤ f.header.storeSize))

/-! ### Check 13: the evaluation bound and Tc (R81, R92) -/

/-- Cost of a term in pipe clocks (Table 4-17). -/
def Forme.cost (f : Forme) (t : Term) : Nat :=
  match t.op with
  | 0x10 | 0x11 => 2
  | 0x12 | 0x14 => 6
  | 0x13 | 0x20 => 8
  | 0x15 | 0x21 => 4
  | 0x16 => 12
  | 0x17 => 4 + ((f.routes[t.a]?).map (·.n)).getD 0
  | 0x18 => 4 + ((f.overlaps[t.a]?).map (·.n)).getD 0
  | _ => 1

/-- Cost of a strand, its END included. -/
def Forme.strandCost (f : Forme) (i : Nat) : Nat := ((f.strandTerms i).map f.cost).foldl (· + ·) 0 + 1

/-- Bound of one level (R81). -/
def Forme.levelBound (f : Forme) (p : Nat × Nat) : Nat :=
  let cs := (List.range p.2).map (fun i => f.strandCost (p.1 + i))
  ceilDiv (cs.foldl (· + ·) 0) 4 + cs.foldl max 0

/-- The evaluation bound; a train forme adds 1 100 pipe clocks for the proof (R274). -/
def Forme.evalBound (f : Forme) : Nat :=
  (f.levelStrands.map (fun p => f.levelBound p + 8)).foldl (· + ·) 0 + (if f.header.personality = 2 then 1100 else 0)

/-- The bound at lane B's 380 MHz fits Tc − 2 650 µs. -/
def Forme.check13 (f : Forme) : Bool :=
  f.evalBound == f.header.evalBound && decide (f.evalBound ≤ 1049600) && decide (5000000 ≤ f.tcNs) &&
  decide (f.evalBound * 1000 + 2650000 * 380 ≤ f.tcNs * 380)

/-! ### Check 14: flank chains and HOLD (R72, R83) -/

/-- The chain from a record ends within 8 steps with every rule at its own depth. -/
def chainOk (f : Forme) : Nat → Nat → Nat → Bool
  | 0, _, i => i == 0xFFFFFFFF
  | n + 1, depth, i =>
    if i = 0xFFFFFFFF then true
    else match f.flanks[i]? with
      | none => false
      | some r => r.depth == depth && chainOk f n (depth + 1) r.next

def Forme.check14 (f : Forme) : Bool :=
  f.points.all (fun p => chainOk f 8 1 p.flank) &&
  (f.header.duplex == 0 || decide (2 * f.tcNs ≤ f.header.hold * 1000000))

/-! ### The checks in order -/

/-- What a load check answers: status and reason. -/
structure LoadFail where
  status : Status
  reason : Nat
  deriving DecidableEq, Repr

/-- Checks 5 to 14 on a forme, for a module of a variant, with the personality it must keep (online exchange) and the
network cycle in use (R84). -/
def Forme.contentFail (f : Forme) (variant cycleNs : Nat) (keep : Option Nat) : Option LoadFail :=
  let fail (st : Status) (r : Nat) : Option LoadFail := some { status := st, reason := r }
  if !f.check5 then fail .refused 0x05
  else if f.header.variant ≠ variant then fail .refused 0x06
  else if keep.isSome ∧ keep ≠ some f.header.personality then fail .state 0x07
  else if f.header.cycleNs ≠ cycleNs then fail .state 0x08
  else if !f.check8 then fail .refused 0x09
  else if !f.check9 then fail .refused 0x0A
  else if !f.check10 then fail .refused 0x0B
  else if !f.check11 then fail .refused 0x0C
  else if !f.check12 then fail .refused 0x0D
  else if !f.check13 then fail .refused 0x0E
  else if !f.check14 then fail .refused 0x0F
  else none

/-- Bytes of an image. -/
def imageBytes (m : Image) : List Byte := (List.range m.len).map (fun i => BitVec.ofNat 8 (imgByte m i))

/-- SHAKE256 digest of the plaintext (check 4). -/
def imageDigest (m : Image) : Digest := shake256 (imageBytes m)

/-! ### Table 8-1 -/

/-- Mapped words of an exchange, for the transfer bound of R155: the words that both formes' records hold. -/
def Forme.storedWords (f : Forme) : Nat := (wordRegions.map (fun c => (f.entry c).count * (f.entry c).wordsPer)).foldl (· + ·) 0

/-- Transfer items of R155: mapped words, held rows, three words per timer, detectors, 256 frisket entries. -/
def transferItems (mapped held : Nat) (f : Forme) : Nat := mapped + held + 3 * f.timers.length + f.edges.length + 256

/-- Transfer bound in µs at one item per clock of lane B, 760 MHz. -/
def transferBound (mapped held : Nat) (f : Forme) : Nat := ceilDiv (transferItems mapped held f) 760

/-- The first item of Table 8-1 that differs. -/
def Forme.exchangeFail (old new : Forme) (bound : Nat) : Option LoadFail :=
  let fail (st : Status) (r : Nat) : Option LoadFail := some { status := st, reason := r }
  let a := old.header
  let b := new.header
  if a.personality ≠ b.personality then fail .state 0x07
  else if a.variant ≠ b.variant ∨ a.installation ≠ b.installation then fail .state 0x20
  else if a.m ≠ b.m ∨ a.cycleNs ≠ b.cycleNs ∨ a.node ≠ b.node ∨ a.duplex ≠ b.duplex then fail .state 0x21
  else if old.channels ≠ new.channels then fail .refused 0x22
  else if old.nodes ≠ new.nodes ∨ (if a.personality = 2 then decide (old.template ≠ new.template) else decide (old.imp ≠ new.imp)) then
    fail .refused 0x23
  else if old.remotes ≠ new.remotes then fail .refused 0x24
  else if old.galley ≠ new.galley then fail .refused 0x25
  else if a.cycleNs < bound * 1000 + 100000 then fail .refused 0x26
  else none

end Sys2Proof.Machine
end

