-- ==== Sys2Proof/Machine/Flags.lean ====
section
/-! DEFINITION. The fields of the BAR0 registers and the status registers computed from the state: queue configuration and
`Q_STATUS` (Tables 15-7 to 15-9), `MOD_STATUS`, `EVT_SUMMARY`, `CDC_STATUS`, `ABORT_LOG`, `PRIV_STATUS`, the module's
rear outputs (Table 20-4) and the cycle's status values. -/

namespace Sys2Proof.Machine

/-! ### Queue fields -/

/-- Bits [hi:lo] of a register. -/
def bits32 (w : Word32) (lo n : Nat) : Nat := w.toNat / 2 ^ lo % 2 ^ n

def Queue.log2 (q : Queue) : Nat := bits32 q.cfg 0 4
def Queue.depth (q : Queue) : Nat := 2 ^ q.log2
def Queue.units (q : Queue) : Nat := bits32 q.cfg 4 7
def Queue.entryBytes (q : Queue) : Nat := 64 * q.units
def Queue.vector (q : Queue) : Nat := bits32 q.cfg 11 5
def Queue.irqEn (q : Queue) : Bool := q.cfg.getLsbD 16
def Queue.attnEn (q : Queue) : Bool := q.cfg.getLsbD 17
def Queue.enabled (q : Queue) : Bool := q.cfg.getLsbD 31

/-- Used entries: (prod − cons) mod 65 536 (R308). -/
def Queue.used (q : Queue) : Nat := (q.prod + 65536 - q.cons % 65536) % 65536

/-- Free entries of the ring (R308). -/
def Queue.free (q : Queue) : Nat := q.depth - q.used

/-- A queue the host produces into: command and tunnel transmit queues (Table 15-6). -/
def hostProducer (n : Nat) : Bool := decide (n < 16) || (decide (48 ≤ n) && decide (n < 56))

/-- The maintenance port's queues, whose blocks read as disabled and ignore writes (Table 15-6). -/
def portQueue (n : Nat) : Bool := n == 15 || n == 31 || n == 47

def HostLink.queue (h : HostLink) (n : Nat) : Queue := nthD h.queues n .reset

def State.updQueue (s : State) (n : Nat) (f : Queue → Queue) : State :=
  { s with host := { s.host with queues := updNth s.host.queues n .reset f } }

/-- Queue memory can be reached: Bus Master Enable set and the function in D0 (R299). -/
def HostLink.dma (h : HostLink) : Bool := h.busMaster && h.inD0

/-- The queue moves entries: enabled, no error, queue memory reachable (R299, Table 15-9). -/
def HostLink.moves (h : HostLink) (n : Nat) : Bool := (h.queue n).enabled && !(h.queue n).error && h.dma

/-- `Q_STATUS` (Table 15-9, R299). -/
def HostLink.qStatus (h : HostLink) (n : Nat) : Word32 :=
  let q := h.queue n
  let code := if q.enabled && !h.dma then 0x05 else q.errCode
  if portQueue n then 0
  else BitVec.ofNat 32 ((if q.enabled && !q.error then 1 else 0) + (if q.stalled then 2 else 0) + (if q.error then 4 else 0) +
    code % 256 * 256 + min q.overflow 65535 * 65536)

/-! ### Status registers (Tables 15-3 to 15-5) -/

/-- The forme that runs in a lane. -/
def LaneState.forme (st : LaneState) : Option Forme :=
  if st.slot0.state = .running then st.slot0.forme else if st.slot1.state = .running then st.slot1.forme else none

/-- The running slot of a lane, 0 or 1. -/
def LaneState.running (st : LaneState) : Option Nat :=
  if st.slot0.state = .running then some 0 else if st.slot1.state = .running then some 1 else none

def LaneState.slot (st : LaneState) (n : Nat) : FormeSlot := if n = 0 then st.slot0 else st.slot1

def LaneState.setSlot (st : LaneState) (n : Nat) (x : FormeSlot) : LaneState :=
  if n = 0 then { st with slot0 := x } else { st with slot1 := x }

/-- The cycle count of the new cycle: one more, but for the first strobe after a restart, which carries the count of Table 5-5
(DEDUCED, log 32). -/
def Net.strobeCount (n : Net) : Nat := if n.atStart then n.count else (n.count + 1) % 4294967296

/-- Safe-state cause of a module that holds it rather than enters it by a vote: no forme, Retired (log 27). -/
def causeHeld : Nat := 6

/-- The module is in the state of R3: it holds the safe state for want of a forme that may run. -/
def State.runsNothing (s : State) : Bool := s.platen.safe && s.platen.safeCause == causeHeld

/-- The forme the module runs: that of the first lane in service that has one, else of any lane; none in the state of R3. -/
def State.forme (s : State) : Option Forme :=
  if s.runsNothing then none else ((s.lanesIn ++ LaneId.all).findSome? (fun l => (s.lanes.get l).forme))

/-- Digest of the running forme; all zero when none runs. -/
def State.formeDigest (s : State) : Digest :=
  if s.runsNothing then 0
  else ((s.lanesIn ++ LaneId.all).findSome? (fun l =>
    let st := s.lanes.get l
    st.running.map (fun n => (st.slot n).digest))).getD 0

/-- 0 none, 1 interlocking, 2 train (`SYS.PERSONALITY`). -/
def State.personality (s : State) : Nat := (s.forme.map (·.header.personality)).getD 0

/-- The lane counts as in service for `MOD_STATUS` and `HEALTH`. -/
def State.laneServes (s : State) (l : LaneId) : Bool := s.power.running && s.laneIn l

/-- `DUP.ROLE` (Table 14-5): 0 not duplex, 1 commanding, 2 standby ready, 3 standby not ready. -/
def State.dupRole (s : State) : Nat :=
  match s.forme with
  | none => 0
  | some f =>
    if f.header.duplex = 1 then (if s.duplex.commanding then 1 else if s.duplex.ready then 2 else 3) else 0

/-- `LCS` code (Table 15-4). -/
def LifeState.code : LifeState → Nat
  | .manufacture => 0
  | .commissioning => 1
  | .operation => 2
  | .maintenance => 3
  | .retired => 4

/-- Open sessions of one transport. -/
def HostLink.openSessions (h : HostLink) (udp : Bool) : List Session := h.sessions.filter (fun x => x.opened && x.udp == udp)

/-- The privileged window is open (R306). -/
def HostLink.window (h : HostLink) : Bool := !(h.openSessions false).isEmpty

/-- `MOD_STATUS` (Table 15-4). -/
def State.modStatus (s : State) : Word32 :=
  BitVec.ofNat 32 ((if s.platen.safe then 1 else 0) + (if s.forme.isSome then 2 else 0) + s.personality % 4 * 4 +
    ((if s.laneServes .a then 16 else 0) + (if s.laneServes .b then 32 else 0) + (if s.laneServes .c then 64 else 0)) +
    s.life.state.code * 128 + (if s.host.window then 1024 else 0) + (if s.update.session.isSome then 2048 else 0) +
    s.dupRole % 4 * 4096)

/-- `EVT_SUMMARY`: bit n while Q(32 + n) holds unconsumed entries (Table 15-3). -/
def HostLink.evtSummary (h : HostLink) : Word32 :=
  BitVec.ofNat 32 (((List.range 16).map (fun n => if (h.queue (32 + n)).used = 0 then 0 else 2 ^ n)).foldl (· + ·) 0)

/-- `CDC_STATUS` (Table 15-3). -/
def HostLink.cdcStatus (h : HostLink) : Word32 :=
  BitVec.ofNat 32 ((if h.cdcFlag then 1 else 0) + h.cdcIsland % 16 * 16 + min h.cdcCount 65535 * 65536)

/-- `ABORT_LOG` (Table 15-3). -/
def HostLink.abortLog (h : HostLink) : Word32 :=
  BitVec.ofNat 32 (h.abortOff % 65536 + h.abortReason % 16 * 65536 + min h.abortCount 4095 * 1048576)

/-- Variant code of `SYS.VARIANT` (Table 15-19). -/
def Variant.code : Variant → Nat
  | .l => 1
  | .f => 2

/-- `ID_PART` (Table 15-3). -/
def Ident.part (i : Ident) : Word32 := BitVec.ofNat 32 (0x3840 + i.variant.code * 65536 + i.hwRev % 256 * 16777216)

/-- `PRIV_STATUS`: lowest open PCIe session number, and sessions open on both transports (Table 15-5). -/
def HostLink.privStatus (h : HostLink) : Word32 :=
  let low := (((h.openSessions false).map (·.num)).min?).getD 0
  BitVec.ofNat 32 (low % 65536 + ((h.sessions.filter (·.opened)).length % 16) * 65536)

/-- An implemented BAR0 location outside the MSI-X tables (Tables 15-1 to 15-7). -/
def implemented (window : Bool) (off : Nat) : Bool :=
  (decide (off < 0x1000) && decide (off % 0x40 < 0x18)) ||
  (decide (0x1000 ≤ off) && decide (off < 0x1028)) ||
  (decide (0x2000 ≤ off) && decide (off < 0x2200)) || (decide (0x2800 ≤ off) && decide (off < 0x2808)) ||
  (decide (0x8000 ≤ off) && decide (off < 0x10000) &&
    (!window || decide (off < 0x8008) || (decide (0x8400 ≤ off) && decide (off < 0x8500))))

/-- What a read of an implemented register returns; a read has no side effect (Table 15-2). -/
def State.readRegister (s : State) (off : Nat) : Word32 :=
  let h := s.host
  if off < 0x1000 then
    let n := off / 0x40
    let q := if portQueue n then Queue.reset else h.queue n
    match off % 0x40 with
    | 0x00 => q.baseLo
    | 0x04 => q.baseHi
    | 0x08 => q.cfg
    | 0x0C => BitVec.ofNat 32 (q.prod % 65536)
    | 0x10 => BitVec.ofNat 32 (q.cons % 65536)
    | 0x14 => h.qStatus n
    | _ => 0
  else if 0x2000 ≤ off ∧ off < 0x2200 then
    if off % 16 = 12 then (if h.masked.contains ((off - 0x2000) / 16) then 1 else 0) else kvGetD h.msix off 0
  else if off = 0x2800 then BitVec.ofNat 32 ((h.pba.map (fun n => 2 ^ n)).foldl (· + ·) 0)
  else if 0x8000 ≤ off then
    if !h.window then 0
    else if off = 0x8000 then h.privStatus
    else if 0x8400 ≤ off ∧ off < 0x8500 then nthD h.evtRoute ((off - 0x8400) / 4) 0
    else 0
  else match off with
    | 0x1000 => s.ident.part
    | 0x1004 => BitVec.ofNat 32 s.ident.serial
    | 0x1008 => BitVec.ofNat 32 (s.ident.serial / 4294967296)
    | 0x100C => s.ident.fwVersion
    | 0x1010 => s.modStatus
    | 0x1014 => BitVec.ofNat 32 s.net.count
    | 0x1018 => h.evtSummary
    | 0x101C => h.scratch
    | 0x1020 => h.cdcStatus
    | 0x1024 => h.abortLog
    | _ => 0

/-! ### Rear logic outputs (Table 20-4): true while driven low -/

/-- The module is cycle master of a running network (R400). -/
def State.masterRunning (s : State) : Bool :=
  s.power.running && s.net.mode == .running &&
  (match s.forme with
    | none => false
    | some f =>
      if f.header.personality = 2 then s.train.number == 1
      else if f.header.duplex = 1 then s.duplex.commanding
      else true)

/-- `HEALTH_A` to `HEALTH_C` driven low. -/
def State.healthLow (s : State) (l : LaneId) : Bool := s.power.powered && !s.laneServes l

/-- `MASTER` driven low. -/
def State.masterLow (s : State) : Bool := s.power.powered && !s.masterRunning

/-- `SAFE_N` driven low: the safe state, reset, or start-up before the first vote grants permits. -/
def State.safeLow (s : State) : Bool := s.power.powered && s.field.safeN

/-- `HOST_ATTN_N` driven low: an enabled module-producer queue with ATTN_EN holds unconsumed entries (R311). -/
def HostLink.hostAttn (h : HostLink) : Bool :=
  (List.range 64).any (fun n => !hostProducer n && (h.queue n).enabled && (h.queue n).attnEn && (h.queue n).used != 0)

end Sys2Proof.Machine
end

