-- ==== Sys2Proof/Machine/Auxiliary.lean ====
section
/-! DEFINITION. The auxiliary handler of a lane (R182 to R187): stagings, windows, confirmations and acknowledgements.
Stagings and acknowledgements act before level 0, on the frozen requests; the windows are judged after the last level, by
which time the TMR terms have scanned their timers (R98). -/

namespace Sys2Proof.Machine

/-- An element that can be blocked: a point, signal, track section or level crossing (R180). -/
def Forme.blockable (f : Forme) (id : Nat) : Bool :=
  (f.pointNo id).isSome || (f.signalNo id).isSome || (f.sectionNo id).isSome || (f.crossingNo id).isSome

/-- The target is an element of the type that Table 9-3 gives for the code. -/
def Forme.auxTarget (f : Forme) (code id : Nat) : Bool :=
  match code with
  | 0x1 => (f.sectionNo id).isSome
  | 0x2 => (f.pointNo id).isSome
  | 0x3 => (f.crossingNo id).isSome
  | 0x4 | 0x5 => (f.signalNo id).isSome
  | _ => f.blockable id

/-- A range of Table 9-4 covers target, code and authority. -/
def Forme.auxPermits (f : Forme) (code authority id : Nat) : Bool :=
  f.ranges.any (fun r => decide (r.first ≤ id) && decide (id ≤ r.last) && member r.codes (code - 1) && member r.auths authority)

/-- A record about a staging. -/
def Ev.stagingRecord (e : Env) (v : Ev) (authority : Nat) (s : Staging) (outcome reason : Nat) : Ev :=
  v.hand { outRec false s.target (some s.slot) outcome reason e.now with
    code := s.code, ticket := s.ticket, authority := authority }

def Ev.setStagings (v : Ev) (l : List (Nat × Staging)) : Ev := { v with core := { v.core with stagings := l } }

/-- The staging of an authority ends. -/
def Ev.endStaging (e : Env) (v : Ev) (authority : Nat) (s : Staging) (outcome reason : Nat) : Ev :=
  (v.stagingRecord e authority s outcome reason).setStagings (kvDel v.core.stagings authority)

/-- The offer's x (R185). -/
def Staging.offer (s : Staging) : Nat := s.code * 4096 + s.ticket

/-- The staging checks of R185 in their order, and the staging; `held` are the stagings open at the start of the scan. -/
def Ev.stage (e : Env) (v : Ev) (held : List (Nat × Staging)) (id code authority : Nat) (slot : Option Nat) : Ev :=
  let refuse (reason : Nat) : Ev :=
    v.hand { outRec false id slot 0x03 reason e.now with code := code, authority := authority }
  if code = 0 ∨ 6 < code ∨ e.forme.authCount ≤ authority ∨ !e.forme.auxPermits code authority id then refuse 0x11
  else if (kvGet held authority).isSome ∨ (kvGet v.core.stagings authority).isSome then refuse 0x12
  else if !e.forme.auxTarget code id then refuse 0x01
  else
    let s : Staging :=
      { code := code, target := id, ticket := e.now % 4095 + 1, slot := slot.getD 0, cycle := e.now, confirmed := none }
    (v.setStagings (kvSet v.core.stagings authority s)).stagingRecord e authority s 0x07 0

/-- The frozen withdrawal of a target. -/
def Env.withdrawal (e : Env) (id : Nat) : Option Req := e.req (fun k => k == .auxWithdraw id)

/-- x of an authority's confirm word after the input phase. -/
def Ev.confirmX (e : Env) (v : Ev) (a : AuthorityRec) : Nat :=
  match e.forme.inputAt a.confirm with
  | some (addr, _) => v.x e addr
  | none => 0

/-- An authority's window timer stops when its staging ends, so that the next staging starts it from zero (R99, R185). -/
def Ev.stopWindow (e : Env) (v : Ev) (a : AuthorityRec) : Ev :=
  match e.forme.timerNo a.offer a.timer with
  | some t => (v.scanTimer e t false).1
  | none => v

/-- The window of one authority at one scan (R186, Table 9-7): expiry, then a withdrawal, then the confirm word, which is
not read in the safe state. `held` are the stagings open at the start of the scan. -/
def Ev.window (e : Env) (v : Ev) (held : List (Nat × Staging)) (i : Nat) (a : AuthorityRec) : Ev :=
  let expired := match e.forme.timerNo a.offer a.timer with
    | some t => v.timerExpired e t
    | none => false
  match kvGet held i with
  | none => v
  | some s =>
    if expired then (v.endStaging e i s 0x0A 0x10).stopWindow e a
    else match e.withdrawal s.target with
      | some q => ((v.endStaging e i s 0x05 0x0D).hand (outRec false s.target q.slot 0x05 0x0D e.now)).stopWindow e a
      | none =>
        let x := if e.safe then 0 else v.confirmX e a
        if x = 0 then v
        else if x = s.offer then
          let v := v.stagingRecord e i s 0x08 0
          (v.setStagings (kvSet (kvDel v.core.stagings i) (i + 8 * s.ticket) { s with confirmed := some e.now })).stopWindow e a
        else (v.endStaging e i s 0x03 0x13).stopWindow e a

/-- Acknowledgements become actions of this cycle (R187). -/
def Ev.acknowledge (e : Env) (v : Ev) : Ev :=
  e.reqs.foldl (fun v q => match q.kind with
    | .auxAck authority ticket =>
      match kvGet v.core.stagings (authority + 8 * ticket) with
      | some s => { v with execs := v.execs ++ [(authority, s)] }
      | none => v
    | _ => v) v

/-- A confirmed staging without acknowledgement by the third cycle after its confirmation ends (R187). -/
def Ev.notCounted (e : Env) (v : Ev) : Ev :=
  v.core.stagings.foldl (fun v p =>
    match p.2.confirmed with
    | none => v
    | some j =>
      let authority := p.1 % 8
      if j + 3 ≤ e.now ∧ !v.execs.any (fun x => x.1 == authority && x.2.ticket == p.2.ticket) then
        (v.stagingRecord e authority p.2 0x03 0x15).setStagings (kvDel v.core.stagings p.1)
      else v) v

/-- The offer positions of an authority (R185): the offer and its target while the staging is open in this cycle. -/
def Ev.offers (e : Env) (v : Ev) (held : List (Nat × Staging)) (i : Nat) (a : AuthorityRec) : Ev :=
  let s := (kvGet v.core.stagings i).orElse (fun _ => kvGet held i)
  let put (v : Ev) (id x : Nat) : Ev := match e.forme.galleyId id with
    | some g => v.putGalley e g x
    | none => v
  put (put v a.offer ((s.map Staging.offer).getD 0)) a.offerTarget ((s.map (·.target)).getD 0)

/-- The handler's part before level 0: acknowledgements, and the stagings that the cycle's requests open. -/
def Ev.auxScan (e : Env) (v : Ev) : Ev :=
  let held := v.core.stagings
  let v := (v.acknowledge e).notCounted e
  e.reqs.foldl (fun v q => match q.kind with
    | .auxStage id code authority => v.stage e held id code authority q.slot
    | _ => v) v

/-- The handler's part after the last level: windows, withdrawals and offers. -/
def Ev.auxWindows (e : Env) (held : List (Nat × Staging)) (v : Ev) : Ev :=
  let before := v.core.stagings
  let v := (indexed e.forme.authorities).foldl (fun v p => v.window e held p.1 p.2) v
  let v := e.reqs.foldl (fun v q => match q.kind with
    | .auxWithdraw id =>
      let taken := before.any (fun p => decide (p.1 < 8) && p.2.target == id) &&
        v.records.any (fun r => !r.isRoute && r.slot == q.slot && r.outcome == 5 && r.target == id)
      if taken then v else v.hand (outRec false id q.slot 0 0 e.now)
    | _ => v) v
  (indexed e.forme.authorities).foldl (fun v p => v.offers e held p.1 p.2) v

end Sys2Proof.Machine
end

