-- ==== Sys2Proof/Machine/Force.lean ====
section
/-! DEFINITION. Force requests at the strobe into which they are frozen (R166 to R168). The outcome codes 0x20 to 0x23 are
the model's own: they name the answer the steward writes. -/

namespace Sys2Proof.Machine

/-- Outcome codes of force records: the entry took effect, refused, no room, removed. -/
def outForceSet : Nat := 0x20
def outForceRefused : Nat := 0x21
def outForceLimit : Nat := 0x22
def outForceCleared : Nat := 0x23

/-- The position is vital (R167): galley positions and element words always, an input when its channel or remote point
is declared vital. -/
def Forme.forceVital (f : Forme) (path id : Nat) : Bool :=
  match path with
  | 0x01 => f.channels.any (fun r => r.group == id && r.vital != 0) ||
      f.remotes.any (fun r => r.group == id && r.output == 0 && r.vital != 0)
  | _ => true

/-- The forced x is a legal value of the position (R167, R420). -/
def Forme.forceLegal (f : Forme) (a kind x : Nat) : Bool :=
  match kind with
  | 0x1 => true
  | 0x3 => decide (x ≤ (f.decl a).highest)
  | 0x4 => f.cmdLegal a x
  | _ => false

/-- The lowest force number that no entry holds. -/
def lowestForce (l : List Force) : Nat :=
  ((List.range 256).find? (fun n => !l.any (fun q => q.num == n))).getD 256

/-- Entries in the order of their numbers. -/
def insertForce (l : List Force) (q : Force) : List Force :=
  match l with
  | [] => [q]
  | h :: t => if q.num < h.num then q :: h :: t else if q.num = h.num then q :: t else h :: insertForce t q

/-- The entry as the lanes hold it: vital flag from the forme, whole value unless a member mask applies. -/
def Forme.forceEntry (f : Forme) (q : Force) (num now : Nat) : Force :=
  let masked := q.kind == 1 && member q.flags 1
  { q with flags := b2n (f.forceVital q.path q.id) + 2 * b2n masked, mask := if masked then q.mask else 0xFFFF,
           word := if q.path = 2 then q.word else 0, num := num, cycle := now }

/-- One `ilk.force_set` (R167, R168); `held` is the entry count at the start of the cycle. -/
def Ev.forceSet (e : Env) (v : Ev) (held : Nat) (slot : Option Nat) (q : Force) : Ev :=
  let out (outcome num : Nat) : OutRec := { outRec false q.id slot outcome 0 e.now with ticket := num }
  let done (n : Force) : OutRec := { out outForceSet n.num with forces := [n] }
  match e.forme.forceAddr q.path q.id q.kind q.word with
  | none => v.hand (out outForceRefused 0)
  | some a =>
    if !e.forme.forceLegal a q.kind q.x then v.hand (out outForceRefused 0)
    else
      match v.forceAt e q.path a with
      | some old =>
        let n := e.forme.forceEntry q old.num e.now
        { v.hand (done n) with core := { v.core with frisket := insertForce v.core.frisket n } }
      | none =>
        let num := lowestForce v.core.frisket
        if 256 ≤ held ∨ 256 ≤ num then v.hand (out outForceLimit 0)
        else
          let n := e.forme.forceEntry q num e.now
          { v.hand (done n) with core := { v.core with frisket := insertForce v.core.frisket n } }

/-- An entry leaves: the position takes the program's own value from its shadow (R168). -/
def Ev.dropForce (e : Env) (v : Ev) (q : Force) : Ev :=
  let v := { v with core := { v.core with frisket := v.core.frisket.filter (fun r => r.num != q.num) } }
  match e.forme.forceAddr q.path q.id q.kind q.word with
  | none => v
  | some a =>
    match kvGet v.core.shadow a with
    | none => v
    | some x => { v.putRaw e a q.kind x with core := { (v.putRaw e a q.kind x).core with shadow := kvDel v.core.shadow a } }

/-- One `ilk.force_clear`: a number, or 0xFFFF for every entry (R168). -/
def Ev.forceClear (e : Env) (v : Ev) (slot : Option Nat) (num : Nat) : Ev :=
  let hit := v.core.frisket.filter (fun q => num == 0xFFFF || q.num == num)
  if hit.isEmpty ∧ num ≠ 0xFFFF then v.hand { outRec false 0 slot 0 0 e.now with ticket := num }
  else (hit.foldl (Ev.dropForce e) v).hand { outRec false 0 slot outForceCleared 0 e.now with ticket := num, forces := hit }

/-- The force requests of the cycle, in the order they were frozen. -/
def Ev.forceRequests (e : Env) (v : Ev) : Ev :=
  let held := v.core.frisket.length
  e.reqs.foldl (fun v q => match q.kind with
    | .forceSet f => v.forceSet e held q.slot f
    | .forceClear n => v.forceClear e q.slot n
    | _ => v) v

end Sys2Proof.Machine
end

