-- ==== Sys2Proof/Machine/Judge.lean ====
section
/-! DEFINITION. What the lanes conclude from the field side's words: faults of Table 3-10, the external-energy procedure
of Table 10-8 (R205), and the clearing of blocks (R206). -/

namespace Sys2Proof.Machine

/-- Input reference of a vital output's readback. -/
def voRef (vo : Nat) : Nat := 0x20000000 + vo

/-- The output's readback reads on. -/
def Ev.voReads (e : Env) (v : Ev) (vo : Nat) : Bool := v.input e (voRef vo)

/-- The output was commanded off in the cycle before (R200): its bridge is open. -/
def Ev.voOff (e : Env) (v : Ev) (vo : Nat) : Bool :=
  match e.forme.galleyOf 1 vo with
  | some g => decide (g < v.core.lastGalley.length) && nthD v.core.lastGalley g 0 != 1
  | none => false

/-- Vital bank of an output. -/
def bankOf (vo : Nat) : Nat := 4 + vo / 8

/-- The bank status word of a bank, when it decoded at this strobe. -/
def Ev.bankStatus (e : Env) (v : Ev) (bank : Nat) : Option Nat :=
  match e.forme.galleyOf 2 bank with
  | some g =>
    let a := e.forme.addr 0x12 g 1
    if v.core.unavail.contains a then none else (v.word e a).x?
  | none => none

def Ev.blockVo (v : Ev) (vo : Nat) : Ev := { v with core := { v.core with voBlocked := insertOnce v.core.voBlocked vo } }

def Ev.blockBank (v : Ev) (bank : Nat) : Ev :=
  { v with core := { v.core with bankBlocked := insertOnce v.core.bankBlocked bank, bankFaults := insertOnce v.core.bankFaults bank } }

/-- A bank is held provisionally for a channel (step 2 of Table 10-8); one run judges every channel of the bank. -/
def Ev.holdFor (v : Ev) (vo : Nat) : Ev :=
  let bank := bankOf vo
  let holds := if v.core.holds.any (fun h => h.bank == bank) then
      v.core.holds.map (fun h => if h.bank = bank then { h with vos := insertOnce h.vos vo } else h)
    else v.core.holds ++ [{ bank := bank, vos := [vo], strobes := 0 }]
  { v with core := { v.core with holds := holds } }

/-- `ev.ext_energised`: channel and cause 0 pending, 1 external, 2 within the bank. -/
def Ev.extEnergised (v : Ev) (vo cause : Nat) : Ev := v.raise evExtEnergised (leBytes 1 vo ++ leBytes 1 cause)

/-- The judgement of one channel (steps 4a and 4b). -/
def Ev.judgeChannel (v : Ev) (bank vo : Nat) (external : Bool) : Ev :=
  if external then (v.blockVo vo).extEnergised vo 1 else ((v.blockVo vo).blockBank bank).extEnergised vo 2

/-- One hold at one strobe (step 3): judged when the rail reads off, step 4b at the third strobe without that. -/
def Ev.judgeHold (e : Env) (v : Ev) (h : BankHold) : Ev :=
  let rest := v.core.holds.filter (fun q => q.bank != h.bank)
  let ended := { v with core := { v.core with holds := rest } }
  match v.bankStatus e h.bank with
  | some x =>
    if !member x 11 then h.vos.foldl (fun w vo => w.judgeChannel h.bank vo (v.voReads e vo)) ended
    else if 2 ≤ h.strobes then h.vos.foldl (fun w vo => w.judgeChannel h.bank vo false) ended
    else { v with core := { v.core with holds := rest ++ [{ h with strobes := h.strobes + 1 }] } }
  | none =>
    if 2 ≤ h.strobes then h.vos.foldl (fun w vo => w.judgeChannel h.bank vo false) ended
    else { v with core := { v.core with holds := rest ++ [{ h with strobes := h.strobes + 1 }] } }

/-- A commanded-off output that reads on (R205, step 1). Outputs of a held bank are judged by the run that holds it. -/
def Ev.judgeReadback (e : Env) (v : Ev) (vo : Nat) : Ev :=
  if v.voOff e vo ∧ v.voReads e vo ∧ !v.core.voBlocked.contains vo then
    (v.holdFor vo).extEnergised vo 0
  else v

/-- A finding of the dark-test sequencer (Table 3-10): 1 off-pulse missing, 2 cross-connected (`item` = output + 16 x the
other), 3 output switch stuck closed, 4 bank-switch element stuck closed. -/
def Ev.finding (v : Ev) (p : Nat × Nat) : Ev :=
  match p.1 with
  | 1 => (((v.blockVo p.2).holdFor p.2).raise evDarkTestFail (leBytes 1 p.2)).extEnergised p.2 0
  | 2 =>
    let a := p.2 % 16
    let b := p.2 / 16
    let v := ((v.blockVo a).blockVo b).raise evCrossConnect (leBytes 1 a ++ leBytes 1 b)
    ((v.holdFor a).extEnergised a 0).holdFor b |>.extEnergised b 0
  | 3 => (v.blockVo p.2).raise evSwitchFault (leBytes 1 p.2 ++ leBytes 1 1)
  | _ => (v.blockBank p.2).raise evSwitchFault (leBytes 1 (p.2 + 12) ++ leBytes 1 1)

/-- `fld.block_clear` at its scan (R206). -/
def Ev.clearBlock (e : Env) (v : Ev) (slot : Option Nat) (target index : Nat) (judging : List Nat) : Ev :=
  let id := (((e.forme.galleyOf target index).bind (fun g => e.forme.galley[g]?)).map (·.id)).getD 0xFFFF
  let answer (v : Ev) (outcome reason : Nat) : Ev := v.hand (outRec false id slot outcome reason e.now)
  if target = 1 then
    let bad := (v.voOff e index && v.voReads e index) ||
      !((v.bankStatus e (bankOf index)).map (fun x => member x (index % 8))).getD false || judging.contains (bankOf index)
    if !v.core.voBlocked.contains index then answer v 0 0
    else if bad then answer v 0x03 0x16
    else answer { v with core := { v.core with voBlocked := removeAll v.core.voBlocked index } } 0x01 0
  else
    let outs := ((List.range 8).map (fun k => 8 * (index - 4) + k)).filter (fun vo => (e.forme.galleyOf 1 vo).isSome)
    let x := (v.bankStatus e index).getD 0
    let bad := !(member x 8 && member x 9 && member x 10) ||
      outs.any (fun vo => !v.core.voBlocked.contains vo && !member x (vo % 8)) ||
      outs.any (fun vo => v.voOff e vo && v.voReads e vo) || judging.contains index
    if !v.core.bankBlocked.contains index then answer v 0 0
    else if bad then answer v 0x03 0x16
    else answer { v with core := { v.core with bankBlocked := removeAll v.core.bankBlocked index,
                                               bankFaults := removeAll v.core.bankFaults index } } 0x01 0

/-- Events and judgements of a strobe, after the input phase. In the safe state no procedure runs (Table 10-9). -/
def Ev.judgeField (e : Env) (v : Ev) : Ev :=
  let v := e.lineFell.foldl (fun v ch => v.raise evWireBreak (leBytes 1 ch)) v
  let v := e.stuckOpen.foldl (fun v p => v.raise evSwitchFault (leBytes 1 p.1 ++ leBytes 1 2 ++ leBytes 1 p.2)) v
  let held := v.core.holds
  let v := e.reqs.foldl (fun v q => match q.kind with
    | .blockClear t i => v.clearBlock e q.slot t i (held.map (·.bank))
    | _ => v) v
  if e.safe then v
  else
    let v := held.foldl (Ev.judgeHold e) v
    let v := e.findings.foldl Ev.finding v
    let free := (List.range 16).filter (fun vo => !held.any (fun h => h.bank == bankOf vo))
    free.foldl (Ev.judgeReadback e) v

end Sys2Proof.Machine
end

