-- ==== Sys2Proof/Machine/TrainProof.lean ====
section
/-! DEFINITION. The train evaluator of a lane (R274 to R277): the claim, its proof from the other vehicles' status words,
and the words it writes. -/

namespace Sys2Proof.Machine

/-- The 48-bit vehicle identity (R262). -/
def Forme.vehicle (f : Forme) : Nat := f.header.installation % 281474976710656

/-- Kind and highest index of status word w (Table 13-6). -/
def statusKind (w : Nat) : Nat × Nat :=
  match w with
  | 0 => (3, 64)
  | 1 => (3, 2)
  | 4 => (1, 0)
  | _ => (2, 0)

/-- Status word w of the vehicle whose status frame stands in the buffer of vehicle `from_`, decoded as vehicle n's. -/
def Env.statusWord (e : Env) (from_ n w : Nat) : Option Nat :=
  ((entriesOf e.entries (0x7F00 + from_))[0]?).bind (fun entry => (e.buffer entry).bind (fun b =>
    if min e.forme.template.maxAge (2 * e.m) < b.age then none
    else (b.words[w]?).bind (fun word =>
      (decode word (0x7000 + 16 * n + w) (statusKind w).1 0xA e.now (statusKind w).2).x?)))

/-- The `CAB_ACT` inputs of this vehicle. -/
def Ev.cabs (e : Env) (v : Ev) : Bool × Bool := (v.input e e.forme.template.cab1, v.input e e.forme.template.cab2)

/-- This vehicle's own status words under a claim, or all 0 (Table 13-6). -/
def Ev.ownStatus (e : Env) (v : Ev) (claim : Option (Nat × Nat × Nat × Nat)) (passed : Bool) : List Nat :=
  match claim with
  | none => List.replicate 8 0
  | some (n, orient, count, attempt) =>
    let id := e.forme.vehicle
    let c := v.cabs e
    [n, orient, count, attempt, ofMembers [passed, c.1, c.2], id / 4294967296, id / 65536 % 65536, id % 65536]

/-- Words 0 to 4 of vehicle k as this lane sees them; its own come from its claim. -/
def Env.vehicleWords (e : Env) (own : List Nat) (n k : Nat) : List (Option Nat) :=
  if k = n then (own.take 5).map some else (List.range 5).map (fun w => e.statusWord k k w)

/-- The front end of an orientation: end 2 for normal, end 1 for reversed. -/
def frontEnd (orient : Nat) : Nat := if orient = 1 then 2 else 1

/-- Number of the vehicle at a physical end. -/
def Env.neighbour (e : Env) (end_ : Nat) : Option Nat := if end_ = 1 then e.neighbours.1 else e.neighbours.2

/-- The proof of R275, conditions 1 to 4. -/
def Env.trainProof (e : Env) (claim : Option (Nat × Nat × Nat × Nat)) (own : List Nat) : Bool :=
  match claim with
  | none => false
  | some (n, orient, count, attempt) =>
    let all := (List.range count).map (fun i => (i + 1, e.vehicleWords own n (i + 1)))
    let sound := all.all (fun p => match p.2 with
      | [some w0, some _, some w2, some w3, some _] => w0 == p.1 && w2 == count && w3 == attempt
      | _ => false)
    let next (end_ k : Nat) : Bool := match e.neighbour end_ with
      | some q => e.statusWord q k 0 == some k
      | none => false
    let front := frontEnd orient
    let adjacent := (n == 1 || next front (n - 1)) && (n == count || next (3 - front) (n + 1))
    let cabs := all.flatMap (fun p =>
      let w4 := ((p.2[4]?).getD none).getD 0
      (if member w4 1 then [(p.1, 1)] else []) ++ (if member w4 2 then [(p.1, 2)] else []))
    let lead := (((all.head?).bind (fun p => (p.2[1]?).getD none)).getD 0)
    let cabOk := match cabs with
      | [] => true
      | [(k, end_)] => k == 1 && end_ == frontEnd lead
      | _ => false
    decide (1 ≤ n) && decide (n ≤ count) && decide (count ≤ 64) && sound && adjacent && cabOk

/-- The request flag of R275: no pass within 10 cycles of running, or 3 consecutive failures after a pass. -/
def trainRequest (ever : Bool) (fails : Nat) : Bool := decide ((if ever then 3 else 10) ≤ fails)

/-- The train evaluator's scan, before level 0. -/
def Ev.trainScan (e : Env) (v : Ev) : Ev :=
  if e.forme.header.personality ≠ 2 then v
  else
    let m := v.core.train
    let claim := e.claim
    let fresh := claim != m.claim
    let ever := m.everPassed && !fresh
    let fails := if fresh then 0 else m.fails
    let own := v.ownStatus e claim (m.passed && !fresh)
    let passed := e.trainProof claim own
    let fails := if claim.isNone ∨ passed then 0 else sat16 fails 1
    let v := if ever && !passed && m.passed then v.raise evTrainProofFail [] else v
    let mem : TrainMem := { claim := claim, passed := passed, everPassed := ever || passed, fails := fails,
                            request := claim.isSome && trainRequest (ever || passed) fails }
    let v := { v with core := { v.core with train := mem } }
    let own := v.ownStatus e claim passed
    let v := (List.range 8).foldl (fun v w => match e.forme.galleyNet (0x7000 + w) with
      | some g => v.putGalley e g (nthD own w 0)
      | none => v) v
    let n := (claim.map (·.1)).getD 0
    let orient := (claim.map (·.2.1)).getD 0
    let count := (claim.map (·.2.2.1)).getD 0
    let everyone := (List.range count).all (fun i =>
      member ((((e.vehicleWords own n (i + 1))[4]?).getD none).getD 0) 0)
    let front := frontEnd orient
    let at_ (end_ : Nat) : Bool := if end_ = 1 then e.coupled.1 else e.coupled.2
    let t0 := if passed then ofMembers [true, everyone, n == 1, at_ front, at_ (3 - front)] else 0
    let t := if passed then [t0, n, orient, count] else [0, 0, 0, 0]
    (List.range 4).foldl (fun v w => v.put e (e.forme.template.t0 + w) (nthD t w 0)) v

/-- 48-bit identity of a vehicle from its status words 5 to 7. -/
def Env.vehicleId (e : Env) (k : Nat) : Nat :=
  if some k = e.claim.map (·.1) then e.forme.vehicle
  else ((e.statusWord k k 5).getD 0) * 4294967296 + ((e.statusWord k k 6).getD 0) * 65536 + (e.statusWord k k 7).getD 0

/-- Orientation of a vehicle from its status word 1. -/
def Env.vehicleOrient (e : Env) (k : Nat) : Nat :=
  if some k = e.claim.map (·.1) then (e.claim.map (·.2.1)).getD 0 else (e.statusWord k k 1).getD 0

/-- Identities and end byte of the N − 1 ligatures of a proven line (R277, Table 13-8): the rear end of the nearer
vehicle meets the front end of the further one. -/
def Env.ligatures (e : Env) (rings count : Nat) : List Ligature :=
  let n := (e.claim.map (·.2.2.1)).getD 0
  (List.range (n - 1)).map (fun i =>
    { near := e.vehicleId (i + 1), far := e.vehicleId (i + 2),
      orient := (3 - frontEnd (e.vehicleOrient (i + 1))) + 4 * frontEnd (e.vehicleOrient (i + 2)),
      rings := rings, count := count })

end Sys2Proof.Machine
end

