-- ==== Sys2Proof/Machine/Lane.lean ====
section
/-! DEFINITION. The whole evaluation of one cycle in one lane, and the galley it makes (R41, R50, R57, R91, R169). -/

namespace Sys2Proof.Machine

/-- A request whose target the forme does not hold is refused at once with reason 0x01 (R179, R180, Table 6-9). -/
def Ev.unknownTargets (e : Env) (v : Ev) : Ev :=
  e.reqs.foldl (fun v q =>
    let bad (isRoute : Bool) (id : Nat) : Ev :=
      let v := v.hand (outRec isRoute id q.slot 0x03 0x01 e.now)
      if isRoute then v.record (recCount 0x0100 0x01) else v
    match q.kind with
    | .routeSet r | .routeCancel r | .reclear r => if e.forme.routes.length ≤ r then bad true r else v
    | .pointMove id _ => if (e.forme.pointNo id).isNone then bad false id else v
    | .block id => if e.forme.blockable id then v else bad false id
    | _ => v) v

/-- The lane-status word (R50). -/
def Env.laneStatus (e : Env) : Nat := ofMembers [!e.excluded.a, !e.excluded.b, !e.excluded.c, e.quoinSound]

/-- The lanes override a local output's position: a blocked output, a blocked or held bank (R57, R63, R205). -/
def Ev.overridden (v : Ev) (g : GalleyRec) : Bool :=
  (g.target == 1 && v.core.voBlocked.contains g.index) ||
  (g.target == 2 && (v.core.bankBlocked.contains g.index || v.core.holds.any (fun h => h.bank == g.index)))

/-- The item a position carries in this cycle before any force. -/
def Ev.positionItem (e : Env) (v : Ev) (mirror : List Item) (i : Nat) (g : GalleyRec) : Item :=
  match g.target with
  | 0x04 => nthD mirror g.index unusedItem
  | 0x05 => { id := g.id, kind := 1, x := e.laneStatus }
  | _ => { id := g.id, kind := g.kind, x := v.x e (e.forme.addr 0x12 i 0) }

/-- One position: force, block, seal; in the safe state the restrictive command word (R54, R57, R169). -/
def Ev.sealPosition (e : Env) (mirror : List Item) (p : Ev × List (Nat × Word64)) (i : Nat) (g : GalleyRec) :
    Ev × List (Nat × Word64) :=
  let v := p.1
  let it := v.positionItem e mirror i g
  let a := e.forme.addr 0x12 i 0
  let forced := v.forceAt e 0x03 a
  let v := if forced.isSome then { v with core := { v.core with shadow := kvSet v.core.shadow a it.x } } else v
  let x := match forced with
    | some q => q.apply it.x
    | none => it.x
  let x := if v.overridden g then 0 else x
  let w := if e.safe then encodeD 0 it.id (e.now % 256) 4 (laneSet e.lane)
    else encodeD x it.id (e.now % 256) it.kind (laneSet e.lane)
  (v, p.2 ++ [(if e.safe then 0 else x, w)])

/-- The galley of the cycle: x and word of every position. -/
def Ev.sealGalley (e : Env) (v : Ev) : Ev × List (Nat × Word64) :=
  let mirror := match e.mirror with
    | some m => v.mirrorItems e m
    | none => []
  (indexed e.forme.galley).foldl (fun p q => Ev.sealPosition e mirror p q.1 q.2) (v, [])

/-- Everything before the galley: force requests, a standby's adoption, inputs, judgements, handlers, terms. -/
def Ev.evaluate (e : Env) (v : Ev) : Ev :=
  let v := { v with core := { v.core with cycle := e.now } }
  let v := v.forceRequests e
  let v := v.unknownTargets e
  let v := match e.mirror with
    | some m => if m.commanding then v else v.adoptSweep e m
    | none => v
  let v := v.inputPhase e
  let v := v.judgeField e
  let held := v.core.stagings
  let v := v.auxScan e
  let v := v.trainScan e
  (v.program e).auxWindows e held

/-- A lane takes over what an evaluation worked out. -/
def LaneState.take (st : LaneState) (v : Ev) : LaneState :=
  { st with core := v.core, records := st.records ++ v.records, events := st.events ++ v.events,
            recs := st.recs ++ v.recs, demands := st.demands + v.demands, resets := st.resets + v.resets,
            adopted := st.adopted + v.adopted }

/-- The evaluation of a cycle in a lane. -/
def LaneState.evaluate (st : LaneState) (e : Env) : LaneState :=
  let p := ((Ev.start st.core).evaluate e).sealGalley e
  { st.take p.1 with galley := some (p.2.map (·.2)) }

end Sys2Proof.Machine
end

