-- ==== Sys2Proof/Machine/LaneOps.lean ====
section
/-! DEFINITION. The single happenings inside an evaluation that have a row of their own: each acts on one record of a lane
when that record's words and memory say that its limit is reached, and changes nothing otherwise (log 3). -/

namespace Sys2Proof.Machine

/-- Rows freed by an expiry are freed at once. -/
def Ev.applyFrees (e : Env) (v : Ev) : Ev :=
  let v := v.frees.foldl (fun v q => v.freeOwned e q.1 q.2) v
  { v with frees := [] }

/-- A timer reports expired: its three words are sealed again (R99, R417). -/
def Ev.timerExpiry (e : Env) (v : Ev) (i : Nat) : Ev :=
  if v.timerExpired e i then
    ((v.wr e 0x0F i 0 (v.rd e 0x0F i 0)).wr e 0x0F i 1 (v.rd e 0x0F i 1)).wr e 0x0F i 2 (v.rd e 0x0F i 2)
  else v

/-- The approach-lock timer of a cancelling route has expired: every row of the route and its overlap is freed (R120). -/
def Ev.approachExpiry (e : Env) (v : Ev) (r : Nat) : Ev :=
  match e.forme.routes[r]? with
  | none => v
  | some rt =>
    match e.forme.timerNo rt.entry rt.timer with
    | none => v
    | some t =>
      if v.rd e 0x0B r 0 = 5 ∧ v.timerExpired e t then
        let m := v.route r
        let v := if m.auxMark then v.routeEvent e evRouteReleased r m 0x06 else v
        (v.freeRoute e r true).applyFrees e
      else v

/-- An overlap's release timer has expired: its rows are freed (R121). -/
def Ev.overlapExpiry (e : Env) (v : Ev) (o : Nat) : Ev :=
  match e.forme.overlaps[o]? with
  | none => v
  | some rec =>
    match e.forme.timerNo rec.start rec.timer with
    | none => v
    | some t =>
      if v.overlapRuns e o rec && v.timerExpired e t then
        let v := (v.dropOverlap o).freeOwned e (ownerOverlap o) none
        { v with core := { v.core with ovlAux := removeAll v.core.ovlAux o } }
      else v

/-- The setting timeout of a route whose request still holds its slot has run out (R117). -/
def Ev.routeStall (e : Env) (v : Ev) (r : Nat) : Ev :=
  let m := v.route r
  let st := v.rd e 0x0B r 0
  if st ≠ 0 ∧ m.slot.isSome ∧ m.timeout = 0 then
    let v := (v.endRequest e r m 0x04 0).routeEvent e evRouteStalled r m 0x04
    (v.setRoute r { m with slot := none, withdrawn := true, clearReq := false }).setState e r st
  else v

/-- Drive commands of a point off. -/
def Ev.stopDrives (e : Env) (v : Ev) (p : PointRec) : Ev := (v.output e p.driveN 0).output e p.driveR 0

/-- The stroke count has reached its limit while a drive is on and detection has not come (R130). -/
def Ev.strokeExpiry (e : Env) (v : Ev) (i : Nat) : Ev :=
  match e.forme.points[i]? with
  | none => v
  | some p =>
    let m := v.pointMem i
    let b := v.rd e 0x06 i 1
    if m.drive ≠ 0 ∧ member b 3 ∧ v.detection e p ≠ m.drive ∧ e.forme.floorCycles p.stroke ≤ v.rd e 0x06 i 2 then
      let v := v.raise evPointStroke (leBytes 2 p.id)
      let v := match m.slot with
        | some s => v.hand (outRec false p.id (some s) 0x03 0x05 e.now)
        | none => v
      let v := v.setPointMem i { m with drive := 0, goal := 0, slot := none, asked := 0, byRequest := false }
      let v := (v.wr e 0x06 i 0 5).wr e 0x06 i 1 (setMember (setMember b 3 false) 0 false)
      (v.wr e 0x06 i 2 0).stopDrives e p
    else v

/-- Detection is lost with no drive on: the filter has ended, or the other position is detected (R131, R134). -/
def Ev.lossExpiry (e : Env) (v : Ev) (i : Nat) : Ev :=
  match e.forme.points[i]? with
  | none => v
  | some p =>
    let m := v.pointMem i
    let d := v.detection e p
    let sec := match e.forme.sectionNo p.sec with
      | some j => v.rd e 0x08 j 0
      | none => 0
    let out := lossStep (e.forme.floorCycles p.filter) d (p.typ == 3) (sec == 1 || sec == 2) m
    if m.drive = 0 ∧ m.goal = 0 ∧ out.2.2 then
      let violation := (v.machineReadings e p).any (· == 3)
      let b := v.rd e 0x06 i 1
      let v := (v.raise evPointLost (leBytes 2 p.id)).setPointMem i { m with loss := out.1, failed := true }
      (v.wr e 0x06 i 0 5).wr e 0x06 i 1 (setMember (if violation then setMember b 4 false else b) 0 false)
    else v

/-- Aspect 0 has been proved in three consecutive cycles (R138). -/
def Ev.restoreM0 (e : Env) (v : Ev) (i : Nat) : Ev :=
  let m := kvGetD v.core.signals i .empty
  if m.cmd = 0 ∧ 3 ≤ m.stops then v.wr e 0x07 i 2 (setMember (v.rd e 0x07 i 2) 0 true) else v

/-- The sweep count has reached the sweep timeout (R144). -/
def Ev.sweepExpiry (e : Env) (v : Ev) (i : Nat) : Ev :=
  match e.forme.sections[i]? with
  | none => v
  | some s =>
    if v.rd e 0x08 i 0 = 1 ∧ e.forme.floorCycles (s.sweep * 1000) ≤ v.sweepCount e i then
      let v := v.raise evSectionDisturbed (leBytes 2 s.id)
      let v := { v with core := { v.core with swept := removeAll v.core.swept i, sweeps := kvDel v.core.sweeps i } }
      (v.wr e 0x08 i 0 0).wr e 0x08 i 3 0
    else v

/-- The state word, phase and commands of a crossing (Table 7-5). -/
def Ev.putCrossing (e : Env) (v : Ev) (i : Nat) (x : CrossingRec) (state phase : Nat) : Ev :=
  let v := (v.wr e 0x0A i 0 state).wr e 0x0A i 1 phase
  let v := v.output e x.light (b2n (state == 1))
  if refNone x.barrierCmd then v else v.output e x.barrierCmd (b2n (state == 1 || state == 2 || state == 6))

/-- The warning time of a closing crossing is over (R146). -/
def Ev.warningExpiry (e : Env) (v : Ev) (i : Nat) : Ev :=
  match e.forme.crossings[i]? with
  | none => v
  | some x =>
    if v.rd e 0x0A i 0 = 2 ∧ e.forme.ceilCycles x.warning ≤ v.rd e 0x0A i 1 then
      if x.typ ≠ 1 then v.putCrossing e i x 3 0
      else if v.input e x.proving then v.putCrossing e i x 5 0
      else v
    else v

/-- A crossing fails: lights dark for two scans, or barriers not down at the lowering time (R147). -/
def Ev.crossingFails (e : Env) (v : Ev) (i : Nat) : Ev :=
  match e.forme.crossings[i]? with
  | none => v
  | some x =>
    let m := kvGetD v.core.crossings i .empty
    let st := v.rd e 0x0A i 0
    let down := x.typ == 1 || (x.downs.filter (fun r => !refNone r)).all (fun r => v.input e r)
    let late := st == 3 && !down && decide (e.forme.floorCycles x.lowering ≤ v.rd e 0x0A i 1)
    if st ≠ 0 ∧ (late ∨ 2 ≤ m.dark) then
      let cause := if late then 2 else 1
      let v := v.raise evCrossingFail (leBytes 2 x.id ++ leBytes 1 cause)
      let v := { v with core := { v.core with crossings := kvSet v.core.crossings i { cause := cause, dark := 0, lit := 0, again := false, back := false } } }
      v.putCrossing e i x 0 0
    else v

/-- What a scan sees of a crossing, from its record and inputs. -/
def Ev.crossingView (e : Env) (v : Ev) (i : Nat) (x : CrossingRec) : CrossingView :=
  { trigger := (v.rowsOf e x.id).any (fun h => h.kind == 7) ||
      (x.strikes.filter (· != 0xFFFF)).any (fun id => v.sectionState e id != 3),
    islandClear := x.island == 0xFFFF || v.sectionState e x.island == 3, lights := v.input e x.proving,
    down := x.typ == 1 || (x.downs.filter (fun r => !refNone r)).all (fun r => v.input e r), darkFail := false,
    nWarn := e.forme.ceilCycles x.warning, nLower := e.forme.floorCycles x.lowering, nOpen := e.forme.ceilCycles x.lowering,
    back := (kvGetD v.core.crossings i .empty).back }

/-- Lights proved for three consecutive scans end a light-proving failure (R147). -/
def Ev.lightsRestored (e : Env) (v : Ev) (i : Nat) : Ev :=
  match e.forme.crossings[i]? with
  | none => v
  | some x =>
    let m := kvGetD v.core.crossings i .empty
    if v.rd e 0x0A i 0 = 0 ∧ m.cause = 1 ∧ 3 ≤ m.lit then
      let v := { v with core := { v.core with crossings := kvSet v.core.crossings i { cause := 0, dark := 0, lit := m.lit, again := false, back := false } } }
      v.putCrossing e i x (resumeState x.typ (v.crossingView e i x)) 0
    else v

/-- After the lowering cycles in state 6 the lights go dark, that is their command is energised (R148). -/
def Ev.openingExpiry (e : Env) (v : Ev) (i : Nat) : Ev :=
  match e.forme.crossings[i]? with
  | none => v
  | some x =>
    let c := v.crossingView e i x
    if v.rd e 0x0A i 0 = 6 ∧ !c.trigger ∧ c.nOpen ≤ v.rd e 0x0A i 1 then v.putCrossing e i x 1 0 else v

/-- A discrepancy count has reached n_disc: m1 clears (R218). -/
def Ev.discrepancyExpiry (e : Env) (v : Ev) (i : Nat) : Ev :=
  match e.forme.funcs[i]? with
  | none => v
  | some g =>
    let b := FuncBits.ofX (v.rd e 0x13 i 0)
    let m := v.funcMem i
    let n := e.forme.floorCycles g.disc
    let one := decide (n ≤ v.rd e 0x13 i 3)
    let two := g.typ == 0x12 && decide (n ≤ m.disc2)
    if 0x10 ≤ g.typ ∧ b.m1 ∧ (one ∨ two) then
      let v := v.raise evGuardDiscrepancy (leBytes 2 g.id)
      let v := v.setFuncMem i { m with latch1 := m.latch1 || one, latch2 := m.latch2 || two }
      v.wr e 0x13 i 0 { b with m0 := false, m1 := false, m3 := b.m3 && g.resetMode != 2 : FuncBits }.x
    else v

/-- The feedback count has reached n_fb: m2 clears (R220). -/
def Ev.feedbackExpiry (e : Env) (v : Ev) (i : Nat) : Ev :=
  match e.forme.funcs[i]? with
  | none => v
  | some g =>
    let b := FuncBits.ofX (v.rd e 0x13 i 0)
    let fb := if g.typ < 0x10 then (v.funcMem i).fb else v.rd e 0x13 i 4
    if !refNone g.feedback && b.m2 && decide (e.forme.floorCycles g.fbDelay ≤ fb) then
      (v.raise evGuardFeedback (leBytes 2 g.id)).wr e 0x13 i 0 { b with m0 := false, m2 := false : FuncBits }.x
    else v

/-- The standstill count has reached n_still with a full history: m0 becomes 1 (R213, R216). -/
def Ev.stillExpiry (e : Env) (v : Ev) (i : Nat) : Ev :=
  match e.forme.funcs[i]? with
  | none => v
  | some g =>
    let b := FuncBits.ofX (v.rd e 0x13 i 0)
    let ready := refNone g.feedback || v.monitoredOn e g || v.input e g.feedback
    if g.typ = 3 ∧ b.m1 ∧ b.m2 ∧ b.m4 ∧ ready ∧ (v.funcMem i).sound = g.window + 1 ∧ e.forme.ceilCycles g.still ≤ v.rd e 0x13 i 3 then
      v.wr e 0x13 i 0 { b with m0 := true, m3 := true, m9 := true : FuncBits }.x
    else v

/-- The second press has not come within n_sim scans: m0 stays 0 (R221). -/
def Ev.simultaneityExpiry (e : Env) (v : Ev) (i : Nat) : Ev :=
  match e.forme.funcs[i]? with
  | none => v
  | some g =>
    let b := FuncBits.ofX (v.rd e 0x13 i 0)
    let m := v.funcMem i
    if g.typ = 0x12 ∧ m.awaiting ∧ e.forme.floorCycles g.simul ≤ v.rd e 0x13 i 6 then
      (v.setFuncMem i { m with awaiting := false, granted := false }).wr e 0x13 i 0 { b with m0 := false : FuncBits }.x
    else v

/-- The window timer of an open staging has expired (R186). -/
def Ev.windowExpiry (e : Env) (v : Ev) (i : Nat) : Ev :=
  match e.forme.authorities[i]?, kvGet v.core.stagings i with
  | some a, some s =>
    match e.forme.timerNo a.offer a.timer with
    | none => v
    | some t =>
      if v.timerExpired e t then ((v.endStaging e i s 0x0A 0x10).stopWindow e a).offers e [] i a else v
  | _, _ => v

/-- A confirmed staging has had no acknowledgement by the third cycle after its confirmation (R187). -/
def Ev.notCountedOf (e : Env) (v : Ev) (authority : Nat) : Ev :=
  v.core.stagings.foldl (fun v p =>
    match p.2.confirmed with
    | none => v
    | some j =>
      if p.1 % 8 = authority ∧ j + 3 ≤ e.now then
        (v.stagingRecord e authority p.2 0x03 0x15).setStagings (kvDel v.core.stagings p.1)
      else v) v

/-- The train proof has not passed in time: the request flag is set (R275). -/
def Ev.proofRequest (e : Env) (v : Ev) : Ev :=
  let m := v.core.train
  if e.forme.header.personality = 2 ∧ m.claim.isSome ∧ trainRequest m.everPassed m.fails then
    { v with core := { v.core with train := { m with request := true } } }
  else v

/-- The external-energy procedure of one bank begins (R205, Table 10-8): an output of the bank that reads on while commanded off
starts a hold. A hold that stands is judged at the strobes, by the evaluation. -/
def Ev.bankProcedure (e : Env) (v : Ev) (bank : Nat) : Ev :=
  if e.safe ∨ v.core.holds.any (fun h => h.bank == bank) then v
  else ((List.range 16).filter (fun vo => bankOf vo == bank)).foldl (Ev.judgeReadback e) v

end Sys2Proof.Machine
end

