-- ==== Sys2Proof/Machine/Operands.lean ====
section
/-! DEFINITION. The operands of mailbox commands: the payload bytes that an entry carries (Table 15-10), and their fields,
little-endian (R6). -/

namespace Sys2Proof.Machine

/-- The payload: as many bytes as the length field says. -/
def Entry.body (e : Entry) : List Byte := e.payload.take e.length

/-- n payload bytes at an offset, little-endian. -/
def Entry.field (e : Entry) (off n : Nat) : Nat := fieldAt (Entry.body e) off n

/-- The payload holds the n bytes that the command reads. Bytes after them have no effect: R310 judges the length against the entry
alone (log 22). -/
def Entry.size (e : Entry) (n : Nat) : Bool := decide (n ≤ (Entry.body e).length)

/-- The command arrived over UDP. -/
def Entry.udp (e : Entry) : Bool := e.queue == 15

/-- The response queue: the target field, or 16 + command queue where that is illegal (Table 15-10); over UDP Q31. -/
def Entry.target' (e : Entry) : Nat :=
  if Entry.udp e then 31 else if 16 ≤ e.target ∧ e.target ≤ 30 then e.target else 16 + e.queue

/-- The CRC-32C after the payload matches (R309). -/
def Entry.crcOk (e : Entry) : Bool := crc32c (Entry.body e) == e.crc.toNat

/-- A 57-byte public key at an offset, as a number whose least significant byte is the first. -/
def Entry.key (e : Entry) (off : Nat) : KeyBits := BitVec.ofNat 456 (fieldAt (Entry.body e) off 57)

/-- A 64-byte digest at an offset; its first byte is the most significant (Crc.lean). -/
def digestAt (l : List Byte) (off : Nat) : Digest := BitVec.ofNat 512 (beNat ((l.drop off).take 64))

/-- A digest as its 64 bytes. -/
def digestBytes (d : Digest) : List Byte := beBytes 64 d.toNat

end Sys2Proof.Machine
end

