-- ==== Sys2Proof/Machine/Post.lean ====
section
/-! DEFINITION. What the steward writes: entries in module-producer queues with their MSI-X messages (R308, R323), events
(R322), recorder batches (R384), responses and the checks of the mailbox engine (R310 to R312), and datagrams (R319). -/

namespace Sys2Proof.Machine

/-! ### Recorder batches -/

/-- A happening becomes a batch of its own, which RECORDER_BATCH applies (R384). -/
def State.recordBatch (s : State) (l : List RecUpd) : State :=
  if l.isEmpty then s else { s with recorder := { s.recorder with pending := s.recorder.pending ++ [l] } }

/-- The next free value of the model. -/
def State.fresh (s : State) : State := { s with free := { next := s.free.next + 1 } }

/-! ### Queue entries -/

/-- An MSI-X message: sent, or pending while its vector is masked (R323). -/
def HostLink.message (h : HostLink) (vec : Nat) : HostLink :=
  if h.masked.contains vec then { h with pba := insertOnce h.pba vec }
  else { h with messages := vec :: h.messages }

/-- Write one entry into a module-producer queue and advance its index. -/
def State.enqueue (s : State) (n : Nat) (e : OutEntry) : State :=
  let q := s.host.queue n
  let s := s.updQueue n (fun q => { q with prod := (q.prod + 1) % 65536, held := q.held ++ [e] })
  if q.irqEn then { s with host := s.host.message q.vector } else s

/-! ### The maintenance port -/

/-- A datagram leaves J1. -/
def State.sendDatagram (s : State) (addr port : Nat) (e : OutEntry) : State :=
  { s with host := { s.host with portOut := .datagram addr port e :: s.host.portOut } }

/-- Keep a response for re-sending: the last 16 of its session (R320). -/
def keepSent (l : List UdpSent) (x : UdpSent) : List UdpSent :=
  let mine := l.filter (fun y => y.session == x.session)
  let rest := if 16 ≤ mine.length then
      (match l.findIdx? (fun y => y.session == x.session) with
        | some i => l.take i ++ l.drop (i + 1)
        | none => l)
    else l
  rest ++ [x]

/-! ### Events -/

/-- Where an event goes: queue number, when its route is enabled (Table 15-5). -/
def HostLink.eventRoute (h : HostLink) (num : Nat) : Option Nat :=
  let byte := bits32 (nthD h.evtRoute (num / 4) 0) (num % 4 * 8) 8
  if byte.testBit 4 then some (32 + byte % 16) else none

/-- An entry an event queue could not take (R322). -/
def State.dropEvent (s : State) (n : Nat) : State :=
  s.updQueue n (fun q => { q with overflow := sat16 q.overflow 1, dropped := true })

/-- The entry of an event in queue n. -/
def State.eventEntry (s : State) (n num : Nat) (payload : List Byte) : OutEntry :=
  let q := s.host.queue n
  { op := 0xFF00 + num, tag := q.seq % 65536, flags := if q.dropped then 1 else 0, origin := n, session := 0,
    status := .done, detail := 0, cycle := s.net.count, payload := payload, crc := BitVec.ofNat 32 (crc32c payload) }

/-- One raise the steward writes: the occurrence count advances, and an entry goes to the routed queue. Over UDP it goes
to the most recently opened UDP session that is still open (R319). -/
def State.raiseNow (s : State) (num : Nat) (payload : List Byte) : State :=
  let count := sat32 (kvGetD s.host.evtCount num 0) 1
  let s := { s with host := { s.host with evtCount := kvSet s.host.evtCount num count } }
  match s.host.eventRoute num with
  | none => s
  | some n =>
    let q := s.host.queue n
    let e := s.eventEntry n num (leBytes 4 count ++ payload)
    let next (q : Queue) : Queue := { q with seq := (q.seq + 1) % 65536, dropped := false }
    if n = 47 then
      match (s.host.openSessions true).getLast? with
      | none => s.dropEvent 47
      | some x => (s.sendDatagram x.srcAddr x.srcPort e).updQueue 47 next
    else if !q.enabled then s
    else if !s.host.moves n ∨ q.free = 0 then s.dropEvent n
    else (s.enqueue n e).updQueue n next

/-- Raise an event source: at once, or held back while Gweten is down (R11). The recorder counts the occurrence
(item 0x0F00). -/
def State.post (s : State) (r : Raise) : State :=
  if s.host.stewardUp then s.raiseNow r.num r.payload
  else { s with host := { s.host with heldEvents := s.host.heldEvents ++ [r] } }

/-- How many occurrences of a source the recorder counts with its next event: that one, and those whose own event was lost, by which the
occurrence count has advanced as well (R382, R403). -/
def Recorder.advance (r : Recorder) (num : Nat) : Nat := 1 + kvGetD r.uncounted num 0

/-- The recorder has counted every occurrence of a source. -/
def Recorder.caughtUp (r : Recorder) (num : Nat) : Recorder := { r with uncounted := kvDel r.uncounted num }

/-- The recorder batch of an event: its occurrences, and the items that keep the happening. -/
def State.recordRaise (s : State) (num : Nat) (recs : List RecUpd) : State :=
  ({ s with recorder := s.recorder.caughtUp num } : State).recordBatch
    ({ recCount 0x0F00 num with times := s.recorder.advance num } :: recs)

/-- A raise on the steward side, with its recorder batch. -/
def State.raise (s : State) (num : Nat) (payload : List Byte) : State :=
  (s.post { num := num, payload := payload }).recordRaise num []

/-- A raise whose happening the recorder keeps in further items of the same batch. -/
def State.raiseWith (s : State) (num : Nat) (payload : List Byte) (recs : List RecUpd) : State :=
  (s.post { num := num, payload := payload }).recordRaise num recs

/-! ### Responses -/

/-- The response queue number that stands for discarded responses (R300). -/
def discardQueue : Nat := 64

/-- What a command needs to be answered. -/
def outstandingOf (op : Nat) (e : Entry) (slot : Option Nat) : Outstanding :=
  { op := op, queue := e.queue, tag := e.tag, flags := e.flags, target := Entry.target' e, session := e.session,
    srcAddr := e.srcAddr, srcPort := e.srcPort, slot := slot }

/-- Write a response (R309, R311): no entry for `DONE` with flag bit 0; a discarded one is counted (R300). -/
def State.answer (s : State) (o : Outstanding) (status : Status) (detail : Nat) (payload : List Byte) : State :=
  let s := if status = .framing then { s with host := { s.host with framing := sat32 s.host.framing 1 } } else s
  let e : OutEntry :=
    { op := o.op, tag := o.tag, flags := 0, origin := o.queue, session := o.session, status := status, detail := detail,
      cycle := s.net.count, payload := payload, crc := BitVec.ofNat 32 (crc32c payload) }
  if o.queue = discardQueue then { s with host := { s.host with discards := sat32 s.host.discards 1 } }
  else if status = .done ∧ o.flags % 2 = 1 then s
  else if o.queue = 15 then
    let s := s.sendDatagram o.srcAddr o.srcPort e
    { s with host := { s.host with udpSent := keepSent s.host.udpSent { session := o.session, tag := o.tag, entry := e } } }
  else if s.host.moves o.target ∧ 0 < (s.host.queue o.target).free then s.enqueue o.target e
  else { s with host := { s.host with discards := sat32 s.host.discards 1 } }

/-- Answer a command whose response was still due. -/
def State.answerOut (s : State) (o : Outstanding) (status : Status) (detail : Nat) (payload : List Byte) : State :=
  ({ s with host := { s.host with outstanding := s.host.outstanding.filter (· != o) } }).answer o status detail payload

/-- The command that holds a request slot. -/
def State.waiting (s : State) (slot : Nat) : Option Outstanding := s.host.outstanding.find? (fun o => o.slot == some slot)

/-! ### The mailbox engine -/

/-- What the engine finds for an entry at the head of its queue (R310, R312). -/
inductive Admit where
  /-- nothing to fetch: queue stopped or empty, or Gweten down -/
  | none
  /-- no free response entry -/
  | stall
  /-- a check fails with a status and a detail -/
  | reject (st : Status) (detail : Nat)
  /-- the 256 limit -/
  | busy
  | accept
  deriving DecidableEq, Repr

/-- Entries of a response queue that no outstanding command has reserved (R312). -/
def HostLink.unreserved (h : HostLink) (n : Nat) : Nat :=
  (h.queue n).free - (h.outstanding.filter (fun o => o.target == n && decide (o.queue < 15))).length

/-- The session an entry names is open on its transport (R310, R318). -/
def HostLink.sessionOk (h : HostLink) (e : Entry) : Bool :=
  h.sessions.any (fun x => x.opened && x.num == e.session && x.udp == Entry.udp e &&
    (!Entry.udp e || (x.srcAddr == e.srcAddr && x.srcPort == e.srcPort)))

/-- An entry can be fetched: for Q15 it waits there; for the others the queue moves and holds an entry. -/
def State.fetchable (s : State) (op : Nat) (e : Entry) : Bool :=
  s.power.running && s.host.stewardUp &&
  (if Entry.udp e then (s.host.udpQueue.head?) == some (op, e)
   else decide (e.queue < 15) && s.host.moves e.queue && (s.host.queue e.queue).used != 0)

/-- The checks of R310 in their order; `needs` says that the command needs a session over PCIe, `over` that it needs one
over UDP (R314). -/
def State.vet (s : State) (op : Nat) (needs needsUdp : Bool) (e : Entry) : Admit :=
  if !s.fetchable op e then .none
  else if !Entry.udp e ∧ (!s.host.moves (Entry.target' e) ∨ s.host.unreserved (Entry.target' e) = 0) then .stall
  else if 4080 < e.length then .reject .framing 1
  else if !Entry.udp e ∧ (s.host.queue e.queue).entryBytes < e.length + 20 then .reject .framing 2
  else if !Entry.crcOk e then .reject .framing 3
  else if e.session ≠ 0 ∧ !s.host.sessionOk e then .reject .auth 0
  else if e.session = 0 ∧ (if Entry.udp e then needsUdp else needs) then .reject .auth 0
  else if 256 ≤ s.host.outstanding.length then .busy
  else .accept

/-- The entry leaves its queue: copied into steward SRAM, and the consumer index advances (R308). -/
def State.dequeue (s : State) (e : Entry) : State :=
  if Entry.udp e then { s with host := { s.host with udpQueue := s.host.udpQueue.drop 1 } }
  else s.updQueue e.queue (fun q => { q with cons := (q.cons + 1) % 65536, stalled := false })

/-- A queue is held: its event is raised once per stall (R312, R337). -/
def State.stallQueue (s : State) (n : Nat) : State :=
  if (s.host.queue n).stalled then s
  else (s.updQueue n (fun q => { q with stalled := true })).raise evQueueStall (leBytes 1 n)

/-- A command queue waits for a response entry (R312). -/
def State.stall (s : State) (e : Entry) : State := s.stallQueue e.queue

/-- The common course of every mailbox command: fetch, check, and run the command's effect, which answers. -/
def State.command (s : State) (op : Nat) (needs needsUdp : Bool) (e : Entry) (run : Outstanding → State → State) : State :=
  let o := outstandingOf op e none
  match s.vet op needs needsUdp e with
  | .none => s
  | .stall => s.stall e
  | .reject st d =>
    let s := (s.dequeue e).answer o st d []
    if st = .framing then s.recordBatch [recCount 0x0700 d] else s
  | .busy =>
    let s := s.dequeue e
    let s := { s with host := { s.host with busyTotal := sat32 s.host.busyTotal 1 } }
    (s.answer o .busy 0 []).recordBatch [recCount 0x0108 1]
  | .accept => run o (s.dequeue e)

/-- Keep a command outstanding until its request slot answers. -/
def State.keep (s : State) (o : Outstanding) : State :=
  { s with host := { s.host with outstanding := s.host.outstanding ++ [o] } }

/-- A payload whose length is not the command's: `FRAMING` with detail 0x05, as R316 has it for the parameter commands; no
other chapter names a status (DESIGN CHOICE, log 22). -/
def State.badPayload (s : State) (o : Outstanding) : State := (s.answer o .framing 5 []).recordBatch [recCount 0x0700 5]

end Sys2Proof.Machine
end

