-- ==== Sys2Proof/Machine/EnvBuild.lean ====
section
/-! DEFINITION. What each lane reads when it evaluates (its environment), built from the state of the whole module, and
the running of one operation in every lane in service. -/

namespace Sys2Proof.Machine

/-- The lane counts in the vote: in service, held in reset or not (Table 3-4, R9). -/
def State.serving (s : State) (l : LaneId) : Bool :=
  match s.platen.lanes.get l with
  | .inService _ => true
  | _ => false

/-- An end of the module is coupled: one of its two ports is up (R261). -/
def State.coupledEnd (s : State) (end_ : Nat) : Bool :=
  let up (p : PortId) : Bool := (s.net.ports.get p).mode == .up
  if end_ = 1 then up .xe || up .ye else up .xw || up .yw

/-- Own node identity: from the forme and GA0, or from the number given at inauguration (R262, R280). -/
def State.ownNode (s : State) (f : Forme) : Nat :=
  if f.header.personality = 2 then 0x7F00 + s.train.number
  else if f.header.duplex = 1 then f.header.node + s.power.ga % 2
  else f.header.node

/-- Node identity of the duplex partner (R280). -/
def State.partnerNode (s : State) (f : Forme) : Nat := f.header.node + (1 - s.power.ga % 2)

/-- Exchange state code of `ILK.XCHG_STATE` (Table 8-3). -/
def XchgState.code : XchgState → Nat
  | .idle => 0
  | .loading => 1
  | .prepared => 2
  | .committing => 3

/-- Digest of the prepared forme in a lane: that of the slot that does not run. -/
def LaneState.preparedDigest (st : LaneState) : Digest :=
  match st.running with
  | some n => (st.slot (1 - n)).digest
  | none => 0

/-- The partner's mirror words of the snapshot, entry by entry (R289, R290). -/
def State.partnerMirror (s : State) (f : Forme) : List (Option (List Word64)) :=
  ((f.mirrorOf (s.partnerNode f)).take f.mirrorEntries).map (fun i =>
    (s.net.snapshot.find? (fun b => b.entry == i && b.age != 255)).map (·.words))

/-- What the duplex mirror needs beside lane state; none without duplex. -/
def State.mirrorEnv (s : State) (st : LaneState) (f : Forme) : Option MirrorEnv :=
  if f.header.duplex = 1 then
    some { member := s.power.ga % 2, commanding := s.duplex.commanding,
           digest := (st.running.map (fun n => (st.slot n).digest)).getD 0,
           prepared := if s.xchg.state = .idle then 0 else st.preparedDigest, xchgState := s.xchg.state.code,
           xchgTarget := s.xchg.target, overrunRun := s.platen.overrunRun, reqs := s.req.mirrored,
           sweepAt := s.duplex.sweepAt, partner := s.partnerMirror f }
  else none

/-- The claim handed to the lanes: the proposal of a line whose network runs (R274). -/
def State.claim (s : State) : Option (Nat × Nat × Nat × Nat) :=
  if s.net.mode = .running ∧ 1 ≤ s.train.number then
    some (s.train.number, s.train.orient, s.train.count, s.train.attempt)
  else none

/-- Numbers of the vehicles at the physical ends 1 and 2 of the claim's line (R262). -/
def claimNeighbours (c : Option (Nat × Nat × Nat × Nat)) : Option Nat × Option Nat :=
  match c with
  | none => (none, none)
  | some (n, orient, count, _) =>
    let front := if 1 < n then some (n - 1) else none
    let rear := if n < count then some (n + 1) else none
    if frontEnd orient = 1 then (front, rear) else (rear, front)

/-- The environment of a lane in the present cycle. -/
def State.envOf (s : State) (l : LaneId) (f : Forme) : Env :=
  let st := s.lanes.get l
  let claim := if f.header.personality = 2 then s.claim else none
  { forme := f, lane := l, now := s.net.count, extra := b2n s.platen.stretched + b2n s.platen.lengthened,
    reqs := s.req.frozen, badRows := st.badRows, excluded := s.platen.lanes.map (fun m => m == .excluded),
    quoinSound := st.quoinSound, restarted := [], snapshot := s.net.snapshot,
    entries := (s.net.imp.map (·.entries)).getD f.imp.entries, sealed := s.field.sealed, link := s.field.link,
    findings := [], stuckOpen := [], lineFell := [], ubanks := s.field.ubankBlocked, safe := s.platen.safe, lost := st.lostWords, m := f.header.m,
    mirror := s.mirrorEnv st f, claim := claim, neighbours := claimNeighbours claim,
    coupled := (s.coupledEnd 1, s.coupledEnd 2) }

/-- One operation on one lane's evaluation. -/
def State.inLane (s : State) (l : LaneId) (op : Env → Ev → Ev) : State :=
  match (s.lanes.get l).forme with
  | none => s
  | some f => s.updLane l (fun st => st.take (op (s.envOf l f) (Ev.start st.core)))

/-- The same operation in every lane in service (R10): each on its own state. -/
def State.inLanes (s : State) (op : Env → Ev → Ev) : State :=
  s.mapLanes (fun l st =>
    if s.laneIn l then
      match st.forme with
      | none => st
      | some f => st.take (op (s.envOf l f) (Ev.start st.core))
    else st)

/-- The cycle's reference lane: the first in service. -/
def State.refLane (s : State) : Option LaneId := s.lanesIn.head?

end Sys2Proof.Machine
end

