-- ==== Sys2Proof/Machine/Field.lean ====
section
/-! DEFINITION. The field side: the words it seals at a strobe (R12, R191 to R197), counting and frequency (R196, R197),
the output checker's permits (R59), universal outputs (R192), dark tests (R60 to R62), overloads (R198, R199) and the field
supply (R202, R203). -/

namespace Sys2Proof.Machine

/-! ### Values the field side seals -/

/-- Supply of a bank is in range, and the bank is not blocked by its proof. -/
def Field.inRange (d : Field) (bank : Nat) : Bool := !d.outOfRange.contains bank && !d.ubankBlocked.contains bank

/-- Health of the counting pair of an even channel (Table 10-3): m0 = m1 and m2 and m3. Counters that disagree clear m2 (R12). -/
def Field.health (d : Field) (even : Nat) : Nat :=
  let m1 := !d.rateBad.contains even
  let m2 := !d.seqBad.contains even && kvGetD d.counts even 0 == kvGetD d.counts2 even 0
  let m3 := d.inRange (channelBank even)
  ofMembers [m1 && m2 && m3, m1, m2, m3]

/-- Frequency in units of 0.25 Hz: the reciprocal of the mean of the periods that completed in the 100 ms before the strobe (R197). The
quotient is rounded down (log 24). -/
def meanFrequency (l : List (Int × Nat)) : Nat :=
  let l := l.filter (fun p => decide (p.1 ≤ 100000000))
  let sum := (l.map (·.2)).foldl (· + ·) 0
  if sum = 0 then 0 else min 65535 (4000000 * l.length / sum)

/-- Both counters of a frequency channel give the same (R12). -/
def Field.freqAgree (d : Field) (ch : Nat) : Bool := meanFrequency (kvGetD d.periods ch []) == meanFrequency (kvGetD d.periods2 ch [])

/-- Status of a frequency channel: m0 measurement sound. -/
def Field.freqStatus (d : Field) (ch : Nat) : Nat := b2n (!d.freqBad.contains ch && d.inRange (channelBank ch) && d.freqAgree ch)

/-- The counts and frequencies in which both counters agree become those that are sealed; the others keep the last agreed one (R12). -/
def Field.settleCounters (d : Field) : Field :=
  { d with agreed := d.counts.foldl (fun l p => if kvGetD d.counts2 p.1 0 = p.2 then kvSet l p.1 p.2 else l) d.agreed,
           agreedHz := d.periods.foldl (fun l p => if d.freqAgree p.1 then kvSet l p.1 (meanFrequency p.2) else l) d.agreedHz }

/-- Member k of a bank status: the output passed its last test or sampling and its six switches are sound. -/
def Field.voSound (d : Field) (vo : Nat) : Bool := !d.voBad.contains vo && !d.stuckOpen.any (fun p => p.1 == vo)

/-- Bank status word (Table 10-3). -/
def Field.bankStatus (d : Field) (bank : Nat) (rail : Bool) : Nat :=
  ofMembers ((List.range 8).map (fun k => d.voSound (8 * (bank - 4) + k)) ++
    (List.range 3).map (fun p => !d.pathBad.contains (3 * bank + p)) ++
    [rail, d.inRange bank, !d.overload.contains bank])

/-- Input group word: the members its channel records assign (R191, R195). Inputs of a bank without supply read off (R202). -/
def Forme.groupWord (f : Forme) (d : Field) (x : Sample) (g : Nat) : Nat :=
  (f.channels.filter (fun r => r.group == g && r.isInput)).foldl (fun w r =>
    let on := if 32 ≤ r.channel then x.voOn.contains (r.channel - 32) else d.inputsOn.contains r.channel && d.inRange (channelBank r.channel)
    let w := setMember w r.member on
    if r.func = 5 ∧ r.channel < 32 then setMember w (r.member + 1) (!d.lineBad.contains r.channel) else w) 0

/-- x of the word that the field side seals for an address. -/
def Forme.fieldX (f : Forme) (d : Field) (x : Sample) (a : Nat) : Nat :=
  match f.locate a with
  | some (0x03, i, w) =>
    match f.channels[i]? with
    | none => 0
    | some r =>
      if r.func = 3 then
        let even := r.channel - r.channel % 2
        if w = 0 then kvGetD d.agreed even 0 % 65536 else d.health even
      else if r.func = 4 then (if w = 0 then kvGetD d.agreedHz r.channel 0 else d.freqStatus r.channel)
      else f.groupWord d x r.group
  | some (0x12, i, _) =>
    match f.galley[i]? with
    | none => 0
    | some g => if g.target = 1 then min 65535 (kvGetD x.voMa g.index 0) else d.bankStatus g.index (x.railOn.contains g.index)
  | _ => 0

/-- The words sealed at the strobe: code set 0xA, the new tag (R12, R30). -/
def Forme.sealInputs (f : Forme) (d : Field) (x : Sample) (now : Nat) : List (Nat × Word64) :=
  f.localInputs.foldl (fun l a =>
    let c := f.decl a
    kvSet l a (encodeD (f.fieldX d x a) c.id (now % 256) c.kind 0xA)) []

/-- Function 0x05 channels whose line sound reads 0 now and did not in the word sealed before (R195). -/
def Forme.lineFell (f : Forme) (d : Field) : List Nat :=
  ((f.channels.filter (fun r => r.func == 5 && d.lineBad.contains r.channel)).filter (fun r =>
    match (f.chanGroup r.group).bind (fun i => kvGet d.sealed (f.addr 0x03 i 0)) with
    | none => true
    | some w => member ((decodeSelf w 0xA).getD 0) (r.member + 1))).map (·.channel)

/-- The lane drives an item: its gate drive is alive and it holds the permit (R56, R57). -/
def State.drives (s : State) (l : LaneId) (item : Nat) : Bool :=
  (s.lanes.get l).gate && s.field.permits.any (fun p => p.lane == l && p.item == item)

/-- Switch n of an output or bank is commanded closed. Switches 0 and 1 are lane A's, 2 and 3 lane B's, 4 and 5 lane C's. -/
def State.switchClosed (s : State) (item n : Nat) : Bool := s.drives (LaneId.ofNum (n / 2)) item

/-- Switch n of an item conducts: closed by its lane, or stuck closed, and not stuck open (Table 3-7, Table 3-10). -/
def State.switchConducts (s : State) (item n : Nat) : Bool :=
  s.field.stuckClosed.contains (item, n) || (s.switchClosed item n && !s.field.stuckOpen.contains (item, n))

/-- The two switches of a path: ab, bc, ca (R57, Table 3-7). -/
def pathSwitches : Nat → List Nat
  | 0 => [0, 2]
  | 1 => [3, 4]
  | _ => [5, 1]

/-- A path of the item's bridge conducts (Table 3-7). -/
def State.itemOn (s : State) (item : Nat) : Bool := (List.range 3).any (fun p => (pathSwitches p).all (s.switchConducts item))

/-- A vital output carries energy: its own bridge and its bank switch conduct (R57). -/
def State.voEnergised (s : State) (vo : Nat) : Bool := s.itemOn vo && s.itemOn (16 + vo / 8)

/-- Filter time of a universal input, µs. -/
def Forme.filterUs (f : Forme) (ch : Nat) : Nat :=
  1000 * ((f.channels.find? (fun r => r.channel == ch && r.isInput)).map (·.filter)).getD 0

/-- The channel filter over one level that stood for so long: the filtered level, and how long another has stood (R193). -/
def filterStep (filterUs : Nat) (p : Bool × Nat) (q : Bool × Nat) : Bool × Nat :=
  if q.1 = p.1 then (p.1, 0) else if filterUs ≤ p.2 + q.2 then (q.1, 0) else (p.1, p.2 + q.2)

/-- The levels of a channel since the strobe before: as listed, or the one level that stood all the while. -/
def Field.levelsOf (d : Field) (x : Sample) (cycleUs ch : Nat) : List (Bool × Nat) :=
  match x.levels.find? (fun p => p.1 == ch) with
  | some p => p.2
  | none => [(x.inputsOn.contains ch, if x.inputsOn.contains ch = d.rawOn.contains ch then cycleUs else 0)]

/-- What the filter of a channel holds after this strobe. -/
def Field.filtered (d : Field) (f : Forme) (x : Sample) (cycleUs ch : Nat) : Bool × Nat :=
  (d.levelsOf x cycleUs ch).foldl (filterStep (f.filterUs ch)) (d.inputsOn.contains ch, kvGetD d.pendingUs ch 0)

/-- The inputs through their filters (R193). -/
def Field.filterInputs (d : Field) (f : Forme) (x : Sample) (cycleUs : Nat) : Field :=
  { d with inputsOn := (List.range 32).filter (fun ch => (d.filtered f x cycleUs ch).1),
           pendingUs := (List.range 32).filterMap (fun ch =>
             let n := (d.filtered f x cycleUs ch).2
             if n = 0 then none else some (ch, n)),
           rawOn := x.inputsOn }

/-- Periods grow older by the length of a cycle; those that no window can hold any more are dropped (R197). -/
def agePeriods (ns : Nat) (l : List (Nat × List (Int × Nat))) : List (Nat × List (Int × Nat)) :=
  l.map (fun p => (p.1, (p.2.map (fun q => (q.1 + (ns : Int), q.2))).filter (fun q => decide (q.1 ≤ 200000000))))

/-- What a strobe changes in the field side before it seals: the sampled values through their filters, the line currents that recovered
(R195), the switches newly found open, and those found closed again (Table 3-10), and the counts in which both counters agree (R12).
`ns` is the length of the cycle that has ended. -/
def State.sampleField (s : State) (f : Forme) (x : Sample) (ns : Nat) : State :=
  let d := s.field.filterInputs f x (ns / 1000)
  let d := ({ d with periods := agePeriods ns d.periods, periods2 := agePeriods ns d.periods2 } : Field).settleCounters
  let low (ch : Nat) : Bool := !d.inputsOn.contains ch && decide (kvGetD x.lineUa ch 0 < 120)
  let found := x.stuckOpen.filter (fun p => s.switchClosed p.1 p.2 && !d.stuckOpen.contains p)
  { s with field := { d with
      supplyMv := x.supplyMv.foldl (fun l p => setNth l p.1 p.2) d.supplyMv, temp := x.fieldTemp.getD d.temp,
      voOn := x.voOn, voMa := x.voMa, railOn := x.railOn, lineUa := x.lineUa,
      lineBad := d.lineBad.filter low, stuckOpen := d.stuckOpen.filter (fun p => x.stuckOpen.contains p || !s.switchClosed p.1 p.2) ++ found, sealTag := s.net.count % 256 } }

/-- After sealing, interval flags start afresh (R196, R197). -/
def Field.nextInterval (d : Field) : Field :=
  { d with rateBad := [], seqBad := [], freqBad := [], findings := [] }

/-! ### Permits -/

/-- The item a galley position drives: 0 to 15 outputs, 16 and 17 bank switches. -/
def GalleyRec.item (g : GalleyRec) : Option Nat :=
  match g.target with
  | 0x1 => some g.index
  | 0x2 => some (12 + g.index)
  | _ => none

/-- Bank of an item. -/
def itemBank (item : Nat) : Nat := if item < 16 then bankOf item else item - 12

/-- Lane l's permit for an item ends because its word commands the item open; after an overload this is the off command of R199. -/
def Field.openFor (d : Field) (l : LaneId) (item : Nat) : Field :=
  { d with permits := d.permits.filter (fun p => !(p.lane == l && p.item == item)),
           needOff := d.needOff.map (fun q => if q.1 = l ∧ q.2 = item then (l, item + 32) else q) }

/-- A word that commands on refreshes the permit or grants it (R59, R199, R202). -/
def Field.refreshFor (d : Field) (l : LaneId) (item tag : Nat) : Field :=
  let others := d.permits.filter (fun p => !(p.lane == l && p.item == item))
  if (item < 16 ∧ !d.inRange (itemBank item)) ∨ d.needOff.contains (l, item) then d
  else match d.permits.find? (fun p => p.lane == l && p.item == item) with
    | some p => if tag = (p.tag + 1) % 256 then { d with permits := others ++ [{ p with tag := tag }] } else d
    | none =>
      if tag = d.sealTag then
        { d with permits := others ++ [{ lane := l, item := item, tag := tag }],
                 needOff := d.needOff.filter (fun q => !(q.1 == l && q.2 == item + 32)) }
      else d

/-- One word at lane l's output checker: only a valid 0x0001 commands on, and an invalid word commands the item open (R27, R56, R59,
R420). -/
def Field.check (d : Field) (f : Forme) (now : Nat) (l : LaneId) (i : Nat) (g : GalleyRec) (w : Word64) : Field :=
  match GalleyRec.item g with
  | none => d
  | some item =>
    match f.judged (f.addr 0x12 i 0) 4 (decode w g.id 4 0xA now 0xFFFF) with
    | .valid x => if x = 1 then d.refreshFor l item (wordTag w) else d.openFor l item
    | _ => d.openFor l item

/-- All words of one lane's copy at its checker; a lane latched out is ignored (R51). -/
def Field.checkAll (d : Field) (f : Forme) (now : Nat) (l : LaneId) (ws : List Word64) : Field :=
  if d.latchedOut.get l then d
  else (indexed (f.galley.zip ws)).foldl (fun d q => d.check f now l q.1 q.2.1 q.2.2) d

/-- Outputs for which two lanes hold permits again are latched no longer, and banks none of whose outputs is latched have recovered
(R199). -/
def Field.settleOverload (d : Field) : Field :=
  let l := d.voLatched.filter (fun vo => decide ((d.permits.filter (fun p => p.item == vo)).length < 2))
  { d with voLatched := l, overload := d.overload.filter (fun b => l.any (fun vo => bankOf vo == b)) }

/-! ### Universal outputs (R192) -/

/-- A record of a universal output. -/
def ChannelRec.isUniversalOut (r : ChannelRec) : Bool := r.dir == 2 && decide (r.channel < 32)

/-- The words that a platen copy makes in code set 0xA of its own lane's universal-output groups: address and word (R33, R192). -/
def Forme.universalWords (f : Forme) (l : LaneId) (now : Nat) (store : List (Nat × Word64)) : List (Nat × Word64) :=
  (((f.channels.filter (·.isUniversalOut)).map (·.group)).eraseDups.filterMap f.chanGroup).map (fun i =>
    let a := f.addr 0x03 i 0
    (a, encodeD (readX f l now store a) (f.decl a).id (now % 256) 1 0xA))

/-- The channels that such words command on, as the field side decodes them (R26, R192). -/
def Forme.universalCommands (f : Forme) (now : Nat) (ws : List (Nat × Word64)) : List Nat :=
  (f.channels.filter (fun r => r.isUniversalOut &&
    (match (f.chanGroup r.group).map (fun i => f.addr 0x03 i 0) with
      | some a => member (decode (storeGet ws a) (f.decl a).id 1 0xA now 0).x r.member
      | none => false))).map (·.channel)

/-- Universal output channels that a lane's own group words command on. -/
def State.universalOf (s : State) (l : LaneId) (f : Forme) : List Nat :=
  f.universalCommands s.net.count (f.universalWords l s.net.count (s.lanes.get l).core.store)

/-- The outputs two lanes command on, unless their bank or thermal state keeps them off (R192, R198, R202). -/
def Field.universalOn (d : Field) : List Nat :=
  (List.range 32).filter (fun ch =>
    decide (2 ≤ (LaneId.all.filter (fun l => ((d.uoCmd.get l).map (· % 32)).contains ch)).length) && !d.safeN &&
    !d.uoThermal.contains ch && !d.ubankOff.contains (channelBank ch) && d.inRange (channelBank ch))

def Field.driveUniversal (d : Field) : Field := { d with uoOn := d.universalOn }

/-- The lanes that sent words at this vote refresh theirs; words of another lane stay for half a cycle more, that is up
to the next vote (R192). -/
def Field.universalWords (d : Field) (sent : LaneId → Option (List Nat)) : Field :=
  { d with uoCmd := d.uoCmd.mapL (fun l old => match sent l with
      | some on => on
      | none => (old.filter (fun c => decide (c < 32))).map (· + 32)) }

/-! ### Everything off -/

/-- No permit and no universal output: the field side of Table 3-5. -/
def Field.allOff (d : Field) : Field := { d with permits := [], safeN := true, uoOn := [], uoCmd := .all [] }

/-- Permits of every lane for an item withdrawn; each lane must command off and on again (R199). -/
def Field.withdraw (d : Field) (vo : Nat) : Field :=
  { d with permits := d.permits.filter (fun p => p.item != vo),
           needOff := d.needOff.filter (fun q => q.2 % 32 != vo) ++ LaneId.all.map (fun l => (l, vo)),
           voLatched := insertOnce d.voLatched vo }

end Sys2Proof.Machine
end

