-- ==== Sys2Proof/Machine/Platen.lean ====
section
/-! DEFINITION. The platen: decoding and voting galleys (R45 to R47), verdicts (R49), exclusion (R50 to R53), the safe state
(R54, R55), the comparisons of R14 and R48, and what the voted words do at the field side and the network die (R59, R94). -/

namespace Sys2Proof.Machine

/-! ### The safe state -/

/-- Causes in the order of R54; 5 is a request of the lanes. -/
def causeNoMajority : Nat := 0
def causeTwoLanes : Nat := 1
def causeVerdicts : Nat := 2
def causeTwoExcluded : Nat := 3
def causeOverruns : Nat := 4
def causeRequest : Nat := 5

/-- Identity under which a position's word leaves the module: the status words of a train carry the vehicle's number n
(R274). -/
def Forme.outId (f : Forme) (n : Nat) (g : GalleyRec) : Nat :=
  if f.header.personality = 2 ∧ 0x7000 ≤ g.id ∧ g.id ≤ 0x7007 then g.id + 16 * n else g.id

/-- The restrictive command word of an identity (R14, Table 3-5). -/
def restrictiveWord (id tag : Nat) : Word64 := encodeD 0 id (tag % 256) 4 0xA

/-- A position whose words go to the network die. -/
def GalleyRec.toNet (g : GalleyRec) : Bool := g.target == 3 || g.target == 4

/-- Restrictive words at every network position. -/
def State.restrictiveTx (s : State) : List (Nat × Word64) :=
  match s.forme with
  | none => []
  | some f => (indexed f.galley).filterMap (fun p =>
      if GalleyRec.toNet p.2 then some (p.1, restrictiveWord (f.outId s.train.number p.2) s.net.count) else none)

/-- A lane at the entry into the safe state: its gate drive ends and both checkpoint halves are unsealed. -/
def LaneState.safeEntry (st : LaneState) : LaneState :=
  { st with gate := false, writing := none, half0 := { st.half0 with isSealed := false },
            half1 := { st.half1 with isSealed := false } }

/-- What every copy of a lane in service puts out in the safe state: kind 0x4 words with x = 0 at every position (Table 3-5). -/
def State.safeOut (s : State) : Tri (List Word64) :=
  let ws := ((s.forme.map (·.galley)).getD []).map (fun g =>
    restrictiveWord ((s.forme.map (fun f => f.outId s.train.number g)).getD g.id) s.net.count)
  (Tri.all ()).mapL (fun l _ => if s.laneIn l then ws else [])

/-- Entry into the safe state (Table 3-5): permits and drives end, outputs open, the copies and the network turn restrictive, both
checkpoint halves are unsealed. Nothing happens in the safe state itself. -/
def State.enterSafe (s : State) (cause : Nat) : State :=
  if s.platen.safe then s
  else
    let s := { s with
      platen := { s.platen with safe := true, safeCause := cause, out := s.safeOut },
      lanes := s.lanes.map LaneState.safeEntry,
      field := s.field.allOff,
      net := { s.net with tx := s.restrictiveTx, txNext := none },
      duplex := { s.duplex with commanding := false, ready := false } }
    s.raiseWith evSafeState (leBytes 1 cause ++ leBytes 4 s.net.count)
      [recCount 0x0030 cause, recKeep 0x0031 0 (leBytes 4 cause ++ leBytes 4 s.net.count ++ leBytes 8 0)]

/-! ### One copy's vote -/

/-- Identity, kind and highest index with which a copy decodes position i. A mirror position takes those of the item its
own lane carries there (R290). -/
def Forme.posDecl (f : Forme) (i : Nat) (g : GalleyRec) (own : Word64) : Nat × Nat × Nat :=
  if g.target = 4 then (wordId own, wordKind own, 0xFFFF)
  else (g.id, g.kind, (f.decl (f.addr 0x12 i 0)).highest)

/-- A lane's word at a position as a copy reads it: the x it decodes to (R26, R45). A value that the position does not declare is judged
by the word's consumer behind the vote (R420). -/
def Forme.posX (f : Forme) (now : Nat) (l : LaneId) (i : Nat) (g : GalleyRec) (own w : Word64) : Option Nat :=
  let d := f.posDecl i g own
  if g.target = 4 ∧ !isIdentity d.1 then none
  else
    (decode w d.1 d.2.1 (laneSet l) now d.2.2).x?

/-- The majority of the lanes' values at one position: the voted x, and the lanes outvoted (Tables 3-2 and 3-3). -/
def voteValues (l : List (LaneId × Option Nat)) : Option Nat × List LaneId :=
  let need := if l.length = 3 then 2 else l.length
  match l.find? (fun p => p.2.isSome && decide (2 ≤ need) && decide (need ≤ (l.filter (fun q => q.2 == p.2)).length)) with
  | some p => (p.2, (l.filter (fun q => q.2 != p.2)).map (·.1))
  | none => (none, [])

/-- Word i of a galley, or the all-zero word. -/
def galleyWord (g : Option (List Word64)) (i : Nat) : Word64 :=
  match g with
  | some ws => nthD ws i 0
  | none => 0

/-- The values a copy sees at a position from the lanes it votes over. -/
def Copy.values (c : Copy) (f : Forme) (now : Nat) (own : LaneId) (over' : List LaneId) (i : Nat) (g : GalleyRec) :
    List (LaneId × Option Nat) :=
  let ownWord := match c.got.get own with
    | some ws => nthD ws i 0
    | none => galleyWord (over'.findSome? (fun l => c.got.get l)) i
  over'.map (fun l => (l, (c.got.get l).bind (fun ws => f.posX now l i g ownWord (nthD ws i 0))))

/-- The vote of one copy over every position, and its verdict: bits 0 to 2 lanes, bit 3 no majority (R45, R46, R49). -/
def Copy.vote (c : Copy) (f : Forme) (now : Nat) (own : LaneId) (over' : List LaneId) : Copy :=
  let rs := (indexed f.galley).map (fun q => voteValues (c.values f now own over' q.1 q.2))
  let named (l : LaneId) : Bool := rs.any (fun r => r.2.contains l)
  let none' := rs.any (fun r => r.1.isNone)
  { c with voted := some (rs.map (·.1)),
           verdict := ofMembers [named .a, named .b, named .c, none' || decide (over'.length < 2)] }

/-- A copy's voted words in code set 0xA (R47); in the safe state the restrictive command word. -/
def Copy.words (c : Copy) (f : Forme) (now n : Nat) (safe : Bool) (own : LaneId) : List Word64 :=
  match c.voted with
  | none => []
  | some xs => (indexed (f.galley.zip xs)).map (fun q =>
      let g := q.2.1
      let d := f.posDecl q.1 g (galleyWord ((c.got.get own).orElse (fun _ => LaneId.all.findSome? (fun l => c.got.get l))) q.1)
      if safe then restrictiveWord (f.outId n g) now
      else match q.2.2 with
        | none => 0
        | some x => encodeD x (if g.target = 4 then d.1 else f.outId n g) (now % 256) d.2.1 0xA)

/-- The words that leave copy l: a faulty copy emits others in their places (Table 3-10). -/
def Platen.emits (p : Platen) (l : LaneId) (ws : List Word64) : List Word64 :=
  (p.emitted.filter (fun q => q.1 == l)).foldl (fun ws q => setNth ws q.2.1 q.2.2) ws

/-! ### Comparing the copies -/

/-- The word that at least two copies deliver bit-identical with code-set field 0xA (R14). -/
def agreed (ws : List Word64) : Option Word64 :=
  ws.find? (fun w => wordSet w == 0xA && decide (2 ≤ (ws.filter (· == w)).length))

/-- The words the network die takes (R14, R94). -/
def netWords (f : Forme) (now n : Nat) (outs : List (List Word64)) : List (Nat × Word64) :=
  (indexed f.galley).filterMap (fun p =>
    if GalleyRec.toNet p.2 then
      some (p.1, (agreed (outs.map (fun ws => nthD ws p.1 0))).getD (restrictiveWord (f.outId n p.2) now))
    else none)

/-- The copy whose words differ from the other two at some position, these being equal (R48). -/
def copyDiffers (f : Forme) (out : Tri (List Word64)) (l : LaneId) : Bool :=
  let others := LaneId.all.filter (· != l)
  (List.range f.galley.length).any (fun i =>
    let mine := nthD (out.get l) i 0
    match others.map (fun o => nthD (out.get o) i 0) with
    | [p, q] => p == q && mine != p
    | _ => false)

/-! ### Verdicts and exclusion -/

/-- Verdict of each lane's copy; none where it is missing. -/
def State.verdictOf (s : State) (l : LaneId) : Option Nat :=
  if s.laneIn l ∧ (s.platen.copies.get l).voted.isSome then some (s.platen.copies.get l).verdict else none

/-- How many verdicts carry a bit. -/
def State.verdicts (s : State) (bit : Nat) : Nat :=
  (LaneId.all.filter (fun l => ((s.verdictOf l).map (fun v => v.testBit bit)).getD false)).length

/-- A copy's verdict differs from both others (R49); a missing one differs. -/
def State.verdictDiffers (s : State) (l : LaneId) : Bool :=
  s.serving l && ((s.verdictOf l).isNone ||
    (LaneId.all.filter (fun o => o != l && s.serving o)).all (fun o => s.verdictOf o != s.verdictOf l))

/-- A lane counts as disagreeing at the end of a vote in two-out-of-three mode (R48, R49, R54). -/
def State.counted (s : State) (l : LaneId) : Bool :=
  s.serving l && (decide (2 ≤ s.verdicts l.num) || s.verdictDiffers l || s.platen.reported.get l || s.platen.safeAsked.get l)

/-- Why a lane is counted, as the recorder has it (item 0x0020). -/
def State.countReason (s : State) (f : Forme) (l : LaneId) : Nat :=
  if s.verdicts l.num < 2 then (if s.verdictDiffers l then 4 else if s.platen.reported.get l then 3 else 0)
  else
    let copies := s.lanesIn.map (fun c => (c, s.platen.copies.get c))
    if copies.all (fun p => (p.2.got.get l).isNone) then 2
    else if !(s.lanes.get l).quoinSound then 5
    else if copies.any (fun p => (indexed f.galley).any (fun q =>
        (p.2.values f s.net.count p.1 [l] q.1 q.2).any (fun r => r.2.isNone))) then 1
    else 0

/-- The count of a lane after the vote (Table 3-4). -/
def State.nextCount (s : State) (l : LaneId) : Nat :=
  match s.platen.lanes.get l with
  | .inService n => if s.counted l then n + 1 else 0
  | _ => 0

/-- Lanes that reach the exclusion threshold at this vote. -/
def State.reaching (s : State) : List LaneId :=
  lanesWhere (fun l => s.serving l && decide (s.platen.excludeAfter ≤ s.nextCount l) && s.counted l)

/-- Exclusion of one lane (R51). -/
def State.exclude (s : State) (l : LaneId) (reason : Nat) : State :=
  let s := s.updLane l (fun st => { st with held := true, gate := false, writing := none })
  let s := { s with platen := { s.platen with lanes := s.platen.lanes.set l .excluded } }
  s.raiseWith evLaneExcluded (leBytes 1 l.num ++ leBytes 1 reason)
    [recKeep 0x0038 0 (leBytes 1 l.num ++ leBytes 1 reason ++ leBytes 14 0)]

/-- The safe-state cause that the verdicts of the vote give, if any (R49, R52, R54). With fewer than two copies left to vote nothing has a
majority: the module never runs on fewer than two lanes. -/
def State.voteCause (s : State) : Option Nat :=
  let n := (lanesWhere s.serving).length
  let asks := (lanesWhere (fun l => s.serving l && s.platen.safeAsked.get l)).length
  if n = 3 then
    if 2 ≤ s.verdicts 3 ∨ s.lanesIn.length < 2 then some causeNoMajority
    else if 2 ≤ asks then some causeRequest
    else if 2 ≤ s.reaching.length then some causeTwoExcluded
    else none
  else if n = 2 then
    if 1 ≤ s.verdicts 3 ∨ (lanesWhere s.serving).any s.platen.reported.get then some causeTwoLanes
    else if (lanesWhere s.serving).any s.verdictDiffers then some causeVerdicts
    else if 1 ≤ asks then some causeRequest
    else none
  else some causeTwoLanes

/-- Counts and exclusions of Table 3-4 in two-out-of-three mode, each disagreement in the recorder. In two-out-of-two mode no lane is
named, or the safe state governs: a count returns to 0. -/
def State.judgeLanes (s : State) (f : Forme) : State :=
  if (lanesWhere s.serving).length ≠ 3 then
    { s with platen := { s.platen with lanes := s.platen.lanes.map (fun m => match m with
      | .inService _ => .inService 0
      | m => m) } }
  else
    let out := s.reaching
    let hits := (lanesWhere s.counted).map (fun l => (l, s.countReason f l))
    let step (l : LaneId) (m : LaneMode) : LaneMode := match m with
      | .inService _ => .inService (s.nextCount l)
      | m => m
    let t : State := { s with platen := { s.platen with lanes := s.platen.lanes.mapL step } }
    let t := t.recordBatch (hits.map (fun p => recCount (0x0020 + p.1.num) p.2))
    hits.foldl (fun t p => if out.contains p.1 then t.exclude p.1 p.2 else t) t

/-- The lane-status word with the members of excluded lanes at 0 (R51). -/
def State.statusWord (s : State) (id : Nat) (w : Word64) : Word64 :=
  match (decode w id 1 0xA s.net.count 0).x? with
  | some x => encodeD (LaneId.all.foldl (fun x l => if s.platen.lanes.get l = .excluded then setMember x l.num false else x) x) id
      (s.net.count % 256) 1 0xA
  | none => w

/-- At the end of the vote that excludes a lane the other lanes show it out in the voted lane-status word (R51). -/
def State.statusOut (s : State) (f : Forme) (out : Tri (List Word64)) : Tri (List Word64) :=
  match findIdx (fun g : GalleyRec => g.target == 5) f.galley with
  | none => out
  | some i => out.map (fun ws => if i < ws.length then setNth ws i (s.statusWord (((f.galley[i]?).map (·.id)).getD 0) (nthD ws i 0)) else ws)

/-- The field side latches out an excluded lane once the status words of both other lanes show it out (R51). -/
def State.latchOut (s : State) (f : Forme) (out : Tri (List Word64)) : State :=
  match findIdx (fun g : GalleyRec => g.target == 5) f.galley with
  | none => s
  | some i =>
    let id := ((f.galley[i]?).map (·.id)).getD 0
    let shows (o l : LaneId) : Bool :=
      match (decode (nthD (out.get o) i 0) id 1 0xA s.net.count 0).x? with
      | some x => !member x l.num
      | none => false
    let gone (l : LaneId) : Bool :=
      s.platen.lanes.get l == .excluded && (LaneId.all.filter (· != l)).all (fun o => shows o l)
    { s with field := { s.field with latchedOut := s.field.latchedOut.mapL (fun l b => b || gone l) } }

/-- The lanes' words reach their checkers, and universal words the field side (R59, R192). -/
def State.driveField (s : State) (f : Forme) (out : Tri (List Word64)) : State :=
  if s.platen.safe ∨ !s.field.link then s
  else
    let d := s.lanesIn.foldl (fun d l => d.checkAll f s.net.count l (out.get l)) s.field
    let d := d.settleOverload
    let sent (l : LaneId) : Option (List Nat) := if s.laneIn l then some (s.universalOf l f) else none
    { s with field := ({ d.universalWords sent with safeN := false }).driveUniversal }

/-- What a lane's copy voted is what its outputs were commanded to when the next cycle is evaluated (R200, R205, R220). -/
def State.noteVoted (s : State) : State :=
  { s with lanes := s.lanes.mapL (fun l st =>
      match (s.platen.copies.get l).voted with
      | some xs => if s.laneIn l then { st with core := { st.core with lastGalley := xs.map (·.getD 0) } } else st
      | none => st) }

/-- Every copy has voted: verdicts, safe state, exclusions, and the words to the field side and the network die. -/
def State.finishVote (s : State) (f : Forme) : State :=
  let n := s.train.number
  let words : Tri (List Word64) := s.platen.copies.mapL (fun l c =>
    if s.laneIn l then s.platen.emits l (c.words f s.net.count n s.platen.safe l) else [])
  let tx := netWords f s.net.count n (s.lanesIn.map words.get)
  let differs : Tri Bool := (Tri.all false).mapL (fun l _ => decide (s.lanesIn.length = 3) && copyDiffers f words l)
  let s1 := if s.platen.safe then s
    else match s.voteCause with
      | some cause => s.enterSafe cause
      | none => s.judgeLanes f
  let out := if s.platen.safe then words else if s1.platen.safe then s1.platen.out else s1.statusOut f words
  let s2 := { s1 with platen := { s1.platen with complete := true, out := out, reported := differs, safeAsked := .all false } }
  let s3 := if s2.platen.safe then s2 else { s2 with net := { s2.net with txNext := some tx } }
  let s4 := (s3.latchOut f out)
  if s.platen.safe then { s4 with net := { s4.net with txNext := some s.restrictiveTx } }
  else if s4.platen.safe then s4
  else
    -- the words of the lanes that voted, the one excluded at the end of this vote included
    let d := (s.driveField f words).field
    { s4 with field := { d with latchedOut := s4.field.latchedOut } }

/-- The vote of an open cycle ends once every copy still in service has voted. -/
def State.endVote (s : State) (f : Forme) : State :=
  if s.platen.cycleOpen ∧ !s.platen.complete ∧ s.lanesIn.all (fun l => (s.platen.copies.get l).voted.isSome) then s.noteVoted.finishVote f
  else s

/-- A copy votes; the last copy in service to vote ends the vote. -/
def State.copyVote (s : State) (f : Forme) (c : LaneId) : State :=
  let over' := lanesWhere s.serving
  ({ s with platen := { s.platen with copies := s.platen.copies.upd c (fun k => k.vote f s.net.count c over') } } : State).endVote f

/-- A lane has gone into reset: the copies that are left end a vote that waited for its copy only (R9); with no lane left nothing can vote
and the safe state is entered (R52, log 57). -/
def State.laneLost (s : State) : State :=
  match s.forme with
  | none => s
  | some f =>
    if s.lanesIn.isEmpty then s.enterSafe (if (lanesWhere s.serving).length = 3 then causeNoMajority else causeTwoLanes)
    else s.endVote f

/-- The copy can act: its lane is in service, a cycle is open, and it has not voted. -/
def State.copyOpen (s : State) (c : LaneId) : Bool :=
  s.power.running && s.platen.cycleOpen && s.laneIn c && (s.platen.copies.get c).voted.isNone

/-- A galley as it arrives at a copy, with the words a link fault changed. -/
def arrivedGalley (ws : List Word64) (bad : List (Nat × Word64)) : List Word64 :=
  bad.foldl (fun ws p => setNth ws p.1 p.2) ws

/-- A lane's galley reaches a copy (R43). Words that come after the copy's vote, up to the next strobe, are discarded and counted. -/
def State.deliver (s : State) (f : Forme) (copy lane : LaneId) (bad : List (Nat × Word64)) : State :=
  match (s.lanes.get lane).galley with
  | none => s
  | some ws =>
    if s.copyOpen copy ∧ s.laneIn lane then
      let s := { s with platen := { s.platen with copies := s.platen.copies.upd copy (fun k =>
        { k with got := k.got.set lane (some (arrivedGalley ws bad)) }) } }
      if (lanesWhere s.serving).all (fun l => ((s.platen.copies.get copy).got.get l).isSome) then s.copyVote f copy else s
    else if s.power.running ∧ s.laneIn copy ∧ s.laneIn lane ∧ ((s.platen.copies.get copy).got.get lane).isNone then
      s.recordBatch [recCount (0x0020 + lane.num) 7]
    else s

/-- The vote of the cycle starts anew at every strobe. -/
def Platen.newCycle (p : Platen) : Platen := { p with copies := .all .empty, complete := false, cycleOpen := true }

end Sys2Proof.Machine
end

