-- ==== Sys2Proof/Machine/Outcome.lean ====
section
/-! DEFINITION. What the steward makes of the lanes' outcome records, events and recorder items at step 9 of a cycle (R11,
R123, R181, R187, R188, R322, R384, R419, Tables 6-6, 6-8 and 9-7). -/

namespace Sys2Proof.Machine

/-- How many lanes in service hold an element in one of their lists. -/
def State.lanesHolding {α : Type} [BEq α] (s : State) (get : LaneState → List α) (x : α) : Nat :=
  (s.lanesIn.filter (fun l => (get (s.lanes.get l)).contains x)).length

/-- What the lanes hand over: everything in the lists of the lanes in service, each thing once. -/
def State.handed {α : Type} [BEq α] (s : State) (get : LaneState → List α) : List α :=
  (s.lanesIn.flatMap (fun l => get (s.lanes.get l))).eraseDups

/-- What at least two lanes hand over identically (R123). -/
def State.identical {α : Type} [BEq α] (s : State) (get : LaneState → List α) : List α :=
  (s.handed get).filter (fun x => decide (2 ≤ s.lanesHolding get x))

/-- The request in a slot. -/
def State.slotKind (s : State) (slot : Nat) : Option ReqKind := kvGet s.req.slots slot

/-- A slot becomes free. -/
def State.freeSlot (s : State) (slot : Nat) : State :=
  { s with req := { s.req with slots := kvDel s.req.slots slot, origins := kvDel s.req.origins slot } }

/-- Session, key index and token sequence of a slot's request. -/
def State.origin (s : State) (slot : Nat) : Nat × Nat × Nat := kvGetD s.req.origins slot (0, 0xFF, 0)

/-- Detail of a force action in the recorder: the entry, action, key index, session, token sequence, cause (32 bytes). -/
def forceDetail (q : Force) (action key session tok cause : Nat) : List Byte :=
  q.bytes ++ leBytes 1 action ++ leBytes 1 key ++ leBytes 2 session ++ leBytes 4 tok ++ leBytes 1 cause ++ leBytes 7 0

/-- The frisket entry with a number in the first lane in service. -/
def State.forceNo (s : State) (num : Nat) : Option Force :=
  s.refLane.bind (fun l => (s.lanes.get l).core.frisket.find? (fun q => q.num == num))

/-- A refusal counts in `QUO.REFUSED_TOTAL`, one for lack of rows in `QUO.LIMIT_TOTAL` and in the recorder's class of quoin
rows (R114, R124, item 0x0108). -/
def State.countRefusal (s : State) (reason : Nat) : State :=
  let s : State := { s with req := { s.req with
    refusedTotal := sat32 s.req.refusedTotal 1,
    limitTotal := if reason = 0x0E then sat32 s.req.limitTotal 1 else s.req.limitTotal } }
  if reason = 0x0E then s.recordBatch [recCount 0x0108 5] else s

/-- What a record says of its request: mailbox status and payload, and whether the slot becomes free (Table 6-8, R179 to
R181, R168). -/
def OutRec.verdict (r : OutRec) : Status × Bool :=
  if r.isRoute then
    match r.outcome with
    | 0 => (.state, true)
    | 1 => (.done, false)
    | 3 => (if r.reason = 0x0E then .limit else .refused, true)
    | _ => (.done, true)
  else
    match r.outcome with
    | 0 => (.state, true)
    | 3 => (.refused, true)
    | 7 => (.done, false)
    | 8 => (.done, false)
    | 0x21 => (.refused, true)
    | 0x22 => (.limit, true)
    | _ => (.done, true)

/-- Payload of the response a record gives: the record, nothing for `STATE`, the whole entry for a force (R166). The effective
position of a point request follows its record (R176, R313; DESIGN CHOICE, log 60: Table 9-2 has no field for it). -/
def State.recordPayload (s : State) (r : OutRec) : List Byte :=
  if r.outcome = 0 then []
  else if r.isRoute = false ∧ 0x20 ≤ r.outcome then
    match r.outcome with
    | 0x20 => ((r.forces.head?).map Force.bytes).getD []
    | 0x23 => leBytes 2 r.ticket
    | _ => []
  else r.bytes ++ (match r.slot.bind s.slotKind with
    | some (.pointMove _ pos) => leBytes 1 pos
    | _ => [])

/-- The recorder's items of a force action or a block clear that took effect (R174, R206). -/
def State.recordAction (s : State) (r : OutRec) (slot : Nat) : State :=
  let o := s.origin slot
  if r.isRoute then s
  else match r.outcome with
    | 0x20 => s.recordBatch (r.forces.map (fun q => recKeep (0x0200 + q.num) 0 (forceDetail q 1 o.2.1 o.1 o.2.2 0)))
    | 0x22 => s.recordBatch [recCount 0x0108 4]
    | 0x23 => s.recordBatch (r.forces.map (fun q => recKeep (0x0200 + q.num) 0 (forceDetail q 2 0xFF o.1 0 0)))
    | 1 => match s.slotKind slot with
      | some (.blockClear target index) => s.recordBatch [recKeep (0x0580 + (if target = 1 then index else 16 + index - 4)) 0
          (leBytes 1 target ++ leBytes 1 index ++ leBytes 2 o.1 ++ leBytes 4 o.2.2)]
      | _ => s
    | _ => s

/-- The steward's block list (R419): a block that took effect is added, an executed removal takes it off. A standby follows the
requests that its partner mirrors. -/
def State.blockListStep (s : State) (r : OutRec) : State :=
  let isBlock := s.req.frozen.any (fun q => q.kind == .block r.target && q.slot == r.slot)
  if r.isRoute then s
  else if r.outcome = 1 ∧ isBlock then { s with req := { s.req with blockList := insertOnce s.req.blockList r.target } }
  else if r.outcome = 9 ∧ r.code = 6 then { s with req := { s.req with blockList := removeAll s.req.blockList r.target } }
  else if r.outcome = 3 ∧ r.slot.isNone ∧ r.reason = 1 ∧ s.req.blockList.contains r.target then
    -- an element that the running forme does not hold leaves the list, and the recorder keeps it
    (({ s with req := { s.req with blockList := removeAll s.req.blockList r.target } } : State).recordBatch
      [recKeep 0x07F0 0 (leBytes 2 r.target ++ leBytes 6 0)])
  else s

/-- One identical record (R123, R181): response, slot, counters, block list. -/
def State.outcome (s : State) (r : OutRec) : State :=
  let s := s.blockListStep r
  match r.slot with
  | none => s
  | some slot =>
    let v := r.verdict
    let s := if r.outcome = 3 then s.countRefusal r.reason else s
    let s := if r.outcome = 3 ∧ !r.isRoute then s.recordBatch [recCount 0x0100 r.reason] else s
    let s := s.recordAction r slot
    let s := match s.waiting slot with
      | some o => s.answerOut o v.1 0 (s.recordPayload r)
      | none => s
    if v.2 then s.freeSlot slot else s

/-- A slot about which the lanes hand differing records (Table 6-6). -/
def State.disagree (s : State) (slot : Nat) : State :=
  let s := match s.waiting slot with
    | some o => s.answerOut o .state 0 []
    | none => s
  (s.freeSlot slot).raise evRouteDisagree (leBytes 1 slot)

/-- Slots of records that fewer than two lanes hand identically, and that no identical record names. -/
def State.disputed (s : State) : List Nat :=
  let same := s.identical (·.records)
  (((s.handed (·.records)).filter (fun r => !same.contains r)).filterMap (·.slot)).eraseDups.filter
    (fun n => !same.any (fun r => r.slot == some n))

/-- Confirmed stagings that two lanes hold and that no acknowledgement on its way answers (R187). -/
def State.unacknowledged (s : State) : List (Nat × Staging) :=
  let all := s.req.waiting ++ s.req.mirrored ++ s.req.frozen
  (s.identical (fun st => st.core.stagings)).filter (fun p => p.2.confirmed.isSome &&
    !all.any (fun q => q.kind == .auxAck (p.1 % 8) p.2.ticket))

/-- The steward counts a use, records it and queues the acknowledgement (R187, R188). -/
def State.acknowledge (s : State) (p : Nat × Staging) : State :=
  let authority := p.1 % 8
  let i := (p.2.code - 1) * 8 + authority
  let o := s.origin p.2.slot
  let s : State := { s with req := { s.req with
    auxCounts := updNth s.req.auxCounts i 0 (fun n => sat32 n 1),
    waiting := s.req.waiting ++ [{ kind := .auxAck authority p.2.ticket, slot := none }] } }
  s.recordBatch [recKeep (0x0400 + i) 0 (leBytes 2 p.2.target ++ leBytes 1 p.2.code ++ leBytes 1 authority ++
    leBytes 2 p.2.ticket ++ leBytes 2 o.1 ++ leBytes 4 (p.2.confirmed.getD 0) ++ leBytes 4 0)]

/-- Lane events of a cycle in ascending number: those that two lanes hand identically. -/
def State.laneEvents (s : State) : List Raise :=
  sortBy (fun a b => decide (a.num ≤ b.num)) (s.identical (·.events))

/-- Items of one lane only: evaluation times, galley completion, disagreements, decode reasons (Table 19-4). -/
def laneItem (u : RecUpd) : Bool := decide (0x0010 ≤ u.item) && decide (u.item ≤ 0x002A)

/-- The lanes' recorder items of a cycle: those of the reference lane, the other lanes' own, and the events (R384). -/
def State.laneRecs (s : State) (events : List Raise) : List RecUpd :=
  (match s.refLane with
    | none => []
    | some l => (s.lanes.get l).recs ++ (s.lanesIn.filter (· != l)).flatMap (fun o => (s.lanes.get o).recs.filter laneItem)) ++
  events.map (fun r => recCount 0x0F00 r.num)

/-- What the counts of these events have advanced by for events of theirs that were lost (R382, R403). -/
def Recorder.lostRecs (r : Recorder) (events : List Raise) : List RecUpd :=
  ((events.map (·.num)).eraseDups.filter (fun (n : Nat) => (kvGet r.uncounted n).isSome)).map (fun (n : Nat) =>
    { recCount 0x0F00 n with times := kvGetD r.uncounted n 0 })

/-- Everything the lanes hand the steward at step 9. Records find no steward while Gweten is down (R11). -/
def State.handOver (s : State) : State :=
  let events := s.laneEvents
  let batch := s.laneRecs events
  let s1 := if s.host.stewardUp then
      let s1 := (s.identical (·.records)).foldl State.outcome s
      let s1 := s.disputed.foldl State.disagree s1
      if s.dupRole = 2 ∨ s.dupRole = 3 then s1 else s.unacknowledged.foldl State.acknowledge s1
    else s
  let s2 := events.foldl State.post s1
  let lost := s1.recorder.lostRecs events
  let s2 : State := { s2 with recorder := { s2.recorder with
    uncounted := (events.map (·.num)).foldl kvDel s2.recorder.uncounted } }
  s2.recordBatch (batch ++ lost)

end Sys2Proof.Machine
end

