-- ==== Sys2Proof/Machine/ParamTable.lean ====
section
/-! DEFINITION. The parameters that the host may write: their ranges and defaults (Tables 3-1, 5-6, 12-15, 15-13, 16-5), the
clamping of R313, and the two values of R315. A parameter that no cell lists stands at its default, stored and in use. -/

namespace Sys2Proof.Machine

/-- Range and default of a writable parameter. -/
def writableParam (id : Nat) : Option (Nat × Nat × Nat) :=
  if id = 0x0501 then some (1, 8, 2)
  else if id = 0x0502 then some (200, 2000, 1000)
  else if id = 0x0601 then some (0, 1800, 900)
  else if id = 0x0C01 then some (250000, 1000000, 1000000)
  else if id = 0x0C04 then some (0, 15, 0)
  else if id = 0x0F01 then some (60, 3600, 600)
  else if id = 0x0F10 then some (0, 0xFFFFFFFF, 0xC0A82628)
  else if id = 0x0F11 then some (0, 0xFFFFFFFF, 0xFFFFFF00)
  else if id = 0x0F12 then some (0, 0xFFFFFFFF, 0)
  else if id = 0x0F13 then some (1024, 65535, 43840)
  else if id = 0x1001 then some (10, 5000, 100)
  else if id = 0x1002 then some (10, 10000, 1000)
  else if id = 0x1003 then some (100, 10000, 1000)
  else if id = 0x1004 ∨ id = 0x1005 then some (9600, 115200, 38400)
  else if id = 0x1006 ∨ id = 0x1007 then some (0, 2, 0)
  else if id = 0x1008 ∨ id = 0x1009 then some (0, 0xFFFF, 0)
  else if id = 0x100A ∨ id = 0x100B then some (0, 1, 0)
  else if 0x1010 ≤ id ∧ id ≤ 0x108F then some (0, 0xFFFF, 0)
  else if 0x2C00 ≤ id ∧ id ≤ 0x2C3F then some (0, 0xFFFF, 0)
  else none

/-- The nearest baud rate; a tie takes the lower (Table 16-5). -/
def nearestBaud (v : Nat) : Nat :=
  let d (x : Nat) : Nat := max x v - min x v
  ([19200, 38400, 57600, 115200] : List Nat).foldl (fun best b => if d b < d best then b else best) 9600

/-- The effective value of a write (R313): the nearest legal value, and for an enumeration the default in place of an illegal
code. -/
def effectiveParam (id v : Nat) : Nat :=
  match writableParam id with
  | none => v
  | some (lo, hi, d) =>
    if id = 0x0C01 then clamp lo hi v / 1000 * 1000
    else if id = 0x1004 ∨ id = 0x1005 then nearestBaud v
    else if id = 0x1006 ∨ id = 0x1007 then (if v ≤ hi then v else d)
    else clamp lo hi v

/-- The cell of a parameter. -/
def State.cell (s : State) (id : Nat) : ParamCell :=
  (s.params.find? (fun c => c.id == id)).getD
    (let d := ((writableParam id).map (fun p => p.2.2)).getD 0
     { id := id, stored := d, inUse := d })

/-- Value in use. -/
def State.inUse (s : State) (id : Nat) : Nat := (s.cell id).inUse

/-- Stored value. -/
def State.stored (s : State) (id : Nat) : Nat := (s.cell id).stored

/-- Put a cell in place, in the order of IDs. -/
def State.setCell (s : State) (c : ParamCell) : State :=
  { s with params := sortBy (fun a b => decide (a.id ≤ b.id)) (s.params.filter (fun d => d.id != c.id) ++ [c]) }

/-- Store an effective value; the value in use stays (R315). -/
def State.store (s : State) (id v : Nat) : State := s.setCell { s.cell id with stored := effectiveParam id v }

/-- Take the stored values of a family's parameters into use (Table 15-12). -/
def State.applyParams (s : State) (p : Nat → Bool) : State :=
  { s with params := s.params.map (fun c => if p c.id then { c with inUse := c.stored } else c) }

/-- Give a family's parameters their defaults, stored and in use. -/
def State.defaultParams (s : State) (p : Nat → Bool) : State := { s with params := s.params.filter (fun c => !p c.id) }

/-- Parameters of the bridge. -/
def isBridgeParam (id : Nat) : Bool := id / 256 == 0x10 || id / 256 == 0x2C || id / 256 == 0x2D

/-- Parameters of the host link. -/
def isHostParam (id : Nat) : Bool := id / 256 == 0x0F || id / 256 == 0x2E

/-- Parameters of the network. -/
def isNetParam (id : Nat) : Bool := id / 256 == 0x0C

end Sys2Proof.Machine
end

