-- ==== Sys2Proof/Machine/Network.lean ====
section
/-! DEFINITION. The Ahnong network: links (R229 to R232), static slots (R234, R282, R285), received frames (R236, R240,
R248), receive buffers (R245, R246, R256), the network-cycle boundary, kern (R249 to R251), the guardians (R254, R255) and
the states of Table 12-11 (R252, R253). -/

namespace Sys2Proof.Machine

/-! ### Where the node stands -/

/-- The network die runs: out of reset and its clock sound (R401, R404). -/
def State.netOn (s : State) : Bool := s.power.running && !s.power.netDown

/-- `NET.STATE` (Table 12-15, R266). -/
def NetMode.code : NetMode → Nat
  | .stopped => 0
  | .links => 1
  | .listen => 2
  | .coldstart => 3
  | .backoff => 4
  | .integrate => 5
  | .running => 6
  | .inaugurating => 7

def LinkMode.code : LinkMode → Nat
  | .down => 0
  | .negotiating => 1
  | .qualifying => 2
  | .up => 3

/-- Own position: the number of the own node record; none for a node that the imposition does not list. -/
def Net.position (n : Net) : Option Nat := findIdx (fun r : NodeRec => r.id == n.self) n.nodes

/-- Own roles. -/
def Net.roles (n : Net) : Nat := ((n.nodes.find? (fun r => r.id == n.self)).map (·.roles)).getD 0

/-- Static entries of the imposition in use. -/
def Net.entries (n : Net) : List ImpEntry := (n.imp.map (·.entries)).getD []

/-- The module runs as a train vehicle. -/
def State.isTrain (s : State) : Bool := s.personality == 2

def State.isDuplex (s : State) : Bool := s.dupRole != 0

/-- Own member number (R280). -/
def State.memberNo (s : State) : Nat := s.power.ga % 2

/-- The node sets the cycle-master flag: the lead of a train, the commanding member or member 0 while none commands, else
the node that carries the role (R89, R270, R286). -/
def State.isMaster (s : State) : Bool :=
  if s.isTrain then s.train.number == 1
  else if s.isDuplex then s.duplex.commanding || (s.duplex.mark == 0 && s.memberNo == 0)
  else s.net.roles.testBit 2

/-- A port of a reversed vehicle takes the role of its opposite (R270). -/
def State.roleOf (s : State) (p : PortId) : PortId :=
  if s.isTrain ∧ s.train.orient = 2 then p.opposite else p

def State.setPort (s : State) (p : PortId) (f : Port → Port) : State :=
  { s with net := { s.net with ports := s.net.ports.upd p f } }

/-- One counter of Table 12-15 of a port advances. -/
def Port.count (q : Port) (n : Nat) : Port := { q with counters := updNth q.counters n 0 (fun c => sat32 c 1) }

/-- Some port is up. -/
def Net.anyUp (n : Net) : Bool := n.ports.toList.any (fun q => q.mode == .up)

/-- A running forme whose network cycle is the one in use and whose imposition lists this node (Table 12-11). -/
def State.formeFits (s : State) : Bool :=
  match s.forme with
  | none => false
  | some f => f.header.cycleNs == s.net.cycleNs && (s.isTrain || s.net.position.isSome)

/-- The node runs as a bypass node: its forme runs on the network cycle in use and does not list it (R232). R252 leaves a node without a
listing forme in links, forwarding nothing, and cites R3, which is about no forme; R232 and R236 let this one pass code groups (DEDUCED,
log 63). -/
def State.isBypass (s : State) : Bool :=
  s.net.mode == .links && !s.isTrain && s.net.position.isNone &&
  (match s.forme with
    | some f => f.header.cycleNs == s.net.cycleNs
    | none => false)

/-- Links to listen (Table 12-11); in the train personality links leads to inaugurating (R266), which the inauguration
unit enters itself. -/
def State.tryListen (s : State) : State :=
  if s.net.mode = .links ∧ s.formeFits ∧ s.net.anyUp ∧ !s.isTrain ∧ !s.net.engineBad then
    { s with net := { s.net with mode := .listen, waited := 0 } }
  else s

/-- The network starts (Table 12-11, R246, R259): empty buffers, nothing heard, the forme's imposition and nodes. -/
def Net.begin (n : Net) (f : Option Forme) (self cycleNs : Nat) : Net :=
  { n with mode := .links, cycleNs := cycleNs, buffers := [], copies := [], adopt := none, netCycle := 0, minislot := 1,
           off := 0, rc := 0, dev := 0, prev := [], syncSeen := 0, good := 0, silent := 0, coldSent := 0, sinceRun := 0,
           tx := [], txNext := none, sends := false, arrivals := [], waited := 0,
           ports := n.ports.map (fun q => { q with tripped := false, shut := false, guardOff := 0, guardRc := 0 }),
           imp := f.bind (fun f => if f.header.personality = 2 then none else some f.imp),
           nodes := (f.map (fun f => if f.header.personality = 2 then [] else f.nodes)).getD [],
           self := self }

/-- The node identity under which the network starts. -/
def State.selfNode (s : State) : Nat := (s.forme.map s.ownNode).getD 0

/-- `NET.CYCLE_NS` as stored (R259). -/
def State.storedCycleNs (s : State) : Nat :=
  ((s.params.find? (fun c => c.id == 0x0C01)).map (·.stored)).getD 1000000

/-! ### Links -/

/-- Whether the partner a qualification frame names is the one placed next to the port (R230). In the train personality
only the ring is checked (R261). -/
def State.neighbourOk (s : State) (p : PortId) (q : QualResult) : Bool :=
  let ring := q.partnerPort / 2 == p.num / 2
  if s.isTrain then ring
  else
    let facing := q.partnerPort == (PortId.opposite p).num
    match s.net.position with
    | none => ring && facing
    | some pos =>
      let n := s.net.nodes.length
      let next := if p.isEast then (pos + 1) % n else (pos + n - 1) % n
      ring && facing && ((s.net.nodes[next]?).map (·.id)) == some q.partnerNode

/-- A qualification takes `NET.QUAL_ERR_MAX` into use (R260). -/
def State.takeQualMax (s : State) : State := s.applyParams (· == 0x0C04)

/-- L of one qualification frame: half of what is left of the round trip without the partner's turnaround, rounded up to a whole 0.8 ns
(Table 12-2, R230). -/
def stampLatency (x : QualStamp) : Nat := ceilDiv ((x.received + 2 * 4294967296 - x.echoed - x.turnaround) % 4294967296) 2

/-- L of a qualification: the largest value measured. -/
def qualLatency (q : QualResult) : Nat := (q.stamps.map stampLatency).foldl max 0

/-- L is at most h − 124 ns, in units of 0.8 ns; h is the running imposition's, or 240 ns (R230). -/
def State.latencyOk (s : State) (latency : Nat) : Bool :=
  let h := if s.formeFits then (s.net.imp.map (·.hop)).getD 240 else 240
  decide (latency * 8 + 1240 ≤ h * 10)

/-- A bypass node announced itself (R232). -/
def State.notAdmitted (s : State) (id : Nat) : State :=
  if id = 0 then s
  else (({ s with net := { s.net with notAdmitted := id } } : State).raiseWith evNodeNotAdmitted (leBytes 2 id)
    [recKeep 0x0610 0 (leBytes 2 id ++ leBytes 6 0)])

/-- Cause of `ev.link_down` at a port whose partner is not the imposed neighbour (R230). -/
def causeNeighbour : Nat := 3

/-! ### Frames that leave -/

/-- A frame as it travels: header of Table 12-6, payload, CRC-32C, most significant byte first (R6, R239). -/
def frameBytes (f : Frame) : List Byte :=
  leBytes 1 (16 * f.typ + f.version) ++ leBytes 1 f.flags ++ beBytes 2 f.slot ++ beBytes 2 f.sender ++ leBytes 1 f.length ++
  leBytes 1 f.netCycle ++ beBytes 4 f.count ++ leBytes 1 f.phase ++ leBytes 1 0 ++ beBytes 2 f.tag ++ f.payload ++ beBytes 4 f.crc.toNat

/-- A frame leaves on a port. -/
def State.emit (s : State) (p : PortId) (f : Frame) (broken : Bool) : State :=
  { s with net := { s.net with sent := { port := p, bytes := frameBytes f, broken := broken } :: s.net.sent } }

/-- A frame of the node's own, but for its ring and copy flags (R239, R248). -/
def State.ownFrame (s : State) (typ slot flags : Nat) (payload : List Byte) : Frame :=
  { typ := typ, version := 1, flags := flags, slot := slot, sender := s.net.self, length := payload.length / 4,
    netCycle := s.net.netCycle, count := s.net.count, phase := s.net.phase, tag := (s.net.imp.map (·.tag)).getD 0, payload := payload,
    crc := BitVec.ofNat 32 (crc32c payload), codeOk := true, window := none, dev := 0 }

/-- Ring and copy flags of what leaves on a port (Table 12-6). -/
def State.portFlags (s : State) (p : PortId) : Nat := (if p.ringY then 4 else 0) + (if (s.roleOf p).isEast then 0 else 8)

/-- Flags of a frame of the node's own that name its role and whether its count is known. -/
def State.nodeFlags (s : State) : Nat := (if s.isMaster then 2 else 0) + (if s.net.countKnown then 16 else 0)

/-- The ports on which the node's own frames leave: those that are up and have joined; the node at position 0 sends only its east copy
(R231, R234). -/
def State.sendPorts (s : State) : List PortId :=
  PortId.all.filter (fun p => (s.net.ports.get p).mode == .up && (s.net.ports.get p).joined &&
    ((s.roleOf p).isEast || s.net.position != some 0))

/-- A guardian cuts a frame of 696 ns that starts d units of 0.8 ns after its window of 768 ns begins: its gate opens 20 ns before the
window and closes 20 ns after it. A tripped or shut guardian keeps its gate closed (R254, R255). -/
def Port.cuts (q : Port) (d : Int) : Bool := q.tripped || q.shut || decide (d < -25) || decide (115 < d)

/-- Both copies of a frame of the node's own leave, but for those that a guardian cuts, which counts at its port. `devs` are the starts
that lie off their nominal time. -/
def State.emitOwn (s : State) (f : Frame) (devs : List (PortId × Int)) : State :=
  s.sendPorts.foldl (fun t p =>
    if (t.net.ports.get p).cuts (((devs.find? (fun x => x.1 == p)).map (·.2)).getD 0) then t.setPort p (fun q => q.count 7)
    else t.emit p { f with flags := f.flags + s.portFlags p } false) s

/-- The module's own base page (R229). -/
def ownPage : BasePage := { fullDuplex := true, halfDuplex := false, pause := 0, remoteFault := 0, nextPage := false, accepted := false }

/-- A port begins auto-negotiation with its base page. -/
def Port.negotiate (q : Port) : Port := { q with mode := .negotiating, page := some ownPage }

/-- A qualification frame of this node on a port (Table 12-2); one stands for those of the 2 ms (R230, R232). -/
def State.qualFrame (s : State) (p : PortId) : Frame :=
  let n := s.net.sent.length
  { s.ownFrame 3 0xFFFF (s.nodeFlags + if p.ringY then 4 else 0)
      (leBytes 1 p.num ++ leBytes 1 (b2n s.isBypass) ++ leBytes 2 0 ++ (List.range 60).map (Config.qualByte n)) with
    count := if s.net.countKnown then s.net.count else 0, phase := if s.net.countKnown then s.net.phase else 0 }

/-! ### Bring-up -/

def execLinkSyncAcquired (p : PortId) (s : State) : Host.Outcome State Fault Refusal :=
  let q := s.net.ports.get p
  if s.netOn ∧ s.net.mode ≠ .stopped ∧ q.mode = .down ∧ !q.heldDown then .next (s.setPort p Port.negotiate) else .next s

def execAutoNegotiation (p : PortId) (page : BasePage) (s : State) : Host.Outcome State Fault Refusal :=
  if s.netOn ∧ (s.net.ports.get p).mode = .negotiating then
    let ok := page.accepted && page.fullDuplex && page.remoteFault == 0
    .next (s.setPort p (fun q => { q with mode := if ok then .qualifying else .down }))
  else .next s

/-- The outcome of a qualification (R230, R231). -/
def State.qualify (s : State) (p : PortId) (q : QualResult) : State :=
  let s := (s.takeQualMax.emit p (s.qualFrame p) false).notAdmitted q.bypass
  let s := s.setPort p (fun r => { r with latency := qualLatency q })
  let s := s.recordBatch [recKeep (0x0601 + p.num) (qualLatency q) []]
  if !s.neighbourOk p q then
    (s.setPort p (fun r => { r with mode := .down })).raise evLinkDown (leBytes 1 p.num ++ leBytes 1 causeNeighbour)
  else if q.codeErrors + q.prbsErrors ≤ s.inUse 0x0C04 ∧ !q.stamps.isEmpty ∧ s.latencyOk (qualLatency q) then
    ((s.setPort p (fun r => { r with mode := .up, joined := false })).raise evLinkUp (leBytes 1 p.num)).tryListen
  else s.setPort p (fun r => { r with mode := .down })

def execLinkQualification (p : PortId) (q : QualResult) (s : State) : Host.Outcome State Fault Refusal :=
  if s.netOn ∧ (s.net.ports.get p).mode = .qualifying then .next (s.qualify p q) else .next s

/-- A port that was up goes down (R231): the event carries the cause. -/
def State.linkLost (s : State) (p : PortId) (cause : Nat) : State :=
  (s.setPort p (fun q => { q.count 6 with mode := .down, joined := false })).raise evLinkDown
    (leBytes 1 p.num ++ leBytes 1 cause)

def execLinkDown (p : PortId) (cause : Nat) (s : State) : Host.Outcome State Fault Refusal :=
  if s.netOn then
    match (s.net.ports.get p).mode with
    | .up => .next (s.linkLost p cause)
    | .down => .next s
    | _ => .next (s.setPort p (fun q => { q with mode := .down }))
  else .next s

/-- The port tries again 100 ms after a failed bring-up (Table 12-3). -/
def execLinkRetry (p : PortId) (s : State) : Host.Outcome State Fault Refusal :=
  let q := s.net.ports.get p
  if s.netOn ∧ s.net.mode ≠ .stopped ∧ q.mode = .down ∧ !q.heldDown then .next (s.setPort p Port.negotiate) else .next s

/-! ### Static slots -/

/-- Heartbeat word 0 of this member (Table 14-1, R283). -/
def State.heartbeatX (s : State) : Nat :=
  let sound := s.forme.isSome && decide (2 ≤ s.lanesIn.length) && !s.platen.safe && s.net.mode == .running
  ofMembers [sound, sound && s.duplex.commanding, sound && s.duplex.ready, s.duplex.yielding.isSome]

/-- The eight words of a member's heartbeat (Table 14-1). -/
def State.heartbeatWords (s : State) : List Word64 :=
  let id (w : Nat) : Nat := 0x7420 + 8 * s.memberNo + w
  let tag := s.net.count % 256
  [encodeD s.heartbeatX (id 0) tag 1 0xA, encodeD (s.net.count % 65536) (id 1) tag 2 0xA,
   encodeD (min s.duplex.passes 65535) (id 2) tag 2 0xA] ++ List.replicate 5 (encodeD 0 0x743F tag 4 0xA)

/-- The eight words of the mark (Table 14-1), sent by the referee. -/
def State.markWords (s : State) : List Word64 :=
  let tag := s.net.count % 256
  [encodeD s.duplex.holder 0x7430 tag 3 0xA, encodeD (s.duplex.seq % 65536) 0x7431 tag 2 0xA] ++
    List.replicate 6 (encodeD 0 0x743F tag 4 0xA)

/-- Galley position that stands at word w of an own static entry: an output point's position by ordinal and word (R247),
a mirror position (R281), or a status word of a train at block offset 0 (R274). -/
def State.positionAt (s : State) (f : Forme) (ordinal entry w : Nat) : Option Nat :=
  if f.header.personality = 2 ∧ ordinal = 0 then f.galleyNet (0x7000 + w)
  else
    match (f.remotes.find? (fun r => r.output == 1 && r.ordinal == ordinal && r.word == w)).bind (fun r => f.galleyNet r.group) with
    | some i => some i
    | none =>
      if f.header.duplex = 1 then
        (findIdx (· == entry) ((f.mirrorOf s.net.self).take f.mirrorEntries)).bind (fun k =>
          findIdx (fun g : GalleyRec => g.target == 4 && g.index == 8 * k + w) f.galley)
      else none

/-- The word a node sends at a galley position: the voted word of the cycle, a restrictive one where none stands, and kind
0x4 words at the network positions of a member that does not command (R14, R285). -/
def State.sentWord (s : State) (f : Forme) (i : Nat) : Word64 :=
  match f.galley[i]? with
  | none => 0
  | some g =>
    let restrictive := restrictiveWord (f.outId s.train.number g) s.net.count
    if f.header.duplex = 1 ∧ g.target = 3 ∧ !s.duplex.commanding then restrictive
    else (kvGet s.net.tx i).getD restrictive

/-- The payload of an own static entry. A node with no known count sends zero bytes (R248). -/
def State.entryWords (s : State) (f : Forme) (entry : Nat) (r : ImpEntry) : List Word64 :=
  if !s.net.countKnown then List.replicate 8 0
  else if r.flags.testBit 3 then (if s.net.roles.testBit 3 then s.markWords else s.heartbeatWords)
  else
    let ordinal := (findIdx (· == entry) (entriesOf s.net.entries s.net.self)).getD 0
    (List.range 8).map (fun w => ((s.positionAt f ordinal entry w).map (s.sentWord f)).getD 0)

/-- Flags of a frame this node sends in a static slot, ring and copy bits aside (Table 12-6). -/
def State.frameFlags (s : State) (r : ImpEntry) : Nat := (if r.flags.testBit 1 then 1 else 0) + s.nodeFlags

/-- The copies of a static frame leave in an own slot (R234, R239, R240, R254). -/
def State.transmitStatic (s : State) (f : Forme) (entry : Nat) (r : ImpEntry) (devs : List (PortId × Int)) : State :=
  s.emitOwn (s.ownFrame 1 r.slot (s.frameFlags r) ((s.entryWords f entry r).flatMap (fun w => beBytes 8 w.toNat))) devs

/-- A vehicle leaves the slots silent that its template does not use (R263). -/
def Forme.usesSlot (f : Forme) (slot : Nat) : Bool := f.header.personality != 2 || f.template.slotUse.testBit (slot % 8)

/-- The own static entry of a slot in the present network cycle. -/
def Net.ownEntry (n : Net) (slot : Nat) : Option (Nat × ImpEntry) :=
  (indexed n.entries).find? (fun p => p.2.slot == slot && p.2.owner == n.self && p.2.flags % 2 == 0 && n.netCycle % p.2.k == p.2.f)

/-- Own frames start at the network-cycle boundary after the node entered running (R252). -/
def execStaticSlotTransmit (slot : Nat) (devs : List (PortId × Int)) (s : State) : Host.Outcome State Fault Refusal :=
  match s.forme, s.net.ownEntry slot with
  | some f, some p =>
    if s.netOn ∧ s.net.mode = .running ∧ s.net.sends ∧ f.usesSlot slot then .next (s.transmitStatic f p.1 p.2 devs) else .next s
  | _, _ => .next s

/-! ### Received frames -/

/-- The imposed entry of a slot or identifier in a network cycle. -/
def Net.entryAt (n : Net) (dynamic : Bool) (slot cycle : Nat) : Option (Nat × ImpEntry) :=
  (indexed n.entries).find? (fun p => p.2.slot == slot && p.2.flags.testBit 0 == dynamic && (dynamic || cycle % p.2.k == p.2.f))

/-- A node carries the cycle-master role of the imposition. -/
def Net.masterRole (n : Net) (id : Nat) : Bool := n.nodes.any (fun r => r.id == id && r.roles.testBit 2)

/-- The first failing check of Table 12-7 as the counter it advances: 1 code, 2 window, 3 plaus, 4 crc; none when the copy
passes. -/
def State.frameFail (s : State) (p : PortId) (f : Frame) : Option Nat :=
  let n := s.net
  let east := (s.roleOf p).isEast
  if !f.codeOk ∨ f.payload.length ≠ 4 * f.length then some 1
    else match f.window with
      | none => some 2
      | some w =>
        let dynamic := decide (512 ≤ w)
        let slot := if dynamic then w - 512 else w
        if f.version ≠ 1 ∨ (if dynamic then f.typ ≠ 4 else f.typ ≠ 1 ∧ f.typ ≠ 2) then some 3
        else if n.imp.map (·.tag) ≠ some f.tag then some 3
        else if f.slot ≠ slot then some 3
        else match n.entryAt dynamic slot n.netCycle with
          | none => some 3
          | some q =>
            let e := q.2
            if f.sender ≠ e.owner then some 3
            else if (if dynamic then f.length = 0 ∨ e.len < f.length else f.length ≠ 16) then some 3
            else if f.netCycle ≠ n.netCycle then some 3
            else if f.flags.testBit 2 ≠ p.ringY ∨ f.flags.testBit 3 ≠ east ∨ f.flags.testBit 0 ≠ (!dynamic && e.flags.testBit 1) ∨
                (f.flags.testBit 1 && !n.masterRole f.sender) ∨
                (!s.isDuplex && n.masterRole f.sender && !f.flags.testBit 1) then some 3
            else if crc32c f.payload ≠ f.crc.toNat then some 4
            else none

/-- Entries whose buffers the network die keeps: those that carry a remote input point, the partner's mirror and
heartbeat, and the mark (R245, R281). -/
def State.readsEntry (s : State) (entry : Nat) : Bool :=
  match s.forme, s.net.entries[entry]? with
  | some f, some e =>
    e.owner != s.net.self && e.flags % 2 == 0 &&
    (e.flags.testBit 3 || (f.header.duplex == 1 && e.owner == s.partnerNode f) ||
      (f.header.personality == 2 && decide (0x7F00 < e.owner) && decide (e.owner ≤ 0x7F40)) ||
      f.remotes.any (fun r => r.output == 0 && ((f.nodes[r.node]?).map (·.id)) == some e.owner &&
        (entriesOf s.net.entries e.owner)[r.ordinal]? == some entry))
  | _, _ => false

/-- A frame of the cycle master gives the count and phase (R248): at once when they are not known, at the next boundary
when they differ, each frame that differs counting. -/
def State.takeCount (s : State) (f : Frame) : State :=
  if !f.flags.testBit 1 ∨ !f.flags.testBit 4 ∨ s.isMaster then s
  else if !s.net.countKnown then { s with net := { s.net with count := f.count, phase := f.phase, countKnown := true, atStart := false } }
  else if f.count ≠ s.net.count ∨ f.phase ≠ s.net.phase then
    { s with net := { s.net with adopt := some (f.count, f.phase), slips := sat32 s.net.slips 1 } }
  else s

/-- A frame is forwarded on the opposite port, by a running node only within its window; the cycle master at position 0 strips it, and
a line end has no port to forward on. A forwarder ends a bad frame with /V/; a bypass node passes it as it came (R232, R235, R236). -/
def State.forward (s : State) (p : PortId) (f : Frame) : State :=
  let out := PortId.opposite p
  let strips := s.net.position == some 0
  let bad := !f.codeOk || crc32c f.payload != f.crc.toNat
  if (s.net.mode = .listen ∨ s.net.mode = .integrate ∨ (s.net.mode = .running ∧ f.window.isSome) ∨ s.isBypass) ∧ !strips ∧
      (s.net.ports.get out).mode = .up ∧ (s.net.ports.get out).joined then
    if s.isBypass then s.emit out f (!f.codeOk)
    else (if bad then s.setPort out (fun q => q.count 5) else s).emit out f bad
  else s

/-- The arrival of a sync frame's earliest copy of the cycle (R249). -/
def Net.hear (n : Net) (f : Frame) : Net :=
  if f.typ = 1 ∧ f.flags.testBit 0 ∧ !n.arrivals.any (fun h => h.1 == f.sender) then { n with arrivals := n.arrivals ++ [(f.sender, f.dev)] } else n

/-- A copy that a running or integrating node receives (R240). -/
def State.receive (s : State) (p : PortId) (f : Frame) : State :=
  let s := s.forward p f
  match s.frameFail p f with
  | some n => s.setPort p (fun q => q.count n)
  | none =>
    let s := (s.setPort p (fun q => q.count 0)).takeCount f
    let s : State := { s with net := s.net.hear f }
    match s.net.entryAt (f.typ == 4) f.slot s.net.netCycle with
    | some q =>
      if f.typ = 1 ∧ s.readsEntry q.1 then { s with net := { s.net with copies := s.net.copies ++ [(q.1, p, f.payload)] } } else s
    | none => s

/-- A frame on which a listening node integrates: checks 1, 3, 4, 6 and 10 in a slot flagged sync or coldstart (Table
12-11). -/
def State.integrates (s : State) (f : Frame) : Bool :=
  let n := s.net
  f.codeOk && f.payload.length == 4 * f.length && f.version == 1 && (f.typ == 1 || f.typ == 2) &&
  n.imp.map (·.tag) == some f.tag && crc32c f.payload == f.crc.toNat &&
  (match n.entryAt false f.slot f.netCycle with
    | some q => q.2.owner == f.sender && (q.2.flags.testBit 1 || q.2.flags.testBit 2) && (f.typ == 2 || f.flags.testBit 0)
    | none => false)

/-- The node sets its timeline on a frame (Table 12-11). -/
def State.integrateOn (s : State) (f : Frame) : State :=
  ({ s with net := { s.net with mode := .integrate, netCycle := f.netCycle, good := 0, silent := 0, prev := [] } } : State).takeCount f

def execFrameReceive (p : PortId) (f : Frame) (s : State) : Host.Outcome State Fault Refusal :=
  if !s.netOn ∨ (s.net.ports.get p).mode ≠ .up ∨ !(s.net.ports.get p).joined then .next s
  else match s.net.mode with
    | .running => .next (s.receive p f)
    | .integrate => .next (s.receive p f)
    | .listen => .next (let t := s.forward p f; if t.integrates f then t.integrateOn f else t)
    | .links => .next (if s.isBypass then s.forward p f else s)
    | _ => .next s

/-! ### Receive buffers -/

def Net.buffer (n : Net) (entry : Nat) : Option Buffer := n.buffers.find? (fun b => b.entry == entry)

/-- A buffer that has never been refreshed. -/
def Buffer.fresh (entry : Nat) : Buffer := { entry := entry, words := [], age := 255, refreshed := false, lost := false }

/-- Put a buffer in place, in the order of entries. -/
def Net.setBuffer (n : Net) (b : Buffer) : Net :=
  { n with buffers := sortBy (fun x y => decide (x.entry ≤ y.entry)) ((n.buffers.filter (fun c => c.entry != b.entry)) ++ [b]) }

/-- Eight words, most significant byte first (R240). -/
def payloadWords : Nat → List Byte → List Word64
  | 0, _ => []
  | n + 1, l => BitVec.ofNat 64 (beNat (l.take 8)) :: payloadWords n (l.drop 8)

/-- The copies the die compares: at position 0 the copy on the west port of a ring, and its east copy only when the other
failed (R235). -/
def State.usedCopies (s : State) (entry : Nat) : List (PortId × List Byte) :=
  let mine := (s.net.copies.filter (fun c => c.1 == entry)).map (fun c => (c.2.1, c.2.2))
  if s.net.position = some 0 then
    mine.filter (fun c => !(s.roleOf c.1).isEast || !mine.any (fun d => d.1.ringY == c.1.ringY && !(s.roleOf d.1).isEast))
  else mine

/-- A refreshed buffer: a lost entry is back, which the cycle master reports (R256). -/
def State.refresh (s : State) (entry : Nat) (ws : List Word64) : State :=
  let old := (s.net.buffer entry).getD (Buffer.fresh entry)
  let owner := ((s.net.entries[entry]?).map (·.owner)).getD 0
  let s1 : State := { s with net := s.net.setBuffer { old with words := ws, refreshed := true, lost := false } }
  if old.lost then s1.raise evNodeBack (leBytes 2 owner) else s1

/-- After the windows of a slot have closed the copies that passed are compared (R245). -/
def State.compareCopies (s : State) (entry : Nat) : State :=
  let l := s.usedCopies entry
  let s1 : State := { s with net := { s.net with copies := s.net.copies.filter (fun c => c.1 != entry) } }
  match l with
  | [] => s1
  | (_, p) :: t =>
    if t.all (fun c => c.2 == p) then s1.refresh entry (payloadWords 8 p)
    else ({ s1 with net := { s1.net with mismatches := sat32 s1.net.mismatches 1 } } : State).recordBatch [recCount 0x0608 0]

def execReceiveBufferUpdate (entry : Nat) (s : State) : Host.Outcome State Fault Refusal :=
  if s.netOn then .next (s.compareCopies entry) else .next s

/-- A buffer at the network-cycle boundary (R246). -/
def Buffer.atBoundary (b : Buffer) : Buffer := { b with age := if b.refreshed then 0 else min 255 (b.age + 1), refreshed := false }

/-- Count and phase at the boundary (R248): an adoption first, then on by one network cycle; phase M only in an added
cycle. -/
def State.nextPhase (s : State) : Nat × Nat :=
  let c := s.net.adopt.getD (s.net.count, s.net.phase)
  let m := (s.forme.map (·.header.m)).getD 1
  let last := if s.platen.stretched ∨ s.platen.lengthened then m else m - 1
  (c.1, if last ≤ c.2 then 0 else c.2 + 1)

/-- Powered time advances by one network cycle; each full second counts in `SYS.POWERED_S`, in the in-service proof timer
in Operation, and in the inactivity of an update session (R325, R352, R375). -/
def State.passTime (s : State) (ns : Nat) : State :=
  let t := s.power.subNs + ns
  let n := t / 1000000000
  { s with
    power := { s.power with subNs := t % 1000000000, poweredS := sat32 s.power.poweredS n },
    life := if s.life.state = .operation then { s.life with inServiceS := sat32 s.life.inServiceS n } else s.life,
    update := if s.update.session.isSome then { s.update with idleS := sat32 s.update.idleS n } else s.update }

/-- What the duplex unit counts at a boundary (R284, R294, R295). -/
def Duplex.atBoundary (d : Duplex) : Duplex := { d with yielding := d.yielding.map (· + 1), sincePartner := sat32 d.sincePartner 1 }

/-- The network-cycle boundary (R246, R248, R94, R231, R252). -/
def State.boundary (s : State) : State :=
  let cp := s.nextPhase
  let n := s.net
  let s := s.passTime n.cycleNs
  { s with
    net := { n with
      buffers := n.buffers.map Buffer.atBoundary, copies := [], count := cp.1, phase := cp.2, adopt := none,
      atStart := n.atStart && n.adopt.isNone,
      netCycle := (n.netCycle + 1) % 256, minislot := 1, tx := n.txNext.getD n.tx, txNext := none, arrivals := [],
      ports := n.ports.map (fun q => { q with joined := q.mode == .up, shut := false }), sends := n.mode == .running,
      waited := if n.mode = .listen ∨ n.mode = .backoff then sat16 n.waited 1 else 0,
      sinceRun := if n.mode = .running then sat32 n.sinceRun 1 else n.sinceRun },
    duplex := s.duplex.atBoundary,
    bridge := { s.bridge with polls := s.bridge.polls.map (fun p => { p with ageNs := p.ageNs + n.cycleNs }) },
    train := { s.train with sinceEntry := sat32 s.train.sinceEntry 1 } }

/-- Periods of an entry without a refresh: three of its multiplex, counted from 10 network cycles after running began
when it has never been refreshed (R256). -/
def State.lostDue (s : State) (e : ImpEntry) (b : Buffer) : Bool :=
  if b.words.isEmpty then decide (10 + 3 * e.k ≤ s.net.sinceRun) else decide (3 * e.k ≤ b.age)

/-- The cycle master reports an entry that stays out (R256). -/
def State.nodeLost (s : State) (entry : Nat) (e : ImpEntry) : State :=
  let b := (s.net.buffer entry).getD (Buffer.fresh entry)
  if s.lostDue e b ∧ !b.lost then
    ({ s with net := s.net.setBuffer { b with lost := true } } : State).raise evNodeLost (leBytes 2 e.owner)
  else s

def execNodeLost (entry : Nat) (s : State) : Host.Outcome State Fault Refusal :=
  match s.net.entries[entry]? with
  | some e =>
    if s.netOn ∧ s.net.mode = .running ∧ s.isMaster ∧ s.readsEntry entry then .next (s.nodeLost entry e) else .next s
  | none => .next s

/-! ### Kern (R249): times in units of 0.8 ns -/

/-- The midpoint of R249: the extremes of three or more are dropped, the mean of the ends rounds towards 0. -/
def midpoint (v : List Int) : Int :=
  let l := sortBy (fun a b => decide (a ≤ b)) v
  let l := if 3 ≤ l.length then (l.drop 1).dropLast else l
  (l.headD 0 + l.getLastD 0).tdiv 2

/-- rc_max: 60 ppm of Tn. -/
def Net.rcMax (n : Net) : Int := ((n.cycleNs * 60 / 800000 : Nat) : Int)

/-- 92.8 ns. -/
def devBound : Int := 116

/-- A sync node of the imposition. -/
def Net.isSync (n : Net) (id : Nat) : Bool := n.nodes.any (fun r => r.id == id && r.roles.testBit 0)

/-- A guardian takes the corrections into its own timeline, each clamped: ±92.8 ns and ±rc_max (R254). -/
def Port.correct (q : Port) (off rc rcMax : Int) : Port :=
  { q with guardOff := max (-devBound) (min devBound off), guardRc := max (-rcMax) (min rcMax rc) }

/-- The guardians take the corrections, but for those whose crossing of them times out: such a guardian keeps the previous ones and its
gate closed (R254, R403). -/
def Net.corrected (n : Net) (missed : List PortId) (off rc : Int) : Quad Port :=
  let take (p : PortId) : Port :=
    if missed.contains p then { n.ports.get p with shut := true } else (n.ports.get p).correct off rc n.rcMax
  { xe := take .xe, xw := take .xw, ye := take .ye, yw := take .yw }

/-- The corrections of one network cycle from the sync frames heard in it; none when no sync frame was heard. -/
def Net.kern (n : Net) (missed : List PortId) : Option Net :=
  let heard := n.arrivals.filter (fun a => n.isSync a.1 && a.1 != n.self)
  let own := n.mode == .running && n.isSync n.self
  let devs := heard.map (·.2) ++ (if own then [0] else [])
  let rates := heard.filterMap (fun a => (kvGet n.prev a.1).map (fun p => a.2 - p)) ++ (if own then [0] else [])
  let prev := heard.foldl (fun l a => kvSet l a.1 a.2) []
  if devs.isEmpty then none
  else
    let off := midpoint devs
    let rate := if rates.isEmpty then 0 else midpoint rates
    let want := n.rc + rate
    let rc := max (-n.rcMax) (min n.rcMax want)
    let dev : Int := ((off.natAbs + (want - rc).natAbs : Nat) : Int)
    some { n with ports := n.corrected missed off rc, off := off, rc := rc, dev := dev, prev := prev, syncSeen := heard.length, silent := 0,
                  good := if dev ≤ devBound then n.good + 1 else 0 }

/-- Kern in the idle time; a running node beyond the bound silences itself (R249, R250). -/
def State.runKern (s : State) (missed : List PortId) : State :=
  match s.net.kern missed with
  | none => { s with net := { s.net with silent := s.net.silent + 1, syncSeen := 0, prev := [], good := 0 } }
  | some n =>
    let s1 := ({ s with net := n } : State).recordBatch [recCount 0x0600 n.dev]
    if s.net.mode = .running ∧ devBound < n.dev then
      ({ s1 with net := { s1.net with mode := .integrate, good := 0, selfSilence := sat32 s1.net.selfSilence 1 } } : State).raise
        evSelfSilence []
    else s1

/-- KERN. `missed` are the guardians whose crossing of the corrections times out, which CDC_TIMEOUT reports (R254, R403). -/
def execKern (missed : List PortId) (s : State) : Host.Outcome State Fault Refusal :=
  if s.netOn ∧ (s.net.mode = .running ∨ s.net.mode = .integrate) then .next (s.runKern missed) else .next s

/-- Two network cycles with no sync: a node that is no sync node returns to listen; one that integrates does so too (R251,
Table 12-11). -/
def execNoSync (s : State) : Host.Outcome State Fault Refusal :=
  if s.netOn ∧ (s.net.mode = .running ∨ s.net.mode = .integrate) ∧ 2 ≤ s.net.silent ∧ !s.net.isSync s.net.self then
    .next { s with net := { s.net with mode := .listen, silent := 0, good := 0, waited := 0 } }
  else .next s

/-! ### Guardians and start-up -/

/-- The guardian of a port trips (R255). -/
def State.guardianTrip (s : State) (p : PortId) : State :=
  let s1 := s.setPort p (fun q => { q with tripped := true })
  let s2 : State := { s1 with net := { s1.net with mode := .integrate, good := 0, trips := sat32 s1.net.trips 1 } }
  s2.raise evGuardianTrip (leBytes 1 p.num)

def execGuardianTrip (p : PortId) (s : State) : Host.Outcome State Fault Refusal :=
  if s.netOn ∧ (s.net.mode = .running ∨ s.net.mode = .integrate) ∧ !(s.net.ports.get p).tripped then .next (s.guardianTrip p)
  else .next s

/-- Whether this node may enter coldstart: a coldstart node of the imposition (R252). In a line the lead and the other
coldstart node of Table 13-3 carry the role (R271). -/
def Net.mayColdstart (n : Net) : Bool := n.roles.testBit 1

/-- Network cycles that a coldstart node listens first: 2; the other coldstart node of a line 20 (R252, R271). -/
def State.listenCycles (s : State) : Nat := if s.isTrain ∧ s.train.number ≠ 1 then 20 else 2

def execListenTimeout (s : State) : Host.Outcome State Fault Refusal :=
  if s.netOn ∧ s.net.mode = .listen ∧ s.net.mayColdstart ∧ s.listenCycles ≤ s.net.waited then
    .next { s with net := { s.net with mode := .coldstart, coldSent := 0, coldstarts := sat32 s.net.coldstarts 1 } }
  else .next s

/-- The node enters running: its guardians re-arm, and its count is known if it is the cycle master (R252, R253, R255). -/
def State.enterRunning (s : State) : State :=
  let s1 : State := { s with net := { s.net with
    mode := .running, sinceRun := 0, good := 0, silent := 0, sends := false, countKnown := s.net.countKnown || s.isMaster,
    ports := s.net.ports.map (fun q => { q with tripped := false }) } }
  if s.isTrain then
    { s1 with train := { s1.train with state := 2, lastUs := s.train.sinceEntry * s.net.cycleNs / 1000 } }
  else s1

/-- The coldstart frame of one cycle, in the node's coldstart slot (R240, R253). The guardians let it pass: R254 opens a gate in state
running alone, which would silence R253 (DEDUCED, log 63). -/
def State.sendColdstart (s : State) : State :=
  match s.net.entries.find? (fun r => r.owner == s.net.self && r.flags % 2 == 0 && r.flags.testBit 2 && r.k == 1) with
  | none => s
  | some r =>
    let f := s.ownFrame 2 r.slot (s.frameFlags r) (List.replicate 64 0)
    s.sendPorts.foldl (fun t p => t.emit p { f with flags := f.flags + s.portFlags p } false) s

/-- A further cycle has been sent in: after the fourth the node is the leader (R253). -/
def State.coldstartOn (s : State) : State :=
  let n := s.net.coldSent + 1
  let s1 : State := { s with net := { s.net with coldSent := n } }
  if 4 ≤ n then ({ s1 with net := { s1.net with netCycle := 0 } } : State).enterRunning else s1

/-- One of the node's own cycles in coldstart (R253). `NET.COLDSTART_TOTAL` counts entries into backoff too (R260). -/
def State.coldstartStep (s : State) (heard : ColdstartHeard) : State :=
  match heard with
  | .lowerIdentity id nc =>
    if id < s.net.self then { s with net := { s.net with mode := .integrate, netCycle := nc % 256, good := 0, silent := 0, prev := [] } }
    else s.sendColdstart.coldstartOn
  | .collision =>
    let t := s.sendColdstart
    { t with net := { t.net with mode := .backoff, waited := 0, coldstarts := sat32 t.net.coldstarts 1 } }
  | .nothing => s.sendColdstart.coldstartOn

def execColdstart (heard : ColdstartHeard) (s : State) : Host.Outcome State Fault Refusal :=
  if s.netOn ∧ s.net.mode = .coldstart then .next (s.coldstartStep heard) else .next s

def execBackoffExpiry (s : State) : Host.Outcome State Fault Refusal :=
  if s.netOn ∧ s.net.mode = .backoff ∧ s.net.self % 16 + 1 ≤ s.net.waited then
    .next { s with net := { s.net with mode := .listen, waited := 0 } }
  else .next s

def execIntegrationComplete (s : State) : Host.Outcome State Fault Refusal :=
  if s.netOn ∧ s.net.mode = .integrate ∧ 2 ≤ s.net.good then .next s.enterRunning else .next s

end Sys2Proof.Machine
end

