-- ==== Sys2Proof/Machine/Bridge.lean ====
section
/-! DEFINITION. Tunnels and the bridge (R326 to R343): transmit entries, segments, credits, reads and writes, RS-485 ports,
side-band polls, and the minislots in which the bridge sends (R237). Where the manual names no place or code, log 29. -/

namespace Sys2Proof.Machine

/-! ### Channels, peers and ports -/

/-- Own node identity on the network. -/
def State.me (s : State) : Nat := s.net.self

/-- Peers listed on a channel (R326). -/
def State.peers (s : State) (ch : Nat) : List Nat :=
  ((List.range 16).map (fun k => s.inUse (0x1010 + 16 * ch + k))).filter (· != 0)

def State.updBridge (s : State) (f : Bridge → Bridge) : State := { s with bridge := f s.bridge }

/-- The bridge and its die run. -/
def State.bridgeOn (s : State) : Bool := s.netOn && s.bridge.on

/-- The imposition gives this module a dynamic identifier (R327). -/
def Net.dynamicIds (n : Net) : List Nat := (n.entries.filter (fun e => e.flags.testBit 0 && e.owner == n.self)).map (·.slot)

/-- Frames dropped under R330, R335, R338 and R340. -/
def Bridge.drop (b : Bridge) : Bridge := { b with drops := sat32 b.drops 1 }

/-! ### Credits (R332) -/

def Credit.fresh (ch peer : Nat) : Credit := { channel := ch, peer := peer, sent := 0, consumed := 0, mine := 0, unreported := 0 }

def Bridge.creditOf (b : Bridge) (ch peer : Nat) : Credit :=
  (b.credit.find? (fun c => c.channel == ch && c.peer == peer)).getD (.fresh ch peer)

def Bridge.setCredit (b : Bridge) (c : Credit) : Bridge :=
  let l := b.credit.filter (fun d => !(d.channel == c.channel && d.peer == c.peer)) ++ [c]
  { b with credit := sortBy (fun x y => decide (x.channel * 65536 + x.peer ≤ y.channel * 65536 + y.peer)) l }

/-- A frame of a peer is consumed. -/
def Bridge.consume (b : Bridge) (ch peer : Nat) : Bridge :=
  let c := b.creditOf ch peer
  b.setCredit { c with mine := (c.mine + 1) % 256, unreported := c.unreported + 1 }

/-- A request may start: (sent − consumed) mod 256 below 4; a frame for all peers needs no credit (R330, R332). -/
def Bridge.mayStart (b : Bridge) (r : TunnelReq) : Bool :=
  let c := b.creditOf r.channel r.peer
  r.peer == 0xFFFF || decide ((c.sent + 256 - c.consumed % 256) % 256 < 4)

/-! ### Segments (Table 16-3) -/

def segment (kind ch dest tag detail : Nat) (data : List Byte) : Segment :=
  { sender := 0, kind := kind, channel := ch, reset := false, last := true, dest := dest, tag := tag, index := 0,
    creditChannel := 0, creditValid := false, consumed := 0, detail := detail, data := data }

/-- The side-band address of a read or write, in the first 4 data bytes. -/
def addrBytes (a : Nat) : List Byte := beBytes 4 a

/-- An Ethernet frame as one or two segments (R331). -/
def ethernetReq (ch peer seq : Nat) (frame : List Byte) : TunnelReq :=
  let data := frame ++ leBytes 4 (crcOf 1 frame)
  let first := segment 1 ch peer seq 0 (data.take 1008)
  if data.length ≤ 1008 then { channel := ch, peer := peer, seg := first, next := none }
  else { channel := ch, peer := peer, seg := { first with last := false },
         next := some { segment 1 ch peer seq 0 (data.drop 1008) with index := 1 } }

/-- A telegram whole, with its CRC (R339). -/
def Telegram.bytes (t : Telegram) : List Byte :=
  [0x02] ++ leBytes 1 t.address ++ leBytes 1 t.length ++ t.data ++ beBytes 2 t.crc.toNat

/-- A telegram from data. -/
def telegramOf (address : Nat) (data : List Byte) : Telegram :=
  { address := address, length := data.length, data := data, crc := BitVec.ofNat 16 (crcOf 2 data) }

/-- A telegram from the bytes of a segment. -/
def telegramIn (l : List Byte) : Telegram :=
  let n := fieldAt l 2 1
  { address := fieldAt l 1 1, length := n, data := (l.drop 3).take n, crc := BitVec.ofNat 16 (beNat ((l.drop (3 + n)).take 2)) }

/-! ### Delivery into host queues (R334, R338) -/

/-- An entry for a receive queue: type, tag, status, peer, RS-485 port (in the place of the session), detail. -/
def State.tunnelEntry (s : State) (typ tag peer port : Nat) (st : Status) (detail : Nat) (data : List Byte) : OutEntry :=
  { op := typ, tag := tag, flags := 0, origin := peer, session := port, status := st, detail := detail, cycle := s.net.count,
    payload := data, crc := BitVec.ofNat 32 (crc32c data) }

/-- A discarded entry: counted, with `ev.brg_discard` and the tag. -/
def State.discard (s : State) (ch tag : Nat) : State :=
  (s.updBridge Bridge.drop).raiseWith evBrgDiscard (leBytes 2 tag ++ leBytes 1 ch) [recCount 0x0750 0]

/-- A frame counted as delivered. -/
def Bridge.delivered (b : Bridge) (ch : Nat) : Bridge := { b with rxFrames := updNth b.rxFrames ch 0 (fun n => sat32 n 1) }

/-- Hand an entry to the receive queue of a channel: written when there is room, discarded when it can never fit, else it waits in
a buffer. `credited` says that its sender spent a credit. -/
def State.deliverEntry (s : State) (ch peer : Nat) (credited : Bool) (e : OutEntry) : State :=
  let n := 56 + ch
  let q := s.host.queue n
  let done (s : State) : State := if credited then s.updBridge (fun b => b.consume ch peer) else s
  if q.enabled ∧ q.entryBytes < e.payload.length + 20 then (done s).discard ch e.tag
  else if s.host.moves n ∧ 0 < q.free ∧ !s.bridge.reasm.any (fun r => r.channel == ch && r.entry.isSome) then
    (done (s.enqueue n e)).updBridge (fun b => b.delivered ch)
  else s.updBridge (fun b => { b with reasm := b.reasm ++
      [{ channel := ch, peer := peer, tag := e.tag, data := [], credited := credited, whole := true, entry := some e }] })

/-- Entries that wait for the receive queue of a channel, oldest first, go into it while it has room. -/
def State.drainChannel (s : State) (ch : Nat) : Nat → State
  | 0 => s
  | n + 1 =>
    let k := 56 + ch
    match s.bridge.reasm.findIdx? (fun r => r.channel == ch && r.entry.isSome) with
    | none => s
    | some i =>
      match (s.bridge.reasm[i]?).bind (fun r => r.entry.map (fun e => (r, e))) with
      | none => s
      | some (r, e) =>
        if s.host.moves k ∧ 0 < (s.host.queue k).free then
          let t := (s.enqueue k e).updBridge (fun b =>
            let b := { b with reasm := b.reasm.take i ++ b.reasm.drop (i + 1) }
            (if r.credited then b.consume ch r.peer else b).delivered ch)
          t.drainChannel ch n
        else s

/-! ### RS-485 ports (R339, R340) -/

def State.serial (s : State) (p : Nat) : Serial := if p = 0 then s.bridge.s0 else s.bridge.s1

def State.setSerial (s : State) (p : Nat) (x : Serial) : State :=
  s.updBridge (fun b => if p = 0 then { b with s0 := x } else { b with s1 := x })

/-- Mode of a port: 0 off, 1 host, 2 tunnel. -/
def State.portMode (s : State) (p : Nat) : Nat := s.inUse (0x1006 + min p 1)

/-- A telegram for a port: sent at once, queued behind the one being sent, or discarded beyond 8 waiting (R340). -/
def State.sendTelegram (s : State) (p : Nat) (t : Telegram) : State :=
  let q := s.serial p
  if s.portMode p = 0 then s.updBridge Bridge.drop
  else if !q.sending then s.setSerial p { q with sending := true, out := t :: q.out }
  else if q.waiting.length < 8 then s.setSerial p { q with waiting := q.waiting ++ [t] }
  else s.updBridge Bridge.drop

/-! ### Transmit entries (R328, R329) -/

/-- The payload length range of a type (Table 16-2). -/
def tunnelLength (typ n : Nat) : Bool :=
  match typ with
  | 1 => decide (60 ≤ n) && decide (n ≤ 1518)
  | 2 => decide (1 ≤ n) && decide (n ≤ 250)
  | 3 => n == 4
  | 4 => decide (4 ≤ n) && decide (n ≤ 1004) && n % 4 == 0
  | _ => true

/-- The first check of R329 that fails; 0 when all pass. -/
def State.tunnelFail (s : State) (ch : Nat) (e : TunnelEntry) : Nat :=
  let n := e.payload.length
  if 4080 < e.length ∨ (s.host.queue (48 + ch)).entryBytes < e.length + 20 ∨ n ≠ e.length ∨ crc32c e.payload ≠ e.crc.toNat then 1
  else if !tunnelLength e.typ n then 2
  else if e.typ = 0 ∨ 4 < e.typ then 3
  else if !((s.peers ch).contains e.peer || (e.peer == 0xFFFF && e.typ == 1)) then 4
  else if !s.bridge.on then 5
  else 0

/-- A read count: clamped to 4 to 1 004 and rounded down to a multiple of 4. -/
def readCount (n : Nat) : Nat := clamp 4 1004 n / 4 * 4

/-- Outstanding reads and writes. -/
def Bridge.reads (b : Bridge) : List Txn := b.txns.filter (·.isRead)
def Bridge.writes (b : Bridge) : List Txn := b.txns.filter (fun t => !t.isRead)

def Bridge.request (b : Bridge) (r : TunnelReq) : Bridge := { b with tx := b.tx ++ [r] }

def plainReq (ch peer : Nat) (g : Segment) : TunnelReq := { channel := ch, peer := peer, seg := g, next := none }

/-- The next frame sequence. -/
def Bridge.nextSeq (b : Bridge) : Bridge := { b with seq := (b.seq + 1) % 65536 }

/-- An entry that passed every check takes effect. -/
def State.tunnelAccept (s : State) (ch : Nat) (e : TunnelEntry) : State :=
  let b := s.bridge
  match e.typ with
  | 1 => { s with bridge := (b.request (ethernetReq ch e.peer b.seq e.payload)).nextSeq }
  | 2 =>
    let t := telegramOf (e.addr % 256) e.payload
    if e.peer = s.me then s.sendTelegram (min e.port 1) t
    else { s with bridge := (b.request (plainReq ch e.peer (segment 2 ch e.peer b.seq (min e.port 1) (Telegram.bytes t)))).nextSeq }
  | 3 =>
    if 256 ≤ b.reads.length then
      (s.deliverEntry ch e.peer false (s.tunnelEntry 0x0083 e.tag e.peer 0xFF .busy 5 [])).recordBatch [recCount 0x0108 2]
    else
      let g := segment 3 ch e.peer e.tag 0 (addrBytes e.addr ++ beBytes 4 (readCount (leNat e.payload)))
      { s with bridge := { b.request (plainReq ch e.peer g) with
          txns := b.txns ++ [{ tag := e.tag, channel := ch, peer := e.peer, addr := e.addr, isRead := true }] } }
  | _ =>
    let g := segment 5 ch e.peer e.tag 0 (addrBytes e.addr ++ e.payload)
    { s with bridge := { b.request (plainReq ch e.peer g) with
        txns := b.txns ++ [{ tag := e.tag, channel := ch, peer := e.peer, addr := e.addr, isRead := false }] } }

/-- The transmit queue gives up its head entry. -/
def State.takeTunnel (s : State) (ch : Nat) : State :=
  (s.updQueue (48 + ch) (fun q => { q with cons := (q.cons + 1) % 65536, stalled := false })).updBridge (fun b =>
    { b with paused := removeAll b.paused ch })

/-- One entry of a transmit queue (R329, R337). While the bridge is stopped, entries that were there at the stop stay
(Table 16-7); a write that finds its table full stays too. -/
def State.tunnelIn (s : State) (ch : Nat) (e : TunnelEntry) : State :=
  let n := 48 + ch
  if !s.netOn ∨ 8 ≤ ch ∨ !s.host.moves n ∨ (s.host.queue n).used = 0 ∨ (!s.bridge.on ∧ s.bridge.paused.contains ch) then s
  else match s.tunnelFail ch e with
    | 0 =>
      if e.typ = 4 ∧ 256 ≤ s.bridge.writes.length then s.stallQueue n
      else (s.takeTunnel ch).tunnelAccept ch e
    | k => (s.takeTunnel ch).raise evBrgRefused (leBytes 2 e.tag ++ leBytes 1 ch ++ leBytes 1 k)

def execTunnelTransmitEntry (channel : Nat) (e : TunnelEntry) (s : State) : Host.Outcome State Fault Refusal :=
  .next (s.tunnelIn channel e)

/-! ### Minislots (R237, R334) -/

/-- Words of a segment's frame: header and data, padded to whole words. -/
def Segment.words (g : Segment) : Nat := ceilDiv (12 + g.data.length) 4

/-- Duration of a frame of n words, ns. -/
def frameNs (n : Nat) : Nat := (23 + 4 * n) * 8

/-- Minislots that a frame of n words occupies. -/
def minislotsOf (n : Nat) : Nat := ceilDiv (frameNs n + 232) 2000

/-- The frame ends at least 2 µs before the end of the dynamic segment. -/
def fitsSegment (d m n : Nat) : Bool := decide (2000 * (m - 1) + frameNs n + 2000 ≤ 2000 * d)

/-- The request that a channel sends next: the first in queue order whose peer has a credit. -/
def Bridge.readyIn (b : Bridge) (ch : Nat) : Option TunnelReq := b.tx.find? (fun r => r.channel == ch && b.mayStart r)

/-- The first request from the channels in round-robin order. -/
def Bridge.nextReq (b : Bridge) : Option TunnelReq :=
  (List.range 8).findSome? (fun k => b.readyIn ((b.turn + k) % 8))

/-- The first element equal to x leaves a list. -/
def eraseFirst {α : Type} [BEq α] (l : List α) (x : α) : List α := l.erase x

/-- The segment that goes next, and the bridge without it, in the precedence of R334. -/
def Bridge.pick (b : Bridge) : Option (Segment × Bridge) :=
  match b.replies with
  | g :: t => some (g, { b with replies := t })
  | [] =>
    match b.seconds with
    | g :: t => some (g, { b with seconds := t })
    | [] =>
      match b.nextReq with
      | some r =>
        let c := b.creditOf r.channel r.peer
        let b1 := if r.peer = 0xFFFF then b else b.setCredit { c with sent := (c.sent + 1) % 256 }
        some (r.seg, { b1 with
          tx := eraseFirst b.tx r, seconds := b.seconds ++ r.next.toList, turn := (r.channel + 1) % 8,
          txFrames := updNth b.txFrames r.channel 0 (fun n => sat32 n 1) })
      | none =>
        match b.credits with
        | g :: t => some (g, { b with credits := t })
        | [] => none

/-- The channel whose consumptions a segment to a peer reports: one with unreported consumptions, else its own. -/
def Bridge.reportChannel (b : Bridge) (ch peer : Nat) : Nat :=
  (((b.credit.filter (fun c => c.peer == peer && decide (0 < c.unreported))).map (·.channel)).head?).getD ch

/-- A segment as the payload of a dynamic frame: the header of Table 16-3, most significant byte first, and the data, padded to whole words
(R331). -/
def segmentBytes (g : Segment) : List Byte :=
  let l := leBytes 1 g.kind ++ leBytes 1 (16 * g.channel + 2 * b2n g.last + b2n g.reset) ++ beBytes 2 g.dest ++ beBytes 2 g.tag ++
    leBytes 1 g.index ++ leBytes 1 (32 * g.creditChannel + 16 * b2n g.creditValid) ++ leBytes 1 g.consumed ++ leBytes 1 g.detail ++
    beBytes 2 g.data.length ++ g.data
  l ++ List.replicate (4 * ceilDiv l.length 4 - l.length) 0

/-- The segment leaves with its credit fields; a credit-only segment for the same report is no longer due (Table 16-7). -/
def Bridge.send (b : Bridge) (me : Nat) (g : Segment) : Bridge :=
  if g.dest = 0xFFFF then { b with sent := { g with sender := me } :: b.sent }
  else
    let ch := if g.kind = 7 then g.channel else b.reportChannel g.channel g.dest
    let c := b.creditOf ch g.dest
    let b := b.setCredit { c with unreported := 0 }
    { b with credits := b.credits.filter (fun h => !(h.channel == ch && h.dest == g.dest && !h.reset)),
             sent := { g with sender := me, creditChannel := ch, creditValid := true, consumed := c.mine } :: b.sent }

/-- The segment that the node starts in minislot m of d: its identifier is the counter, and the frame fits. -/
def State.ownSegment (s : State) (d m : Nat) : Option (Segment × Bridge) :=
  if s.bridge.on ∧ s.net.sends ∧ s.net.dynamicIds.contains m then s.bridge.pick.filter (fun q => fitsSegment d m (Segment.words q.1))
  else none

/-- The dynamic frame of the segment just sent leaves on the node's ports (R237, R254). -/
def State.emitSegment (s : State) (m : Nat) : State :=
  match s.bridge.sent.head? with
  | some g => s.emitOwn (s.ownFrame 4 m s.nodeFlags (segmentBytes g)) []
  | none => s

/-- One minislot: the owner of the identifier sends a pending segment that fits, whether or not another node sends too; the counter goes
past the last minislot that a frame occupies, or past the empty minislot. `heard` is the length in words of another node's frame. -/
def State.minislotStep (s : State) (heard : Option Nat) : State :=
  let d := (s.net.imp.map (·.minislots)).getD 0
  let m := s.net.minislot
  let other := (heard.map minislotsOf).getD 0
  let advance (s : State) (k : Nat) : State := { s with net := { s.net with minislot := m + max 1 k } }
  if d < m then s
  else match s.ownSegment d m with
    | some (g, b) => advance (({ s with bridge := b.send s.me g } : State).emitSegment m) (max other (minislotsOf (Segment.words g)))
    | none => advance s other

def execMinislot (heard : Option Nat) (s : State) : Host.Outcome State Fault Refusal :=
  if s.netOn ∧ s.net.mode = .running then .next (s.minislotStep heard) else .next s

/-! ### Reads and writes (R335 to R337) -/

/-- Status of a read that ends with a detail. -/
def detailStatus (detail : Nat) : Status :=
  match detail with
  | 0x00 => .done
  | 0x02 => .refused
  | 0x03 => .refused
  | 0x05 => .busy
  | _ => .state

/-- A read or write leaves its table; a write that waited for its place may go. -/
def Bridge.retire (b : Bridge) (t : Txn) : Bridge := { b with txns := eraseFirst b.txns t }

/-- A read ends: its entry of type 0x0083. -/
def State.endRead (s : State) (t : Txn) (detail : Nat) (data : List Byte) : State :=
  let s := s.updBridge (fun b => b.retire t)
  s.deliverEntry t.channel t.peer false (s.tunnelEntry 0x0083 t.tag t.peer 0xFF (detailStatus detail) detail data)

/-- A write ends; with a detail it leaves an error record (R336). -/
def State.endWrite (s : State) (t : Txn) (detail : Nat) : State :=
  let s := s.updBridge (fun b => b.retire t)
  if detail = 0 then s
  else s.raise evBrgWriteError (leBytes 1 t.channel ++ leBytes 1 detail ++ leBytes 2 t.tag ++ leBytes 2 t.peer ++ leBytes 4 t.addr)

def State.endTxn (s : State) (detail : Nat) (t : Txn) : State := if t.isRead then s.endRead t detail [] else s.endWrite t detail

def execReadTimeout (tag : Nat) (s : State) : Host.Outcome State Fault Refusal :=
  match s.bridge.reads.find? (fun t => t.tag == tag) with
  | some t => if s.power.running then .next (s.endRead t 0x01 []) else .next s
  | none => .next s

def execBrgWriteError (tag detail : Nat) (s : State) : Host.Outcome State Fault Refusal :=
  match s.bridge.writes.find? (fun t => t.tag == tag) with
  | some t => if s.power.running ∧ detail ≠ 0 then .next (s.endWrite t detail) else .next s
  | none => .next s

/-! ### Received segments (R331 to R333) -/

/-- A peer's reset (R333, Table 16-7). -/
def State.peerReset (s : State) (ch peer : Nat) : State :=
  let mine (r : Reassembly) : Bool := r.channel == ch && r.peer == peer && !r.whole
  let s := s.updBridge (fun b =>
    let b := b.setCredit (.fresh ch peer)
    { b with reasm := b.reasm.filter (fun r => !mine r), seconds := b.seconds.filter (fun g => !(g.channel == ch && g.dest == peer)) })
  let s := (s.bridge.txns.filter (fun t => t.channel == ch && t.peer == peer)).foldl (State.endTxn · 0x04 ·) s
  s.raise evBrgPeerReset (leBytes 1 ch ++ leBytes 2 peer)

/-- The segment comes from a peer of its channel and names this module. -/
def State.segmentFor (s : State) (g : Segment) : Bool :=
  s.bridgeOn && decide (g.channel < 8) && (s.peers g.channel).contains g.sender && (g.dest == s.me || g.dest == 0xFFFF)

/-- The credit report that a segment carries. -/
def Bridge.credited (b : Bridge) (g : Segment) : Bridge :=
  if g.creditValid then b.setCredit { b.creditOf g.creditChannel g.sender with consumed := g.consumed % 256 } else b

/-- A whole Ethernet frame: its CRC-32 is checked and stripped. -/
def State.ethernetIn (s : State) (ch peer tag : Nat) (credited : Bool) (data : List Byte) : State :=
  let n := data.length - 4
  let frame := data.take n
  if 4 ≤ data.length ∧ crcOf 1 frame = leNat (data.drop n) then
    s.deliverEntry ch peer credited (s.tunnelEntry 0x0081 tag peer 0xFF .done 0 frame)
  else s.updBridge (fun b => (if credited then b.consume ch peer else b).drop)

/-- Buffers of a channel and peer in use. -/
def Bridge.buffers (b : Bridge) (ch peer : Nat) : Nat := (b.reasm.filter (fun r => r.channel == ch && r.peer == peer)).length

/-- A segment of an Ethernet frame. -/
def State.ethernetSegment (s : State) (g : Segment) : State :=
  let credited := g.dest != 0xFFFF
  let isMine (r : Reassembly) : Bool := r.channel == g.channel && r.peer == g.sender && r.tag == g.tag && !r.whole
  if g.index = 0 then
    if 4 ≤ s.bridge.buffers g.channel g.sender then s.updBridge Bridge.drop
    else if g.last then s.ethernetIn g.channel g.sender g.tag credited g.data
    else s.updBridge (fun b => { b with reasm := b.reasm ++
      [{ channel := g.channel, peer := g.sender, tag := g.tag, data := g.data, credited := credited, whole := false, entry := none }] })
  else match s.bridge.reasm.find? isMine with
    | none => s
    | some r =>
      (s.updBridge (fun b => { b with reasm := eraseFirst b.reasm r })).ethernetIn g.channel g.sender g.tag r.credited (r.data ++ g.data)

/-- A telegram whose length or CRC does not hold (R339, Table 2-8). -/
def telegramBad (t : Telegram) : Bool :=
  t.length != t.data.length || t.length == 0 || decide (250 < t.length) || crcOf 2 t.data != t.crc.toNat

/-- A telegram out of the tunnel: its CRC is checked before the port gets it (R35, R339). -/
def State.telegramOut (s : State) (p : Nat) (t : Telegram) : State :=
  if telegramBad t then s.raise evBrgSerialError (leBytes 1 p) else s.sendTelegram p t

/-- What a segment asks or answers. The module has no side-band space of its own: a read or write of it is answered with
detail 0x02. -/
def State.segmentIn (s : State) (g : Segment) : State :=
  match g.kind with
  | 0x01 => s.ethernetSegment g
  | 0x02 => (s.updBridge (fun b => (b.consume g.channel g.sender).delivered g.channel)).telegramOut (min g.detail 1) (telegramIn g.data)
  | 0x03 => s.updBridge (fun b => { b.consume g.channel g.sender with replies := b.replies ++ [segment 4 g.channel g.sender g.tag 0x02 []] })
  | 0x04 =>
    match s.bridge.reads.find? (fun t => t.tag == g.tag && t.channel == g.channel && t.peer == g.sender) with
    | some t => s.endRead t g.detail (if g.detail = 0 then g.data else [])
    | none => s.updBridge Bridge.drop
  | 0x05 => s.updBridge (fun b => { b.consume g.channel g.sender with replies := b.replies ++ [segment 6 g.channel g.sender g.tag 0x02 []] })
  | 0x06 =>
    match s.bridge.writes.find? (fun t => t.tag == g.tag && t.channel == g.channel && t.peer == g.sender) with
    | some t => s.endWrite t g.detail
    | none => s
  | _ => s

def execTunnelSegment (g : Segment) (s : State) : Host.Outcome State Fault Refusal :=
  if s.segmentFor g then
    let t := if g.reset then s.peerReset g.channel g.sender else s
    .next ((t.updBridge (fun b => b.credited g)).segmentIn g)
  else .next s

def execPeerReset (g : Segment) (s : State) : Host.Outcome State Fault Refusal :=
  if s.segmentFor g ∧ g.reset then .next (s.peerReset g.channel g.sender) else .next s

/-- A credit-only segment becomes due (R332). -/
def execCreditReport (channel peer : Nat) (s : State) : Host.Outcome State Fault Refusal :=
  if s.bridgeOn ∧ channel < 8 ∧ (s.peers channel).contains peer ∧
      !s.bridge.credits.any (fun g => g.channel == channel && g.dest == peer) then
    .next (s.updBridge (fun b => { b with credits := b.credits ++ [segment 7 channel peer 0 0 []] }))
  else .next s

/-- A frame that misses a segment is freed and counted (R335). -/
def execBrgReasmTimeout (channel peer : Nat) (s : State) : Host.Outcome State Fault Refusal :=
  match s.bridge.reasm.find? (fun r => r.channel == channel && r.peer == peer && !r.whole) with
  | some r =>
    if s.bridgeOn then
      .next ((s.updBridge (fun b =>
        let b := { b with reasm := eraseFirst b.reasm r }
        (if r.credited then b.consume channel peer else b).drop)).raise evBrgReasmTimeout (leBytes 1 channel ++ leBytes 2 peer))
    else .next s
  | none => .next s

/-- The oldest entry that waits for the receive queue of a channel is discarded (R338). -/
def execBrgDiscard (channel : Nat) (s : State) : Host.Outcome State Fault Refusal :=
  match s.bridge.reasm.find? (fun r => r.channel == channel && r.entry.isSome) with
  | some r =>
    if s.power.running then
      .next ((s.updBridge (fun b =>
        let b := { b with reasm := eraseFirst b.reasm r }
        if r.credited then b.consume channel r.peer else b)).discard channel r.tag)
    else .next s
  | none => .next s

/-! ### RS-485 rows -/

/-- A telegram received on a port (R339, R340). -/
def State.telegramOn (s : State) (p : Nat) (t : Telegram) : State :=
  if telegramBad t then
    s.raise evBrgSerialError (leBytes 1 p)
  else if s.portMode p = 1 then
    s.deliverEntry (6 + p) s.me false (s.tunnelEntry 0x0082 0 s.me p .done 0 t.data)
  else
    let ch := 6 + p
    let peer := s.inUse (0x1008 + p)
    if (s.peers ch).contains peer then
      s.updBridge (fun b => (b.request (plainReq ch peer (segment 2 ch peer b.seq (s.inUse (0x100A + p)) (Telegram.bytes t)))).nextSeq)
    else s.updBridge Bridge.drop

def execTelegramReceive (port : Nat) (t : Telegram) (s : State) : Host.Outcome State Fault Refusal :=
  if s.bridgeOn ∧ port < 2 ∧ s.portMode port ≠ 0 then .next (s.telegramOn port t) else .next s

/-- A gap inside a telegram abandons it: nothing of it has been delivered, and nothing is (R339). -/
def execTelegramGap (_port : Nat) (s : State) : Host.Outcome State Fault Refusal := .next s

/-- A transmission ends: the driver is released, and the next telegram that waits is started (R339, R340). -/
def State.telegramDone (s : State) (p : Nat) : State :=
  let q := s.serial p
  match q.waiting with
  | t :: rest => s.setSerial p { q with sending := true, waiting := rest, out := t :: q.out }
  | [] => s.setSerial p { q with sending := false }

def execTelegramSent (port : Nat) (s : State) : Host.Outcome State Fault Refusal :=
  if s.bridgeOn ∧ port < 2 ∧ (s.serial port).sending then .next (s.telegramDone port) else .next s

/-! ### Side-band polls (R341) -/

def Bridge.poll (b : Bridge) (slot : Nat) : Poll :=
  (b.polls.find? (fun p => p.slot == slot)).getD { slot := slot, block := [], ageNs := 0, fails := 0, lost := false }

def Bridge.setPoll (b : Bridge) (p : Poll) : Bridge :=
  { b with polls := sortBy (fun x y => decide (x.slot ≤ y.slot)) (b.polls.filter (fun q => q.slot != p.slot) ++ [p]) }

/-- One poll of a slot with the 64-byte block it brought, or none. -/
def State.pollStep (s : State) (slot node : Nat) (block : Option (List Byte)) : State :=
  let p := s.bridge.poll slot
  match block with
  | some d =>
    let t := s.updBridge (fun b => b.setPoll { p with block := (d ++ List.replicate 64 0).take 64, ageNs := 0, fails := 0, lost := false })
    if p.lost then t.raise evBrgPollBack (leBytes 2 node) else t
  | none =>
    let lost := p.lost || decide (3 ≤ p.fails + 1)
    let t := s.updBridge (fun b => b.setPoll { p with fails := p.fails + 1, lost := lost })
    if lost ∧ !p.lost then t.raise evBrgPollLost (leBytes 2 node) else t

def execSideBandPoll (slot : Nat) (block : Option (List Byte)) (s : State) : Host.Outcome State Fault Refusal :=
  let node := s.inUse (0x2C00 + slot)
  if s.bridgeOn ∧ slot < 64 ∧ node ≠ 0 then .next (s.pollStep slot node block) else .next s

/-! ### Commands (R342) -/

/-- A segment with the reset flag to every listed peer (R333). -/
def State.resetSegments (s : State) : List Segment :=
  (List.range 8).flatMap (fun ch => (s.peers ch).eraseDups.map (fun p => { segment 7 ch p 0 0 [] with reset := true }))

/-- The bridge starts with fresh credits and the stored set of its parameters. -/
def State.startBridge (s : State) : State :=
  let s := s.applyParams isBridgeParam
  s.updBridge (fun b => { b with on := true, paused := [], credit := [], seconds := [], replies := [], credits := s.resetSegments })

def State.brgStart (s : State) (o : Outstanding) (profile : Nat) : State :=
  if s.net.dynamicIds.isEmpty then s.answer o .state 0 []
  else
    let p := if profile = 0 then 0 else 1
    let s := if p = 1 then s.defaultParams isBridgeParam else s
    s.startBridge.answer o .done 0 (leBytes 1 p)

def execBrgStart (e : Entry) (s : State) : Host.Outcome State Fault Refusal :=
  .next (s.command 0x1001 true true e (fun o s =>
    if Entry.size e 1 then s.brgStart o (Entry.field e 0 1) else s.badPayload o))

/-- Every outstanding read and write ends with detail 0x04, and the bridge stops; transmit queues keep their entries. -/
def State.stopBridge (s : State) : State :=
  let s := s.bridge.txns.foldl (State.endTxn · 0x04 ·) s
  let held := (List.range 8).filter (fun ch => (s.host.queue (48 + ch)).used != 0)
  s.updBridge (fun b => { b with on := false, paused := held, tx := [], replies := [], seconds := [], credits := [],
                                 reasm := b.reasm.filter (·.whole) })

def execBrgStop (e : Entry) (s : State) : Host.Outcome State Fault Refusal :=
  .next (s.command 0x1002 true true e (fun o s =>
    s.stopBridge.answer o .done 0 []))

/-- `brg.status`: running flag, outstanding reads, drops, frames sent and delivered per channel (DESIGN CHOICE, log 16). -/
def Bridge.report (b : Bridge) : List Byte :=
  leBytes 1 (if b.on then 1 else 0) ++ leBytes 3 0 ++ leBytes 4 b.reads.length ++ leBytes 4 b.drops ++
  b.txFrames.flatMap (leBytes 4) ++ b.rxFrames.flatMap (leBytes 4)

def execBrgStatus (e : Entry) (s : State) : Host.Outcome State Fault Refusal :=
  .next (s.command 0x1003 false true e (fun o s =>
    s.answer o .done 0 s.bridge.report))

/-- `brg.poll_status` names a node; it answers the node, the age of its last block in ms, and the block (log 16). -/
def State.pollReport (s : State) (o : Outstanding) (node : Nat) : State :=
  match (List.range 64).find? (fun k => s.inUse (0x2C00 + k) == node && node != 0) with
  | none => s.answer o .state 0 []
  | some k =>
    let p := s.bridge.poll k
    s.answer o .done 0 (leBytes 2 node ++ leBytes 2 p.fails ++ leBytes 4 (p.ageNs / 1000000) ++ p.block)

def execBrgPollStatus (e : Entry) (s : State) : Host.Outcome State Fault Refusal :=
  .next (s.command 0x1004 false true e (fun o s =>
    if Entry.size e 2 then s.pollReport o (Entry.field e 0 2) else s.badPayload o))

/-- The bridge at a restart: frames in flight are lost with the network; a running bridge resets its peers (R333). A start of the
steward leaves it stopped. -/
def State.bridgeRestart (s : State) (full : Bool) : State :=
  if full then { s with bridge := { Bridge.reset with drops := 0 } }
  else
    let s := s.bridge.txns.foldl (State.endTxn · 0x04 ·) s
    s.updBridge (fun b => { b with tx := [], replies := [], seconds := [], credit := [], reasm := b.reasm.filter (·.whole),
                                   credits := if b.on then s.resetSegments else [], s0 := .reset, s1 := .reset })

end Sys2Proof.Machine
end

