-- ==== Sys2Proof/Machine/Token.lean ====
section
/-! DEFINITION. Signed tokens (R368 to R370) and the writing of the life-cycle record (R371). -/

namespace Sys2Proof.Machine

/-- A change of the life-cycle record goes over the older copy, with the sequence one higher (R371). -/
def State.writeLife (s : State) (f : Life → Life) : State :=
  { s with lifeOlder := s.life, life := { f s.life with seq := s.life.seq + 1 } }

/-! ### Fields of a token (Table 18-3) -/

def tokKind (t : List Byte) : Nat := fieldAt t 5 1
def tokSigner (t : List Byte) : Nat := fieldAt t 6 1
def tokIndex (t : List Byte) : Nat := fieldAt t 7 1
def tokSeq (t : List Byte) : Nat := fieldAt t 0x10 4
def tokBodyLen (t : List Byte) : Nat := fieldAt t 0x14 2

/-- The body of a token. -/
def tokBody (t : List Byte) : List Byte := (t.drop 0x18).take (tokBodyLen t)

/-- Body length of each kind (Table 18-4). -/
def tokBodySize : Nat → Nat
  | 0x01 => 4
  | 0x02 => 68
  | 0x03 => 60
  | 0x04 => 60
  | 0x05 => 76
  | 0x06 => 4
  | 0x07 => 4
  | 0x08 => 68
  | 0x09 => 4
  | 0x0A => 8
  | _ => 0

/-- Bytes of a token with a body of b bytes: header, body, signature. -/
def tokSize (b : Nat) : Nat := 0x18 + b + 114

/-- The payload holds the token: its header, and every byte of a token whose body length is its kind's. A body length that is not
fails step 1 of R369 whatever follows. -/
def tokSized (t : List Byte) : Bool :=
  decide (0x18 ≤ t.length) && (tokBodyLen t != tokBodySize (tokKind t) || decide (tokSize (tokBodyLen t) ≤ t.length))

/-! ### The checks of R369 -/

/-- ASCII "PSXT". -/
def tokMagic : Nat := 0x54585350

def signerRoot : Nat := 1
def signerAuthority : Nat := 2
def signerMaintainer : Nat := 3

/-- The signer that Table 18-2 names for a transition; none for a pair outside the table. -/
def transitionSigner : Nat → Nat → Option Nat
  | 0, 1 => some signerRoot
  | 1, 2 => some signerAuthority
  | 2, 3 => some signerMaintainer
  | 3, 2 => some signerMaintainer
  | 3, 1 => some signerAuthority
  | 0, 4 => some signerRoot
  | 1, 4 => some signerAuthority
  | 2, 4 => some signerAuthority
  | 3, 4 => some signerAuthority
  | _, _ => none

/-- The signer may sign the kind in the present state (Table 18-4). A transition outside Table 18-2 has no signer: its command
answers `STATE` (DEDUCED, log 26). -/
def State.maySign (s : State) (t : List Byte) : Bool :=
  let who := tokSigner t
  match tokKind t with
  | 0x01 => match transitionSigner s.life.state.code (fieldAt (tokBody t) 1 1) with
    | some w => who == w
    | none => true
  | 0x02 => who == signerRoot && s.life.state == .commissioning
  | 0x03 => who == signerAuthority
  | 0x04 => who == (if s.life.state = .manufacture then signerRoot else signerAuthority)
  | _ => who == signerMaintainer

/-- Index of a signer's token counter (R370): root, authority, maintainers 0 to 7. -/
def tokCounter (t : List Byte) : Nat := if tokSigner t = signerMaintainer then 2 + tokIndex t else tokSigner t - 1

/-- The signer's public key; all zero means none is held. -/
def State.signerKey (s : State) (t : List Byte) : KeyBits :=
  if tokSigner t = signerRoot then s.ident.rootKey
  else if tokSigner t = signerAuthority then s.life.authority
  else nthD s.life.maintainer (tokIndex t) 0

/-- A signature verifies under a key that is held; a failed crypto island accepts none (Table 18-5). -/
def State.verifies (s : State) (key : KeyBits) (sig : Sig) : Bool :=
  sig.ok && sig.key == key && key != 0 && !s.power.cryptoDown

/-- The first failing step of R369 for a command that takes the given kinds; 0 when all five pass. -/
def State.tokenFail (s : State) (kinds : List Nat) (t : List Byte) (sig : Sig) : Nat :=
  if fieldAt t 0 4 ≠ tokMagic ∨ fieldAt t 4 1 ≠ 1 ∨ !kinds.contains (tokKind t) ∨ tokBodyLen t ≠ tokBodySize (tokKind t) then 1
  else if !s.maySign t then 2
  else if fieldAt t 8 8 ≠ s.ident.serial then 3
  else if !s.verifies (s.signerKey t) sig then 4
  else if tokSeq t ≤ nthD s.life.counters (tokCounter t) 0 then 5
  else 0

/-- The sequence number becomes the signer's counter before the command acts. -/
def State.countToken (s : State) (t : List Byte) : State :=
  (s.writeLife (fun f => { f with counters := setNth f.counters (tokCounter t) (tokSeq t) })).recordBatch
    [recKeep 0x0721 0 (leBytes 1 (tokKind t) ++ leBytes 1 (tokSigner t) ++ leBytes 1 (tokIndex t) ++ leBytes 1 0 ++ leBytes 4 (tokSeq t))]

/-- A refused token: `AUTH`, and `ev.token_refused` with the step. -/
def State.refuseToken (s : State) (o : Outstanding) (step : Nat) : State :=
  (s.answer o .auth 0 []).raiseWith evTokenRefused (leBytes 1 step) [recCount 0x0720 step]

/-- A command under a token: checked, counted, and only then acting (R369). -/
def State.withToken (s : State) (o : Outstanding) (kinds : List Nat) (t : List Byte) (sig : Sig) (run : State → State) : State :=
  if !tokSized t then s.badPayload o
  else match s.tokenFail kinds t sig with
    | 0 => run (s.countToken t)
    | n => s.refuseToken o n

end Sys2Proof.Machine
end

