-- ==== Sys2Proof/Machine/Life.lean ====
section
/-! DEFINITION. The life cycle (R365 to R367, R370, R371): `lcs.transition`, `lcs.key_write` and `lcs.status`. -/

namespace Sys2Proof.Machine

/-- State of a code of Table 18-1. -/
def lifeOf : Nat → Option LifeState
  | 0 => some .manufacture
  | 1 => some .commissioning
  | 2 => some .operation
  | 3 => some .maintenance
  | 4 => some .retired
  | _ => none

/-- Some lane in service holds a vital force (R171). -/
def State.vitalForce (s : State) : Bool := s.lanesIn.any (fun l => (s.lanes.get l).core.frisket.any (fun q => q.flags.testBit 0))

/-- A trial runs: update state 4 (R359). -/
def State.trialRuns (s : State) : Bool := s.update.state == 4

/-- A user proof runs or waits for its lane. -/
def Proofs.userRuns (p : Proofs) : Bool := (p.running.map (·.2)) == some 3 || (p.requested.map (·.2)) == some 3

/-- The conditions of Table 18-2 for a transition that the table has. -/
def State.transitionOk (s : State) (from_ to_ : Nat) : Bool :=
  from_ == s.life.state.code && (transitionSigner from_ to_).isSome &&
  (to_ != 2 || (s.life.authority != 0 && s.forme.isSome && !s.vitalForce && !s.trialRuns && !s.proofs.userRuns))

/-- The update session ends: staging is freed (R354). -/
def Update.endSession (u : Update) : Update := { u with state := 0, session := none, parts := [], idleS := 0 }

/-- A NAND slot with nothing verified in it. -/
def NandSlot.empty : NandSlot := { verified := false, colophon := none, chunks := [] }

/-- Slots of the forme and configuration partitions erased (R367); index (type − 1) × 2 + slot. -/
def eraseNand (l : List NandSlot) : List NandSlot := [2, 3, 4, 5].foldl (fun l i => setNth l i NandSlot.empty) l

/-- A lane unseals both slot records and both checkpoint halves (R367). -/
def LaneState.unsealAll (st : LaneState) : LaneState :=
  { st with slot0 := .empty, slot1 := .empty, writing := none, half0 := { st.half0 with isSealed := false },
            half1 := { st.half1 with isSealed := false } }

/-- An exchange that is not idle is discarded; a prepare that waits is answered `STATE`. -/
def State.dropExchange (s : State) : State :=
  let t : State := { s with xchg := { s.xchg with state := .idle, loading := false, asked := none, target := 0 } }
  match s.xchg.asked with
  | some o => t.answerOut o .state 0 []
  | none => t

/-- What entering Retired does before the record is written: the safe state, and the network as without a forme (R3), lanes
unsealed, images erased, session ended. -/
def State.retire (s : State) : State :=
  let s := (s.enterSafe causeHeld).dropExchange
  let stopped := s.net.mode == .stopped
  let s : State := { s with net := s.net.begin none 0 s.net.cycleNs, platen := { s.platen with safeCause := causeHeld } }
  let s : State := if stopped then { s with net := { s.net with mode := .stopped } } else s
  { s with lanes := s.lanes.map LaneState.unsealAll,
           update := { s.update.endSession with nand := eraseNand s.update.nand } }

/-- The life-cycle record after a transition (R366, R367). -/
def Life.entering (f : Life) (to_ : LifeState) : Life :=
  let g : Life := { f with state := to_, transitions := sat32 f.transitions 1 }
  match to_ with
  | .operation => { g with inServiceS := 0 }
  | .retired => { g with authority := 0, installation := 0, maintainer := List.replicate 8 0 }
  | _ => g

/-- An in-service proof that was asked for and has not begun is given up when the state changes: outside Operation there is none
(Table 18-1; DEDUCED, log 65). -/
def Proofs.leaveService (p : Proofs) : Proofs := if (p.requested.map (·.2)) = some 2 then { p with requested := none } else p

/-- A transition takes effect (R366). -/
def State.transition (s : State) (to_ : LifeState) : State :=
  let old := s.life.state.code
  let s : State := { s with proofs := s.proofs.leaveService }
  let s := if to_ = .retired then s.retire else s
  (s.writeLife (fun f => f.entering to_)).raiseWith evLcsChanged (leBytes 1 old ++ leBytes 1 to_.code)
    [recKeep 0x0730 0 (leBytes 1 1 ++ leBytes 1 old ++ leBytes 1 to_.code ++ leBytes 5 0)]

/-- `lcs.transition` under a token that passed. -/
def State.lcsTransition (s : State) (o : Outstanding) (t : List Byte) : State :=
  let from_ := fieldAt (tokBody t) 0 1
  let to_ := fieldAt (tokBody t) 1 1
  match lifeOf to_ with
  | some x => if s.transitionOk from_ to_ then (s.transition x).answer o .done 0 (leBytes 1 to_) else s.answer o .state 0 []
  | none => s.answer o .state 0 []

def execLcsTransition (e : Entry) (sig : Sig) (s : State) : Host.Outcome State Fault Refusal :=
  .next (s.command 0x1301 true true e (fun o s =>
    s.withToken o [0x01] (Entry.body e) sig (fun s => s.lcsTransition o (Entry.body e))))

/-- A 57-byte key of a token body. -/
def bodyKey (b : List Byte) (off : Nat) : KeyBits := BitVec.ofNat 456 (fieldAt b off 57)

/-- A key is written, replaced or erased, and its own token counter becomes 0 (R370). -/
def Life.writeKey (f : Life) (kind : Nat) (b : List Byte) : Life :=
  let i := min (fieldAt b 0 1) 7
  match kind with
  | 0x02 => { f with authority := bodyKey b 0, installation := fieldAt b 57 8, counters := setNth f.counters 1 0 }
  | 0x03 => { f with maintainer := setNth f.maintainer i (bodyKey b 1), counters := setNth f.counters (2 + i) 0 }
  | _ => { f with host := setNth f.host i (bodyKey b 1) }

/-- `lcs.key_write` under a token that passed: it answers kind and index. -/
def State.lcsKeyWrite (s : State) (o : Outstanding) (t : List Byte) : State :=
  let kind := tokKind t
  let i := if kind = 0x02 then 0 else min (fieldAt (tokBody t) 0 1) 7
  let s := (s.writeLife (fun f => f.writeKey kind (tokBody t))).recordBatch
    [recKeep 0x0730 0 (leBytes 1 2 ++ leBytes 1 kind ++ leBytes 1 i ++ leBytes 5 0)]
  s.answer o .done 0 (leBytes 1 kind ++ leBytes 1 i)

def execLcsKeyWrite (e : Entry) (sig : Sig) (s : State) : Host.Outcome State Fault Refusal :=
  .next (s.command 0x1302 true true e (fun o s =>
    s.withToken o [0x02, 0x03, 0x04] (Entry.body e) sig (fun s => s.lcsKeyWrite o (Entry.body e))))

/-- Keys held: bit 0 authority, bits 1 to 8 maintainers, bits 9 to 16 host credentials (DESIGN CHOICE, log 16). -/
def Life.keyMask (f : Life) : Nat :=
  ofMembers ((f.authority != 0) :: (f.maintainer.map (· != 0) ++ f.host.map (· != 0)))

/-- Payload of `lcs.status`. -/
def Life.report (f : Life) : List Byte :=
  leBytes 1 f.state.code ++ leBytes 3 0 ++ leBytes 4 f.keyMask ++ f.counters.flatMap (leBytes 4)

def execLcsStatus (e : Entry) (s : State) : Host.Outcome State Fault Refusal :=
  .next (s.command 0x1303 false true e (fun o s =>
    s.answer o .done 0 s.life.report))

end Sys2Proof.Machine
end

