-- ==== Sys2Proof/Machine/Proof.lean ====
section
/-! DEFINITION. Proofs (R372 to R378): the judgement of a result, in-service proofs, user proofs, and `prf.run` and
`prf.result`. -/

namespace Sys2Proof.Machine

/-! ### Results -/

/-- The end seal that a block's test controller writes after the last pattern (R373). -/
def proofSeal (block applied : Nat) (signature : Word64) : Nat :=
  crc32c (leBytes 2 block ++ leBytes 4 applied ++ leBytes 8 signature.toNat)

/-- Check values of Table 2-7, by polynomial code. -/
def crcChecks : List Nat := [0xE3069283, 0xCBF43926, 0x29B1, 0x995DC9BBDF1939FA]

/-- A CRC engine gives the four check values of Table 2-7 (R34). -/
def engineOk (r : ProofReading) : Bool := !(decide (0x30 ≤ r.block) && decide (r.block ≤ 0x37)) || r.checks == crcChecks

/-- Verdict of a reading: bit 0 signature, bit 1 count, bit 2 seal, bit 3 timeout (Table 18-6). The signature of a CRC engine is over the
four values it gives (log 2). -/
def ProofReading.verdict (r : ProofReading) (late : Bool) : Nat :=
  ofMembers [r.signature != r.wanted || !engineOk r, r.applied != r.expected,
    proofSeal r.block r.applied r.signature != r.endSeal.toNat, late]

/-- The record of a reading. -/
def ProofReading.record (r : ProofReading) (kind : Nat) (late : Bool) (seq : Nat) : ProofRec :=
  { block := r.block, kind := kind, verdict := ProofReading.verdict r late, applied := r.applied, expected := r.expected,
    signature := r.signature, endSeal := r.endSeal, recSeq := seq }

/-- Table 18-6 as bytes. -/
def ProofRec.bytes (r : ProofRec) : List Byte :=
  leBytes 2 r.block ++ leBytes 1 r.kind ++ leBytes 1 r.verdict ++ leBytes 4 r.applied ++ leBytes 4 r.expected ++
  leBytes 8 r.signature.toNat ++ leBytes 4 r.endSeal.toNat ++ leBytes 8 r.recSeq

/-- A result takes the place of the last one of its block and kind. -/
def Proofs.store (p : Proofs) (r : ProofRec) : Proofs :=
  { p with results := p.results.filter (fun q => !(q.block == r.block && q.kind == r.kind)) ++ [r] }

/-- A result is stored and handed to the recorder (R373). -/
def State.storeProof (s : State) (r : ProofRec) : State :=
  ({ s with proofs := s.proofs.store r } : State).recordBatch [recKeep (0x0900 + r.block) 0 r.bytes]

/-! ### Blocks -/

/-- The blocks of Table 18-5. -/
def isBlock (b : Nat) : Bool :=
  (decide (0x01 ≤ b) && decide (b ≤ 0x03)) || (decide (0x10 ≤ b) && decide (b ≤ 0x15)) || b == 0x18 ||
  (decide (0x20 ≤ b) && decide (b ≤ 0x24)) || (decide (0x30 ≤ b) && decide (b ≤ 0x39)) || b == 0x40

def blockLane (b : Nat) : Option LaneId := if 0x01 ≤ b ∧ b ≤ 0x03 then some (LaneId.ofNum (b - 1)) else none
def blockBank (b : Nat) : Option Nat := if 0x10 ≤ b ∧ b ≤ 0x15 then some (b - 0x10) else none
def blockPort (b : Nat) : Option PortId :=
  match b with
  | 0x20 => some .xe
  | 0x21 => some .xw
  | 0x22 => some .ye
  | 0x23 => some .yw
  | _ => none

/-- Blocks that cannot be isolated in service (R378). -/
def blockFixed (b : Nat) : Bool := b == 0x18 || b == 0x24 || b == 0x39 || b == 0x40

/-- A bank is blocked under R63: a vital bank in every lane, a universal bank at the field side. -/
def State.barBank (s : State) (bank : Nat) : State :=
  if bank < 4 then { s with field := { s.field with ubankBlocked := insertOnce s.field.ubankBlocked bank } }
  else { s with lanes := s.lanes.map (fun st => { st with core := { st.core with bankBlocked := insertOnce st.core.bankBlocked bank } }) }

/-- The block that a user proof laid on a bank is lifted. A lane that has meanwhile blocked the bank for a fault keeps it (R63). -/
def State.freeBank (s : State) (bank : Nat) : State :=
  if bank < 4 then { s with field := { s.field with ubankBlocked := removeAll s.field.ubankBlocked bank } }
  else { s with lanes := s.lanes.map (fun st => if st.core.bankFaults.contains bank then st else
    { st with core := { st.core with bankBlocked := removeAll st.core.bankBlocked bank } }) }

/-- A bank is blocked. -/
def State.bankBlocked (s : State) (bank : Nat) : Bool :=
  if bank < 4 then s.field.ubankBlocked.contains bank
  else LaneId.all.any (fun l => (s.lanes.get l).core.bankBlocked.contains bank)

/-- A port is held down: a link that was up is lost (R231). -/
def State.holdPort (s : State) (p : PortId) : State :=
  let s := if (s.net.ports.get p).mode = .up then s.linkLost p 4 else s
  s.setPort p (fun q => { q with heldDown := true, mode := .down, joined := false })

/-- Effect of the failure of a block in service (Table 18-5). A lane is excluded (R376). -/
def State.blockFails (s : State) (b : Nat) : State :=
  match blockLane b, blockBank b, blockPort b with
  | some l, _, _ => if s.platen.lanes.get l = .isolated then s.exclude l 8 else s
  | _, some k, _ => s.barBank k
  | _, _, some p => s.holdPort p
  | _, _, _ =>
    match b with
    | 0x18 => ({ s with field := { s.field with link := false } } : State).raise evFieldLink (leBytes 1 0)
    | 0x24 => { s with net := { s.net with engineBad := true, mode := .stopped } }
    | 0x38 => { s with power := { s.power with cryptoDown := true } }
    | _ => s

/-- What the end of a passing proof gives back: a lane rejoins at the next cycle, a bank or port serves again unless it
was out before its proof. -/
def State.blockPasses (s : State) (b : Nat) : State :=
  match blockLane b, blockBank b, blockPort b with
  | some l, _, _ =>
    if s.platen.lanes.get l = .isolated then { s with proofs := { s.proofs with rejoin := some l } } else s
  | _, some k, _ => if s.proofs.wasBlocked then s else s.freeBank k
  | _, _, some p => if s.proofs.wasBlocked then s else s.setPort p (fun q => { q with heldDown := false })
  | _, _, _ => s

/-- A running proof ends with a reading (R372, R373). -/
def State.endProof (s : State) (r : ProofReading) (kind : Nat) (late : Bool) : State :=
  let rec_ := ProofReading.record r kind late s.recorder.seq
  let s : State := { s with proofs := { s.proofs with running := none } }
  let s := s.storeProof rec_
  let s := if rec_.verdict = 0 then (s.blockPasses r.block).raise evProofPass (leBytes 2 r.block ++ leBytes 1 kind)
    else (s.blockFails r.block).raise evProofFail (leBytes 2 r.block ++ leBytes 1 kind ++ leBytes 1 rec_.verdict)
  { s with proofs := { s.proofs with wasBlocked := false } }

/-- The proof that runs is of the block that a reading names. -/
def State.proofOf (s : State) (r : ProofReading) : Option Nat :=
  match s.proofs.running with
  | some (b, k) => if s.power.running ∧ b = r.block then some k else none
  | none => none

def execProofComplete (r : ProofReading) (s : State) : Host.Outcome State Fault Refusal :=
  match s.proofOf r with
  | some k => .next (s.endProof r k false)
  | none => .next s

/-- Twice the block's duration has passed without an end seal (R372). -/
def execProofTimeout (r : ProofReading) (s : State) : Host.Outcome State Fault Refusal :=
  match s.proofOf r with
  | some k => .next (s.endProof r k true)
  | none => .next s

/-! ### The in-service proof (R375, R376) -/

/-- 24 h. -/
def inServicePeriod : Nat := 86400

/-- The lane after another in the order A, B, C. -/
def nextLane : LaneId → LaneId
  | .a => .b
  | .b => .c
  | .c => .a

/-- A proof runs or is requested. -/
def Proofs.busy (p : Proofs) : Bool := p.running.isSome || p.requested.isSome || p.rejoin.isSome

def execInServiceProofRequest (s : State) : Host.Outcome State Fault Refusal :=
  if s.power.running ∧ s.host.stewardUp ∧ s.life.state = .operation ∧ inServicePeriod ≤ s.life.inServiceS ∧ !s.proofs.busy then
    .next { s with proofs := { s.proofs with requested := some (s.proofs.nextLane, 2) } }
  else .next s

def execProofDeferred (s : State) : Host.Outcome State Fault Refusal :=
  match s.proofs.requested with
  | some (l, 2) => if s.power.running then .next (s.raise evProofDeferred (leBytes 1 l.num)) else .next s
  | _ => .next s

/-- The conditions of R375 at the close of a cycle. -/
def State.isolationOk (s : State) : Bool :=
  s.power.running && !s.platen.cycleOpen && s.forme.isSome && !s.platen.safe && s.xchg.state == .idle && s.platen.overrunRun == 0 &&
  LaneId.all.all (fun l => s.platen.lanes.get l == .inService 0 && !(s.lanes.get l).held)

/-- The lane becomes isolated for proof: its gate drive stops, it writes no checkpoint, and the proof of its block starts
(R376). -/
def State.isolate (s : State) (l : LaneId) (kind : Nat) : State :=
  let s := s.updLane l (fun st => { st with gate := false, writing := none })
  let s : State := { s with
    platen := { s.platen with lanes := s.platen.lanes.set l .isolated },
    proofs := { s.proofs with running := some (1 + l.num, kind), requested := none,
                              nextLane := if kind = 2 then nextLane l else s.proofs.nextLane },
    life := if kind = 2 then { s.life with inServiceS := 0 } else s.life }
  s.raise evProofStarted (leBytes 2 (1 + l.num) ++ leBytes 1 kind)

def execLaneIsolation (s : State) : Host.Outcome State Fault Refusal :=
  match s.proofs.requested with
  | some (l, k) => if s.isolationOk then .next (s.isolate l k) else .next s
  | none => .next s

/-! ### User proofs (R378) -/

/-- A user proof starts at once: with a forme running, a bank is blocked and a port held down for its duration. -/
def State.startProof (s : State) (b : Nat) : State :=
  let was := match blockBank b, blockPort b with
    | some k, _ => s.bankBlocked k
    | _, some p => (s.net.ports.get p).heldDown
    | _, _ => false
  let t := if s.forme.isSome then
      match blockBank b, blockPort b with
      | some k, _ => s.barBank k
      | _, some p => s.holdPort p
      | _, _ => s
    else s
  let t : State := { t with proofs := { t.proofs with running := some (b, 3), wasBlocked := was } }
  t.raise evProofStarted (leBytes 2 b ++ leBytes 1 3)

/-- `prf.run`: a block that Table 18-5 does not have is answered `UNKNOWN` (DESIGN CHOICE, log 16). -/
def State.prfRun (s : State) (o : Outstanding) (b : Nat) : State :=
  if s.life.state = .operation ∨ s.life.state = .retired then s.answer o .state 0 []
  else if !isBlock b then s.answer o .unknown 0 []
  else if s.proofs.busy then s.answer o .busy 0 []
  else if s.forme.isSome ∧ blockFixed b then s.answer o .state 0 []
  else match blockLane b with
    | some l =>
      if s.forme.isSome then
        ({ s with proofs := { s.proofs with requested := some (l, 3) } } : State).answer o .done 0 (leBytes 2 b)
      else (s.startProof b).answer o .done 0 (leBytes 2 b)
    | none => (s.startProof b).answer o .done 0 (leBytes 2 b)

def execPrfRun (e : Entry) (s : State) : Host.Outcome State Fault Refusal :=
  .next (s.command 0x1401 true true e (fun o s =>
    if Entry.size e 4 then s.prfRun o (Entry.field e 0 2) else s.badPayload o))

/-- The last records of a block, by kind. -/
def Proofs.recordsOf (p : Proofs) (b : Nat) : List Byte :=
  (sortBy (fun x y => decide (x.kind ≤ y.kind)) (p.results.filter (fun r => r.block == b))).flatMap ProofRec.bytes

def execPrfResult (e : Entry) (s : State) : Host.Outcome State Fault Refusal :=
  .next (s.command 0x1402 false true e (fun o s =>
    if !Entry.size e 4 then s.badPayload o
    else if isBlock (Entry.field e 0 2) then s.answer o .done 0 (s.proofs.recordsOf (Entry.field e 0 2))
    else s.answer o .unknown 0 []))

end Sys2Proof.Machine
end

