-- ==== Sys2Proof/Machine/Boot.lean ====
section
/-! DEFINITION. Boot records and what a start-up boots (R355 to R361), the load checks of Table 4-22 on an image, and the
lanes' forme slots (R86, R164, R360). -/

namespace Sys2Proof.Machine

/-! ### Boot records (Table 17-5) -/

/-- The valid record with the higher sequence. -/
def Update.winner (u : Update) : Option BootRec :=
  match u.boot0.valid, u.boot1.valid with
  | true, true => if u.boot0.seq < u.boot1.seq then some u.boot1 else some u.boot0
  | true, false => some u.boot0
  | false, true => some u.boot1
  | false, false => none

/-- Record 1 wins. -/
def Update.winsOne (u : Update) : Bool := u.boot1.valid && (!u.boot0.valid || decide (u.boot0.seq < u.boot1.seq))

/-- The winning record, or an empty one. -/
def Update.record (u : Update) : BootRec := u.winner.getD .empty

/-- A changed copy of the winning record goes over the losing one, with the sequence one higher. -/
def Update.writeRec (u : Update) (f : BootRec → BootRec) : Update :=
  let r := { f u.record with valid := true, seq := u.record.seq + 1 }
  if u.winsOne then { u with boot0 := r } else { u with boot1 := r }

/-- The winning record rewritten in place, its sequence kept (DEDUCED from Table 17-8, log 28). -/
def Update.editRec (u : Update) (f : BootRec → BootRec) : Update :=
  if u.winsOne then { u with boot1 := f u.boot1 } else if u.boot0.valid then { u with boot0 := f u.boot0 } else u

/-- Entry of a type, 1 to 4. -/
def BootRec.entry (r : BootRec) (typ : Nat) : BootEntry := nthD r.entries (typ - 1) .empty

def BootRec.setEntry (r : BootRec) (typ : Nat) (f : BootEntry → BootEntry) : BootRec :=
  { r with entries := updNth r.entries (typ - 1) .empty f }

/-- Type and slot on trial. -/
def BootRec.trial (r : BootRec) : Option (Nat × Nat) :=
  [1, 2, 3, 4].findSome? (fun t => (r.entry t).trial.map (fun k => (t, k)))

/-- NAND slot of a type. -/
def Update.nandSlot (u : Update) (typ slot : Nat) : NandSlot := nthD u.nand ((typ - 1) * 2 + slot) .empty

def Update.setNand (u : Update) (typ slot : Nat) (x : NandSlot) : Update := { u with nand := setNth u.nand ((typ - 1) * 2 + slot) x }

/-- The count that the trial counter gives the winning record (Table 17-6). -/
def Update.trialBoots (u : Update) : Nat :=
  match u.winner with
  | some r => if u.trialSeq = r.seq then u.trialCount else 0
  | none => 0

/-- The configuration slot returns to the kept format (R361). -/
def BootRec.restoreConfig (r : BootRec) : BootRec :=
  match r.cfgOld with
  | some k => { r with cfgSlot := k, cfgOld := none, format := r.oldFormat, oldFormat := 0 }
  | none => r

/-! ### Lane forme slots -/

/-- Slot n becomes the running one, the other is "loaded" (R164). -/
def LaneState.runSlot (st : LaneState) (n : Nat) : LaneState :=
  let old := st.slot (1 - n)
  let new := st.slot n
  if new.state = .empty then st
  else
    let st := st.setSlot (1 - n) { old with state := if old.state = .empty then .empty else .loaded }
    st.setSlot n { new with state := .running, runSeq := max old.runSeq new.runSeq + 1 }

/-- A loaded forme in slot n (R86). -/
def LaneState.sealLoaded (st : LaneState) (n : Nat) (f : Forme) (c : Colophon) : LaneState :=
  st.setSlot n { state := .loaded, forme := some f, digest := c.digest,
                 loadSeq := max st.slot0.loadSeq st.slot1.loadSeq + 1, runSeq := (st.slot n).runSeq, colophon := some c }

/-- A slot unsealed, which counts as empty; its sequence numbers stay in the record (R87). -/
def LaneState.unseal (st : LaneState) (n : Nat) : LaneState :=
  st.setSlot n { FormeSlot.empty with loadSeq := (st.slot n).loadSeq, runSeq := (st.slot n).runSeq }

/-! ### Load checks (Table 4-22) -/

/-- The first load check that fails. `keep` is the personality an online exchange must keep, `cycleNs` the network cycle in
use (R84). -/
def State.loadFail (s : State) (m : Image) (digest : Digest) (installation : Nat) (helfinor approval : Sig) (cycleNs : Nat)
    (keep : Option Nat) : Option LoadFail :=
  let f := parseForme m
  if !s.verifies s.ident.rootKey helfinor then some { status := .auth, reason := 0x01 }
  else if !s.verifies s.life.authority approval then some { status := .auth, reason := 0x02 }
  else if installation ≠ s.life.installation ∨ f.header.installation ≠ s.life.installation then
    some { status := .refused, reason := 0x03 }
  else if imageDigest m ≠ digest then some { status := .refused, reason := 0x04 }
  else f.contentFail s.ident.variant.code cycleNs keep

/-- A refused load: `ev.forme_refused` with the reason and the failing lanes, and the recorder's reason (R86). -/
def State.formeRefusedBy (s : State) (reason : Nat) (ls : List LaneId) : State :=
  s.raiseWith evFormeRefused (leBytes 1 reason ++ leBytes 1 (ofMembers (LaneId.all.map ls.contains))) [recCount 0x0310 reason]

/-- A load that every lane in service refuses. -/
def State.formeRefused (s : State) (reason : Nat) : State := s.formeRefusedBy reason s.lanesIn

/-- A load with single lanes at fault: `faults` are the lanes that work out another digest (true) or another result (false) than the
image's own. The checks keep their order: a digest is judged at check 4, differing results at check 15 (R86). -/
def State.loadJudged (x : Option LoadFail) (inService : List LaneId) (faults : List (LaneId × Bool)) : Option (LoadFail × List LaneId) :=
  let of (d : Bool) : List LaneId := inService.filter (fun l => faults.contains (l, d))
  match x with
  | some q =>
    if q.reason ≤ 4 ∨ (of true).isEmpty then some (q, inService) else some ({ status := .refused, reason := 0x04 }, of true)
  | none =>
    if !(of true).isEmpty then some ({ status := .refused, reason := 0x04 }, of true)
    else if !(of false).isEmpty then some ({ status := .refused, reason := 0x10 }, of false)
    else none

/-! ### Boot -/

/-- `ev.upd_fallback` with its detail. -/
def State.fallbackEvent (s : State) (detail : Nat) : State := s.raise evUpdFallback (leBytes 1 detail)

/-- A trial ends by fall-back: the record loses its trial, the session ends, the current slot boots (R356, R361). -/
def State.fallBack (s : State) (typ : Nat) : State :=
  let cur := (s.update.record.entry typ).current
  let u := (s.update.writeRec (fun r => (r.setEntry typ (fun e => { e with trial := none, trialVersion := 0 })).restoreConfig)).endSession
  let s : State := { s with update := { u with booted := setNth u.booted (typ - 1) cur } }
  let s : State := if typ = 2 then { s with lanes := s.lanes.map (fun st => if st.running = some cur then st else st.runSlot cur) } else s
  s.fallbackEvent typ

/-- A slot cannot be booted: a chunk of it fails its check (R358). -/
def slotBad (f : StartFacts) (typ slot : Nat) : Bool := f.badSlots.contains (typ, slot)

/-- Current slots of firmware, configuration and field-side firmware: an unbootable one with a sound other slot boots the other
slot, without one the module holds the safe state (R358). -/
def State.bootCurrent (p : State × Bool) (f : StartFacts) (typ : Nat) : State × Bool :=
  let s := p.1
  let e := s.update.record.entry typ
  if e.trial.isSome ∨ !slotBad f typ e.current then p
  else
    let other := 1 - e.current
    if (s.update.nandSlot typ other).verified ∧ !slotBad f typ other then
      (({ s with update := { s.update with booted := setNth s.update.booted (typ - 1) other } } : State).fallbackEvent typ, p.2)
    else (s.fallbackEvent typ, false)

/-- A trial boots while its count is below 3 and its slot is sound (R356, R358). -/
def State.bootTrial (s : State) (f : StartFacts) (typ slot : Nat) : State :=
  let n := s.update.trialBoots
  if 3 ≤ n then s.fallBack typ
  else
    let u := { s.update with trialSeq := s.update.record.seq, trialCount := n + 1,
                             booted := setNth s.update.booted (typ - 1) slot, state := 4 }
    let t : State := { s with update := u }
    if typ ≠ 2 ∧ slotBad f typ slot then t.fallBack typ else t

/-- The configuration is converted into the other slot when the booted firmware names another format (R361). -/
def Update.convert (u : Update) : Update :=
  match (u.nandSlot 1 (nthD u.booted 0 0)).colophon with
  | none => u
  | some c =>
    let r := u.record
    if u.winner.isNone ∨ c.format = r.format then u
    else u.editRec (fun r => { r with cfgSlot := 1 - r.cfgSlot, cfgOld := some r.cfgSlot, format := c.format, oldFormat := r.format })

/-- What a start leaves of the update unit before it boots: records and counter whose CRC fails are invalid, parts and a running
verification are lost, and measured off time counts as inactivity (R351 to R353, Tables 17-6 and 17-7). -/
def Update.atStart (u : Update) (f : StartFacts) : Update :=
  { u with
    boot0 := { u.boot0 with valid := u.boot0.valid && !f.badBoot.contains 0 },
    boot1 := { u.boot1 with valid := u.boot1.valid && !f.badBoot.contains 1 },
    trialCount := if f.badCounter then 0 else u.trialCount,
    parts := [], signing := none, state := if u.state = 2 then 1 else u.state,
    idleS := if u.session.isSome ∧ f.islandValid then sat32 u.idleS (f.offTicks / 32768) else u.idleS }

/-- The steward boots from the winning record; the flag says that a forme may run (R355, R356, R358, R361). -/
def State.boot (s : State) (f : StartFacts) : State × Bool :=
  let s : State := { s with update := s.update.atStart f }
  match s.update.winner with
  | none => (({ s with update := { s.update with booted := List.replicate 4 0 } } : State).fallbackEvent 0xFF, false)
  | some r =>
    let s : State := { s with update := { s.update with booted := r.entries.map (·.current) } }
    let s := match r.trial with
      | some (typ, slot) => s.bootTrial f typ slot
      | none => s
    let p := [1, 3, 4].foldl (fun p typ => State.bootCurrent p f typ) (s, true)
    ({ p.1 with update := p.1.update.convert }, p.2)

/-! ### A forme on trial, and the alignment of R360 -/

/-- A type 2 trial is loaded into the lanes at its boot; a refusal is an immediate fall-back, and the old forme runs (R356). -/
def State.loadTrial (s : State) (f : StartFacts) : State :=
  match s.update.record.trial with
  | some (2, slot) =>
    let nand := s.update.nandSlot 2 slot
    match nand.colophon with
    | none => s.fallBack 2
    | some c =>
      if LaneId.all.all (fun l => (s.lanes.get l).running == some slot && ((s.lanes.get l).slot slot).digest == c.digest) then s
      else if slotBad f 2 slot ∨ LaneId.all.any (fun l => (s.lanes.get l).running == some slot) then s.fallBack 2
      else match s.loadFail f.image c.digest c.installation c.helfinor c.approval s.storedCycleNs none with
        | some x => (s.formeRefused x.reason).fallBack 2
        | none => { s with lanes := s.lanes.map (fun st => (st.sealLoaded slot (parseForme f.image) c).runSlot slot) }
  | _ => s

/-- Slot that the lanes run. -/
def State.lanesSlot (s : State) : Option Nat := (s.lanesIn ++ LaneId.all).findSome? (fun l => (s.lanes.get l).running)

/-- The record follows the lanes' running slot (R360): no trial, the floor raised to that forme's counter. A session whose forme
ran through an exchange ends as confirmed; one for another digest, whose slot was overwritten, ends with
`ev.upd_verify_fail` (R364). -/
def State.alignForme (s : State) : State :=
  match s.update.winner, s.lanesSlot with
  | some r, some n =>
    if (r.entry 2).trial.isSome ∨ (r.entry 2).current = n then s
    else
      let c := (s.update.nandSlot 2 n).colophon
      let counter := (c.map (·.rollback)).getD 0
      let version := (c.map (·.version)).getD 0
      let u := s.update.writeRec (fun r => r.setEntry 2 (fun e =>
        { e with current := n, trial := none, currentVersion := version, floor := max e.floor counter }))
      let s : State := { s with update := { u with booted := setNth u.booted 1 n } }
      match s.update.session with
      | some q =>
        if q.colophon.typ ≠ 2 ∨ s.update.state ≠ 3 then s
        else if q.colophon.digest = s.formeDigest then
          ({ s with update := s.update.endSession } : State).raise evUpdConfirmed (leBytes 1 2)
        else ({ s with update := s.update.endSession } : State).raise evUpdVerifyFail (leBytes 4 0xFFFFFFFF)
      | none => s
  | _, _ => s

end Sys2Proof.Machine
end

