-- ==== Sys2Proof/Machine/Recorder.lean ====
section
/-! DEFINITION. The recorder (R380 to R389): the catalogue of items (Table 19-4), the update of one item (R382, R383), the
application of a batch (R384, R385) and of a clear (R389). -/

namespace Sys2Proof.Machine

/-- What the catalogue says of an item. -/
inductive RecKind where
  /-- lower bound, bin width, bins -/
  | linear (b w n : Nat)
  /-- exponent, bins -/
  | log2 (b n : Nat)
  /-- bins -/
  | category (n : Nat)
  /-- detail size, and whether the value is signed -/
  | extreme (d : Nat) (signed : Bool)
  deriving DecidableEq, Repr

structure RecSpec where
  kind : RecKind
  /-- unit code of Table 19-2 -/
  unit : Nat
  deriving DecidableEq, Repr

/-- The block codes of Table 18-5. -/
def blockCodes : List Nat :=
  [0x01, 0x02, 0x03, 0x10, 0x11, 0x12, 0x13, 0x14, 0x15, 0x18, 0x20, 0x21, 0x22, 0x23, 0x24,
   0x30, 0x31, 0x32, 0x33, 0x34, 0x35, 0x36, 0x37, 0x38, 0x39, 0x40]

/-- An extreme whose value is the update sequence. -/
def seqItem (d : Nat) : Option RecSpec := some { kind := .extreme d false, unit := 5 }

def catItem (n : Nat) : Option RecSpec := some { kind := .category n, unit := 0 }

/-- The catalogue of Table 19-4. Where the table gives a range and leaves its items to the Gweten version, the model's
own numbers (DESIGN CHOICE, log 14). -/
def recSpec (n : Nat) : Option RecSpec :=
  if n = 0 then seqItem 24
  else if 0x10 ≤ n ∧ n ≤ 0x12 then some { kind := .linear 0 250 40, unit := 1 }
  else if 0x13 ≤ n ∧ n ≤ 0x15 then some { kind := .extreme 8 false, unit := 1 }
  else if 0x18 ≤ n ∧ n ≤ 0x1A then some { kind := .linear 0 50 40, unit := 1 }
  else if 0x20 ≤ n ∧ n ≤ 0x22 then catItem 8
  else if 0x28 ≤ n ∧ n ≤ 0x2A then catItem 5
  else if n = 0x30 then catItem 8
  else if n = 0x31 ∨ n = 0x38 ∨ n = 0x40 then seqItem 16
  else if n = 0x100 then catItem 32
  else if n = 0x108 then catItem 8
  else if n = 0x110 then some { kind := .extreme 8 false, unit := 7 }
  else if 0x200 ≤ n ∧ n ≤ 0x2FF then seqItem 32
  else if n = 0x300 then seqItem 192
  else if n = 0x301 then some { kind := .log2 0 24, unit := 6 }
  else if n = 0x302 then some { kind := .extreme 8 false, unit := 6 }
  else if n = 0x310 then catItem 48
  else if 0x400 ≤ n ∧ n ≤ 0x42F then seqItem 16
  else if 0x500 ≤ n ∧ n ≤ 0x535 then catItem 8
  else if 0x540 ≤ n ∧ n ≤ 0x545 then some { kind := .extreme 0 false, unit := 3 }
  else if 0x550 ≤ n ∧ n ≤ 0x55F then some { kind := .extreme 0 false, unit := 0 }
  else if n = 0x560 then catItem 2
  else if 0x580 ≤ n ∧ n ≤ 0x591 then seqItem 8
  else if n = 0x600 then some { kind := .log2 0 16, unit := 0 }
  else if 0x601 ≤ n ∧ n ≤ 0x604 then some { kind := .extreme 0 false, unit := 0 }
  else if n = 0x608 then catItem 1
  else if n = 0x610 then seqItem 8
  else if n = 0x620 ∨ n = 0x621 then seqItem 32
  else if n = 0x630 ∨ n = 0x631 then seqItem 8
  else if n = 0x700 then catItem 8
  else if n = 0x701 then catItem 2
  else if n = 0x710 then catItem 16
  else if n = 0x711 then seqItem 8
  else if n = 0x720 then catItem 6
  else if n = 0x721 then seqItem 8
  else if n = 0x730 then seqItem 8
  else if n = 0x740 then catItem 4
  else if n = 0x750 then catItem 1
  else if n = 0x7F0 then seqItem 8
  else if 0x900 ≤ n ∧ n ≤ 0x9FF ∧ blockCodes.contains (n - 0x900) then seqItem 32
  else if n = 0xA00 ∨ n = 0xA01 then some { kind := .extreme 0 false, unit := 3 }
  else if n = 0xA02 then some { kind := .extreme 0 false, unit := 4 }
  else if n = 0xF00 then catItem 256
  else none

/-- Item numbers of the catalogue. -/
def recNumbers : List Nat := (List.range 0x1000).filter (fun n => (recSpec n).isSome)

def RecItem.empty (n : Nat) : RecItem :=
  { num := n, bins := [], below := 0, above := 0, total := 0, min := none, max := none, seq := 0, saturated := false }

def Recorder.item (r : Recorder) (n : Nat) : RecItem := (r.items.find? (fun i => i.num == n)).getD (.empty n)

/-- Put an item in place; an empty item is not listed. -/
def Recorder.setItem (r : Recorder) (i : RecItem) : Recorder :=
  let rest := r.items.filter (fun j => j.num != i.num)
  let all := rest ++ (if i = .empty i.num then [] else [i])
  { r with items := sortBy (fun a b => decide (a.num ≤ b.num)) all }

/-- Bin of a value: −1 under, n over (Table 19-3). -/
def RecKind.bin (k : RecKind) (v : Int) : Int :=
  match k with
  | .linear b w n => if v < b then -1 else min (n : Int) ((v - b) / (w : Int))
  | .log2 b n =>
    let x := v.toNat
    min (n : Int) (if x < 2 ^ b then 0 else ((Nat.log2 x - b + 1 : Nat) : Int))
  | .category n => min (n : Int) v
  | .extreme _ _ => 0

def RecKind.bins : RecKind → Nat
  | .linear _ _ n => n
  | .log2 _ n => n
  | .category n => n
  | .extreme _ _ => 0

/-- Add an advance to a saturating count. -/
def addSat (n k : Nat) : Nat × Bool := (min (n + k) 0xFFFFFFFF, decide (n < 0xFFFFFFFF) && decide (0xFFFFFFFF ≤ n + k))

/-- One update of a histogram; the flag says that a count saturated. -/
def RecItem.addHistogram (i : RecItem) (k : RecKind) (u : RecUpd) : RecItem × Bool :=
  let b := k.bin u.value
  let t := i.total + u.times
  if b < 0 then
    let c := addSat i.below u.times
    ({ i with below := c.1, total := t }, c.2)
  else if (k.bins : Int) ≤ b then
    let c := addSat i.above u.times
    ({ i with above := c.1, total := t }, c.2)
  else
    let c := addSat (kvGetD i.bins b.toNat 0) u.times
    ({ i with bins := kvSet i.bins b.toNat c.1, total := t }, c.2)

/-- A block of an extreme: value, sequence and d bytes of detail. -/
def recBlock (d : Nat) (v : Int) (seq : Nat) (detail : List Byte) : Int × Nat × List Byte :=
  (v, seq, (detail ++ List.replicate d 0).take d)

/-- One update of an extreme (R383): the minimum keeps the earliest of equal values, the maximum the latest. -/
def RecItem.addExtreme (i : RecItem) (d : Nat) (v : Int) (seq : Nat) (detail : List Byte) : RecItem :=
  let b := recBlock d v seq detail
  let low : Int × Nat × List Byte := match i.min with
    | some m => if v < m.1 then b else m
    | none => b
  let high : Int × Nat × List Byte := match i.max with
    | some m => if m.1 ≤ v then b else m
    | none => b
  { i with min := some low, max := some high }

/-- One update under a batch number; the flag says that an item saturated for the first time (R382). -/
def Recorder.update (r : Recorder) (seq : Nat) (u : RecUpd) : Recorder × Bool :=
  match recSpec u.item with
  | none => (r, false)
  | some sp =>
    let i := r.item u.item
    match sp.kind with
    | .extreme d _ =>
      let v := if sp.unit = 5 then (seq : Int) else u.value
      (r.setItem { i.addExtreme d v seq u.detail with seq := seq }, false)
    | k =>
      let p := i.addHistogram k u
      (r.setItem { p.1 with seq := seq, saturated := i.saturated || p.2 }, p.2 && !i.saturated)

/-- A batch takes the next number and is applied in ascending item number (R384, R385). Answers the items that saturated. -/
def Recorder.apply (r : Recorder) (batch : List RecUpd) : Recorder × List Nat :=
  let seq := r.seq + 1
  let l := sortBy (fun a b => decide (a.item ≤ b.item)) batch
  let p := l.foldl (fun (p : Recorder × List Nat) u =>
    let q := p.1.update seq u
    (q.1, if q.2 then p.2 ++ [u.item] else p.2)) (r, [])
  ({ p.1 with seq := seq }, p.2)

/-- Steps 2 to 4 of an accepted clear (R389): the clear record with C, every other item empty with sequence C, the
sequence cell and the clear count. -/
def Recorder.finishClear (r : Recorder) (c : RecClear) : Recorder :=
  let n := (r.items.filter (fun i => i.num != 0)).length
  let zero := (r.item 0).addExtreme 24 c.c c.c
    (leBytes 4 c.tokenSeq ++ leBytes 1 c.key ++ leBytes 1 0 ++ leBytes 2 c.session ++ leBytes 8 c.s ++ leBytes 4 n ++ leBytes 4 0)
  { r with items := [{ zero with seq := c.c }], seq := c.c, clears := sat32 r.clears 1, clearing := none, lastClear := c.c }

/-- The sequence of an item: an item emptied by the last clear carries its number (R389). -/
def Recorder.itemSeq (r : Recorder) (n : Nat) : Nat :=
  match r.items.find? (fun i => i.num == n) with
  | some i => i.seq
  | none => r.lastClear

/-- The steward applies the oldest batch (R385). Batches wait while a clear runs (R389). -/
def State.applyBatch (s : State) : State :=
  match s.recorder.pending with
  | [] => s
  | b :: rest =>
    let p := ({ s.recorder with pending := rest } : Recorder).apply b
    p.2.foldl (fun s n => s.raise evRecSaturated (leBytes 2 n)) { s with recorder := p.1 }

def execRecorderBatch (s : State) : Host.Outcome State Fault Refusal :=
  if s.power.running ∧ s.host.stewardUp ∧ s.recorder.clearing.isNone then .next s.applyBatch else .next s

/-- A clear under way is completed: `DONE` with C and `ev.rec_cleared` (R389). -/
def State.completeClear (s : State) (c : RecClear) : State :=
  let s1 : State := { s with recorder := s.recorder.finishClear c }
  (s1.answerOut c.answer .done 0 (leBytes 8 c.c)).raise evRecCleared (leBytes 8 c.c)

def execRecorderClearComplete (s : State) : Host.Outcome State Fault Refusal :=
  match s.recorder.clearing with
  | some c => if s.power.running ∧ s.host.stewardUp then .next (s.completeClear c) else .next s
  | none => .next s

end Sys2Proof.Machine
end

