-- ==== Sys2Proof/Machine/TrainUnit.lean ====
section
/-! DEFINITION. The inauguration unit (R261 to R273, R278): attempts, STOP floods, sweeps, results, the proposal and the
derived imposition, and the failures of Table 13-5. -/

namespace Sys2Proof.Machine

def causeTwoLeads : Nat := 1
def causeLeadInner : Nat := 2
def causeTooLong : Nat := 3
def causeNoAgree : Nat := 4
def causeTimeout : Nat := 5
def causeProof : Nat := 6

/-! ### Attempts -/

/-- End of a vehicle that a port stands at (R261). -/
def portEnd (p : PortId) : Nat := if p.isEast then 1 else 2

/-- 0 ring X, 1 ring Y. -/
def portRing (p : PortId) : Nat := if p.ringY then 1 else 0

/-- Both ends are open: a line of one (R268). -/
def State.lineOfOne (s : State) : Bool := !s.coupledEnd 1 && !s.coupledEnd 2

/-- The one coupled end of a line end. -/
def State.lineEnd (s : State) : Option Nat :=
  match s.coupledEnd 1, s.coupledEnd 2 with
  | true, false => some 1
  | false, true => some 2
  | _, _ => none

/-- 48-bit identity of this vehicle. -/
def State.vehicle (s : State) : Nat := (s.forme.map Forme.vehicle).getD 0

/-- Whether the module takes part in inauguration: a running train forme whose cycle is in use (R266). -/
def State.inaugurates (s : State) : Bool := s.netOn && s.isTrain && s.formeFits && s.net.mode != .stopped && !s.net.engineBad

/-- The largest attempt number plus 1; the value after 0xFFFF is 1 (R265). -/
def nextAttempt (a : Nat) : Nat := if 65535 ≤ a then 1 else a + 1

/-! ### Inauguration frames (R266, Table 13-2) -/

/-- A frame of the unit on a port (R266). -/
def inaugFrame (p : PortId) (payload : List Byte) : Frame :=
  { typ := 5, version := 1, flags := if p.ringY then 4 else 0, slot := 0xFFFF, sender := 0xFFFF, length := payload.length / 4, netCycle := 0,
    count := 0, phase := 0, tag := 0, payload := payload, crc := BitVec.ofNat 32 (crc32c payload), codeOk := true, window := none, dev := 0 }

/-- A STOP payload: code 0x01. -/
def stopBytes (m : StopMsg) : List Byte := leBytes 1 1 ++ leBytes 1 m.cause ++ beBytes 2 m.attempt ++ leBytes 4 0

/-- One entry of a sweep or result. -/
def entryBytes (e : SweepEntry) : List Byte :=
  beBytes 6 e.vehicle ++ leBytes 1 e.flags ++ leBytes 1 e.facing ++ leBytes 1 e.coupled ++ leBytes 3 0

/-- A sweep (code 0x02) or result (code 0x03) payload. -/
def sweepBytes (code : Nat) (m : SweepMsg) : List Byte :=
  leBytes 1 code ++ leBytes 1 m.entries.length ++ leBytes 1 (b2n m.overflow) ++ leBytes 1 0 ++ beBytes 2 m.attempt ++ leBytes 2 0 ++
  m.entries.flatMap entryBytes

/-- n bytes of a payload from a place, most significant first. -/
def beAt (l : List Byte) (off n : Nat) : Nat := beNat ((l.drop off).take n)

/-- The STOP message of a payload. -/
def stopOf (l : List Byte) : Option StopMsg := if beAt l 0 1 = 1 ∧ l.length = 8 then some { cause := beAt l 1 1, attempt := beAt l 2 2 } else none

/-- Entry i of a payload. -/
def entryOf (l : List Byte) (i : Nat) : SweepEntry :=
  let o := 8 + 12 * i
  { vehicle := beAt l o 6, flags := beAt l (o + 6) 1, facing := beAt l (o + 7) 1, coupled := beAt l (o + 8) 1 }

/-- The sweep or result message of a payload, by its code. -/
def sweepOf (code : Nat) (l : List Byte) : Option SweepMsg :=
  let n := beAt l 1 1
  if beAt l 0 1 = code ∧ 1 ≤ n ∧ n ≤ 65 ∧ 8 + 12 * n ≤ l.length then
    some { overflow := beAt l 2 1 != 0, attempt := beAt l 4 2, entries := (List.range n).map (entryOf l) }
  else none

/-- The first check that an inauguration frame fails, as the counter it advances: code groups, type, version and ring flag, CRC-32C; sweeps
and results outside the state inaugurating fail check 3 (R266). STOP frames are taken in every state, so that the flood reaches every node
of the line (R267; DEDUCED, log 63). -/
def State.inaugFail (s : State) (p : PortId) (f : Frame) (stop : Bool) : Option Nat :=
  if !f.codeOk ∨ f.payload.length ≠ 4 * f.length then some 1
  else if f.typ ≠ 5 ∨ f.version ≠ 1 ∨ f.flags.testBit 2 ≠ p.ringY ∨ (!stop ∧ s.net.mode ≠ .inaugurating) then some 3
  else if crc32c f.payload ≠ f.crc.toNat then some 4
  else none

/-- STOP leaves on ports that are up. -/
def State.floodStop (s : State) (ports : List PortId) (m : StopMsg) : State :=
  (ports.filter (fun p => (s.net.ports.get p).mode == .up)).foldl (fun t p =>
    let t := t.emit p (inaugFrame p (stopBytes m)) false
    { t with train := { t.train with stops := (p, m) :: t.train.stops } }) s

/-- An attempt begins, or restarts, with a number: the network stops carrying frames and the STOP frame is flooded on
the given ports (R265 to R267). -/
def State.beginAttempt (s : State) (a cause : Nat) (ports : List PortId) : State :=
  let s := s.floodStop ports { cause := cause, attempt := a }
  { s with
    net := { s.net with mode := .inaugurating, countKnown := false, adopt := none, copies := [], good := 0, silent := 0 },
    train := { s.train with
      attempt := a, cause := cause, results := [], sweeps := 0, sinceEntry := 0, state := 1, number := 0, orient := 0,
      count := 0, coupled1 := s.coupledEnd 1, coupled2 := s.coupledEnd 2 } }

/-- An attempt fails (R273). -/
def State.failAttempt (s : State) (cause : Nat) : State :=
  let s1 : State := { s with train := { s.train with
    state := 4, failCause := cause, fails := sat32 s.train.fails 1, number := 0, orient := 0, count := 0 } }
  s1.raise evTrainFail (leBytes 1 cause)

/-! ### The proposal (R269) -/

/-- The same list read from the other end. -/
def reverseList (l : List SweepEntry) : List SweepEntry := (l.map (fun e => { e with facing := 3 - e.facing })).reverse

/-- A ring's pair of results, one from each line end, that are each other's reverse: the list from one line end. Two lists that overflowed
name different vehicles and are taken as they are, since they lead to `TOO_LONG` whatever they name (Table 13-2; DEDUCED, log 63). -/
def ringList (rs : List SweepMsg) : Option SweepMsg :=
  rs.find? (fun m => rs.any (fun n => (n.entries.head?).map (·.vehicle) != (m.entries.head?).map (·.vehicle) &&
    n.overflow == m.overflow && (m.overflow || n.entries == reverseList m.entries)))

/-- The lists of a ring. -/
def Train.ringResult (t : Train) (ring : Nat) : Option SweepMsg :=
  ringList ((t.results.filter (fun p => p.1 == ring)).map (·.2))

/-- Two lists name the same line. -/
def sameLine (m n : SweepMsg) : Bool :=
  m.overflow == n.overflow && (m.overflow || m.entries == n.entries || m.entries == reverseList n.entries)

/-- The lists the node holds: on at least one ring, and equal where both rings give them. -/
def Train.lists (t : Train) : Option SweepMsg :=
  match t.ringResult 0, t.ringResult 1 with
  | some m, some n => if sameLine m n then some m else none
  | some m, none => some m
  | none, some n => some n
  | none, none => none

/-- Cabs active in an entry: end 1, end 2. -/
def SweepEntry.cabs (e : SweepEntry) : List Nat :=
  (if e.flags.testBit 0 then [1] else []) ++ (if e.flags.testBit 1 then [2] else [])

/-- The end of an entry is open. -/
def SweepEntry.openEnd (e : SweepEntry) (end_ : Nat) : Bool := !e.coupled.testBit (end_ - 1)

/-- What `propose` gives: a failure, or the list from the lead on with the lead's front end. -/
inductive Proposal where
  | fail (cause : Nat)
  | line (fromLead : List SweepEntry) (front : Nat)
  deriving DecidableEq, Repr

/-- The list with the lead first. -/
def fromLead (l : List SweepEntry) (vehicle : Nat) : List SweepEntry :=
  if (l.head?).map (·.vehicle) = some vehicle then l else reverseList l

def propose (m : SweepMsg) : Proposal :=
  let l := m.entries
  let cabs : List (SweepEntry × Nat) := l.flatMap (fun e => (SweepEntry.cabs e).map (fun c => (e, c)))
  if m.overflow ∨ 64 < l.length then .fail causeTooLong
  else match cabs with
    | [] =>
      match l.head?, l.getLast? with
      | some a, some b =>
        if l.length = 1 then .line l 2
        else if a.vehicle ≤ b.vehicle then .line l a.facing
        else .line (reverseList l) (3 - b.facing)
      | _, _ => .fail causeNoAgree
    | [(e, c)] => if SweepEntry.openEnd e c then .line (fromLead l e.vehicle) c else .fail causeLeadInner
    | _ => .fail causeTwoLeads

/-- Number and orientation of a vehicle in a proposed line (R269). -/
def lineNumber (l : List SweepEntry) (front vehicle : Nat) : Option (Nat × Nat) :=
  (findIdx (fun e : SweepEntry => e.vehicle == vehicle) l).map (fun i =>
    let faces := if i = 0 then front else ((l[i]?).map (·.facing)).getD 0
    (i + 1, if faces = 2 then 1 else 2))

/-! ### The derived imposition (R270, Table 13-3) -/

/-- Numbers of the sync nodes. -/
def syncNumbers (n : Nat) : List Nat := [1, n / 3 + 1, 2 * n / 3 + 1, n].eraseDups

/-- Numbers of the coldstart nodes. -/
def coldNumbers (n : Nat) : List Nat := if n = 1 then [1] else if n % 16 = 1 then [1, n - 1] else [1, n]

/-- Entries of vehicle v: eight static slots and its dynamic identifier. -/
def vehicleEntries (n minislots v : Nat) : List ImpEntry :=
  (List.range 8).map (fun o =>
    { slot := 8 * (v - 1) + o, k := 1, f := 0, owner := 0x7F00 + v, len := 16,
      flags := if o = 0 then (if (syncNumbers n).contains v then 2 else 0) + (if (coldNumbers n).contains v then 4 else 0) else 0 }) ++
  (if v ≤ minislots then [{ slot := v, k := 1, f := 0, owner := 0x7F00 + v, len := 255, flags := 1 }] else [])

/-- Table 12-9 and 12-10 as bytes. -/
def Imposition.bytes (p : Imposition) : List Byte :=
  leBytes 4 p.cycleNs ++ leBytes 2 p.slots ++ leBytes 2 p.minislots ++ leBytes 2 p.allowance ++ leBytes 2 p.idle ++
  leBytes 2 p.hop ++ leBytes 2 p.nodes ++ leBytes 2 p.entryCount ++ leBytes 2 p.tag ++ leBytes 1 p.topology ++ leBytes 43 0 ++
  p.entries.flatMap (fun e => leBytes 2 e.slot ++ leBytes 1 e.k ++ leBytes 1 e.f ++ leBytes 2 e.owner ++ leBytes 1 e.len ++ leBytes 1 e.flags)

/-- The imposition tag: the first 2 bytes of the digest with the tag field at 0 (R242). -/
def Imposition.withTag (p : Imposition) : Imposition :=
  let d := (shake256 ({ p with tag := 0 } : Imposition).bytes).toNat
  { p with tag := d / 2 ^ 504 + d / 2 ^ 496 % 256 * 256 }

/-- The imposition of a line of n vehicles. -/
def derivedImposition (n : Nat) : Imposition :=
  let slots := 8 * n
  let a := ceilDiv (n * 240) 1000
  let d := min 479 ((1000 - slots - a - 42) / 2)
  let entries := (List.range n).flatMap (fun i => vehicleEntries n d (i + 1))
  ({ cycleNs := 1000000, slots := slots, minislots := d, allowance := a, idle := 1000 - slots - 2 * d - a, hop := 240,
     nodes := n, entryCount := entries.length, tag := 0, topology := 2, reserved := 0, entries := entries } : Imposition).withTag

/-- The node records of a line, with the roles of Table 13-3. -/
def derivedNodes (n : Nat) : List NodeRec :=
  (List.range n).map (fun i =>
    { id := 0x7F01 + i, typ := 1, reserved := 0,
      roles := (if (syncNumbers n).contains (i + 1) then 1 else 0) + (if (coldNumbers n).contains (i + 1) then 2 else 0) +
        (if i = 0 then 4 else 0) })

/-- The node takes its place in the line and listens (R270, R271); a derivation that breaks R243 counts as `NO_AGREE`. -/
def State.takePlace (s : State) (l : List SweepEntry) (front : Nat) : State :=
  let n := l.length
  match lineNumber l front s.vehicle with
  | none => s.failAttempt causeNoAgree
  | some (number, orient) =>
    let imp := derivedImposition n
    let nodes := derivedNodes n
    if !(imp.timingOk 1000000 && imp.rulesOk nodes [0]) then s.failAttempt causeNoAgree
    else
      { s with
        train := { s.train with number := number, orient := orient, count := n },
        net := { s.net with mode := .listen, waited := 0, arrivals := [], sends := false, imp := some imp, nodes := nodes, self := 0x7F00 + number, buffers := [],
                            copies := [], prev := [], good := 0, silent := 0, tx := [], txNext := none } }

/-- The proposal is computed once the lists are there (R269). -/
def State.proposeLine (s : State) (m : SweepMsg) : State :=
  match propose m with
  | .fail c => s.failAttempt c
  | .line l front => s.takePlace l front

/-- This vehicle's own entry of a sweep, facing the originator with an end (Table 13-2). -/
def State.ownEntryFor (s : State) (facing : Nat) : SweepEntry :=
  { vehicle := s.vehicle, flags := (if s.train.cab1 then 1 else 0) + (if s.train.cab2 then 2 else 0), facing := facing,
    coupled := (if s.coupledEnd 1 then 1 else 0) + (if s.coupledEnd 2 then 2 else 0) }

/-- A line of one proceeds directly to its proposal (R268). -/
def State.loneLine (s : State) : State :=
  if s.lineOfOne then s.proposeLine { overflow := false, attempt := s.train.attempt, entries := [s.ownEntryFor 2] } else s

/-- A new attempt of the node's own (R265). -/
def State.newAttempt (s : State) (cause : Nat) : State :=
  if s.inaugurates then (s.beginAttempt (nextAttempt s.train.attempt) cause PortId.all).loneLine else s

/-! ### Rows -/

/-- End e of the vehicle as the unit saw it last. -/
def Train.seen (t : Train) (e : Nat) : Bool := if e = 1 then t.coupled1 else t.coupled2

def execEndChange (e : Nat) (s : State) : Host.Outcome State Fault Refusal :=
  if (e = 1 ∨ e = 2) ∧ s.inaugurates ∧ s.coupledEnd e ≠ s.train.seen e then
    .next (({ s with train := { s.train with proofFails := 0 } } : State).newAttempt 1)
  else .next s

/-- An attempt number is greater when it lies 1 to 32 767 ahead (R267). -/
def attemptGreater (carried own : Nat) : Bool :=
  let d := (carried + 65536 - own % 65536) % 65536
  decide (1 ≤ d) && decide (d ≤ 32767)

/-- A STOP frame: one that is not adopted is ignored (R267). -/
def State.stopIn (s : State) (p : PortId) (f : Frame) : State :=
  match s.inaugFail p f true, stopOf f.payload with
  | some n, _ => s.setPort p (fun q => q.count n)
  | none, some m =>
    let s := s.setPort p (fun q => q.count 0)
    if attemptGreater m.attempt s.train.attempt then (s.beginAttempt m.attempt m.cause (PortId.all.filter (· != p))).loneLine else s
  | none, none => s

def execStopFrame (p : PortId) (f : Frame) (s : State) : Host.Outcome State Fault Refusal :=
  if s.inaugurates ∧ (s.net.ports.get p).mode = .up then .next (s.stopIn p f) else .next s

/-- A sweep (code 2) or result (code 3) leaves on a port that is up. -/
def State.sendSweep (s : State) (p : PortId) (code : Nat) (m : SweepMsg) : State :=
  if (s.net.ports.get p).mode = .up then
    let t := s.emit p (inaugFrame p (sweepBytes code m)) false
    { t with train := { t.train with sent := (p, code, m) :: t.train.sent } }
  else s

/-- Ports at an end of the vehicle. -/
def endPorts (e : Nat) : List PortId := if e = 1 then [.xe, .ye] else [.xw, .yw]

/-- An attempt runs and still lacks its lists. -/
def State.discovering (s : State) : Bool :=
  s.inaugurates && s.net.mode == .inaugurating && s.train.state == 1 && (s.train.lists).isNone

def execSweepSend (s : State) : Host.Outcome State Fault Refusal :=
  match s.lineEnd with
  | some e =>
    if s.discovering ∧ s.train.sweeps < 3 then
      let m : SweepMsg := { overflow := false, attempt := s.train.attempt, entries := [s.ownEntryFor (3 - e)] }
      .next ((endPorts e).foldl (fun s p => s.sendSweep p 2 m) { s with train := { s.train with sweeps := s.train.sweeps + 1 } })
    else .next s
  | none => .next s

/-- The node's entry is added; the 66th sets the overflow byte instead (R268). -/
def addEntry (m : SweepMsg) (e : SweepEntry) : SweepMsg :=
  if 65 ≤ m.entries.length then { m with overflow := true } else { m with entries := m.entries ++ [e] }

/-- A result is recorded, the latest of an originator on a ring in place of an older one. -/
def State.recordResult (s : State) (ring : Nat) (m : SweepMsg) : State :=
  { s with train := { s.train with results :=
      (s.train.results.filter (fun q => !(q.1 == ring && (q.2.entries.head?).map (·.vehicle) == (m.entries.head?).map (·.vehicle)))) ++ [(ring, m)] } }

/-- With its lists the node computes the proposal. -/
def State.settleLists (s : State) : State :=
  match s.train.lists with
  | some m => s.proposeLine m
  | none => s

/-- A sweep of the present attempt at a node (R268). -/
def State.sweepIn (s : State) (p : PortId) (m : SweepMsg) : State :=
  let m' := addEntry m (s.ownEntryFor (portEnd p))
  if s.coupledEnd (3 - portEnd p) then s.sendSweep (PortId.opposite p) 2 m'
  else ((s.sendSweep p 3 m').recordResult (portRing p) m').settleLists

/-- A sweep or result as it comes: its checks, and what the node does with one of the present attempt (R266, R268). -/
def State.takeSweep (s : State) (p : PortId) (code : Nat) (f : Frame) (act : SweepMsg → State → State) : State :=
  match s.inaugFail p f false, sweepOf code f.payload with
  | some n, _ => s.setPort p (fun q => q.count n)
  | none, some m =>
    let s := s.setPort p (fun q => q.count 0)
    if s.train.state = 1 ∧ m.attempt = s.train.attempt then act m s else s
  | none, none => s

def execSweepFrame (p : PortId) (f : Frame) (s : State) : Host.Outcome State Fault Refusal :=
  if s.inaugurates ∧ (s.net.ports.get p).mode = .up then .next (s.takeSweep p 2 f (fun m s => s.sweepIn p m)) else .next s

/-- A result of the present attempt: recorded and forwarded; with consistent lists the node proposes (R268, R269). -/
def State.resultIn (s : State) (p : PortId) (m : SweepMsg) : State :=
  ((s.recordResult (portRing p) m).sendSweep (PortId.opposite p) 3 m).settleLists

def execResultFrame (p : PortId) (f : Frame) (s : State) : Host.Outcome State Fault Refusal :=
  if s.inaugurates ∧ (s.net.ports.get p).mode = .up then .next (s.takeSweep p 3 f (fun m s => s.resultIn p m)) else .next s

def execNoAgree (s : State) : Host.Outcome State Fault Refusal :=
  if s.discovering then .next (s.failAttempt causeNoAgree) else .next s

/-- 150 ms after the entry the node is not running (R272). -/
def execInaugurationTimeout (s : State) : Host.Outcome State Fault Refusal :=
  if s.inaugurates ∧ s.train.state = 1 ∧ s.net.mode ≠ .running ∧ s.net.mode ≠ .links then
    .next ((s.failAttempt causeTimeout).newAttempt 5)
  else .next s

/-- A vehicle with a line end tries again 100 ms after a failure; after a failed proof it waits (R273). -/
def execTrainFailRetry (s : State) : Host.Outcome State Fault Refusal :=
  if s.inaugurates ∧ s.train.state = 4 ∧ s.train.failCause ≠ causeProof ∧ (s.lineOfOne ∨ s.lineEnd.isSome) then
    .next (s.newAttempt 5)
  else .next s

/-- The proof has not passed in time: the request flag is set in the lanes (R275). The unit takes it with the descriptor at
the close of the cycle. -/
def execTrainProofRequest (s : State) : Host.Outcome State Fault Refusal :=
  if s.power.running then .next (s.inLanes Ev.proofRequest) else .next s

/-! ### The descriptor (R264, R265) -/

/-- What a platen copy hands the network die (R264). -/
structure Descriptor where
  cab1 : Bool
  cab2 : Bool
  vehicle : Nat
  request : Bool
  deriving DecidableEq, Repr

/-- What one lane gives to the copies' descriptor. -/
def State.descriptorOf (s : State) (l : LaneId) : Option Descriptor :=
  (s.lanes.get l).forme.map (fun f =>
    let c := (Ev.start (s.lanes.get l).core).cabs (s.envOf l f)
    { cab1 := c.1, cab2 := c.2, vehicle := f.vehicle, request := (s.lanes.get l).core.train.request })

/-- The descriptor that every copy in service hands alike: each copy votes the members over the lanes, so the majority's stand; two lanes
that differ give none (R264; DEDUCED, log 63). -/
def State.descriptor (s : State) : Option Descriptor :=
  let ds := s.lanesIn.filterMap s.descriptorOf
  let least := ds.length / 2 + 1
  let voted (p : Descriptor → Bool) : Option Bool :=
    if least ≤ (ds.filter p).length then some true else if least ≤ (ds.filter (fun d => !p d)).length then some false else none
  match voted (·.cab1), voted (·.cab2), voted (·.request), ds.head? with
  | some c1, some c2, some r, some d =>
    if ds.all (fun e => e.vehicle == d.vehicle) then some { cab1 := c1, cab2 := c2, vehicle := d.vehicle, request := r } else none
  | _, _, _, _ => none

/-- A third attempt in a row that ends in a failed proof stops the node (Table 13-5). -/
def State.proofRequested (s : State) : State :=
  let n := s.train.proofFails + 1
  if 3 ≤ n then ({ s with train := { s.train with proofFails := 0 } } : State).failAttempt causeProof |> fun t =>
      { t with net := { t.net with mode := .inaugurating, countKnown := false } }
  else ({ s with train := { s.train with proofFails := n } } : State).newAttempt 3

/-- The unit takes the descriptor of the cycle and starts what R265 asks for. -/
def State.takeDescriptor (s : State) : State :=
  match s.descriptor with
  | none => s
  | some d =>
    let fresh := (d.cab1 && !s.train.cab1) || (d.cab2 && !s.train.cab2)
    let asked := d.request && !s.train.request
    let t : State := { s with train := { s.train with cab1 := d.cab1, cab2 := d.cab2, request := d.request } }
    if !s.isTrain ∨ s.net.mode ≠ .running then t
    else if asked then t.proofRequested
    else if fresh ∧ s.train.number ≠ 1 then t.newAttempt 2
    else t

/-! ### Ligatures and the proof's result (R277) -/

/-- Rings on which the line's lists came: the rings of its ligatures (log 25). -/
def Train.ringsUp (t : Train) : Nat := (if (t.ringResult 0).isSome then 1 else 0) + (if (t.ringResult 1).isSome then 2 else 0)

/-- The ligature record joins the given end of the vehicle: as the nearer one or as the further one. -/
def Ligature.meets (g : Ligature) (vehicle end_ : Nat) : Bool :=
  (g.near == vehicle && g.orient % 4 == end_) || (g.far == vehicle && g.orient / 4 == end_)

/-- The layout of Table 13-8, little-endian. -/
def Ligature.bytes (g : Ligature) : List Byte :=
  leBytes 6 g.near ++ leBytes 6 g.far ++ leBytes 1 g.orient ++ leBytes 1 g.rings ++ leBytes 2 g.count

/-- The ligature at an own end, zeros where that end is a line end (log 25). -/
def ligatureAt (l : List Ligature) (vehicle end_ : Nat) : List Byte :=
  match l.find? (fun g => g.meets vehicle end_) with
  | some g => g.bytes
  | none => leBytes 16 0

/-- Once the proof passes the node keeps its ligatures and its attempt number; a change at an own end goes to the
recorder with the old and the new record. -/
def State.keepLigatures (s : State) (e : Env) : State :=
  let ls := e.ligatures s.train.ringsUp s.train.attempt
  let changed := [1, 2].filter (fun i => ligatureAt s.train.ligatures e.forme.vehicle i != ligatureAt ls e.forme.vehicle i)
  ({ s with train := { s.train with ligatures := ls, inaugCount := s.train.attempt, proofFails := 0, state := 3 } } : State).recordBatch
    (changed.map (fun i => recKeep (0x0620 + (i - 1)) 0 (ligatureAt s.train.ligatures e.forme.vehicle i ++ ligatureAt ls e.forme.vehicle i)))

/-- What the unit learns from the lanes' proof of the cycle: proven, or pending again. -/
def State.proofResult (s : State) : State :=
  match s.refLane with
  | none => s
  | some l =>
    match (s.lanes.get l).forme with
    | none => s
    | some f =>
      if f.header.personality ≠ 2 ∨ s.net.mode ≠ .running then s
      else if (s.lanes.get l).core.train.passed then s.keepLigatures (s.envOf l f)
      else if s.train.state = 3 then { s with train := { s.train with state := 2 } }
      else s

end Sys2Proof.Machine
end

