-- ==== Sys2Proof/Machine/Restart.lean ====
section
/-! DEFINITION. The end and the start of operation: what stops when the dies enter reset (R393, R398), the start-up proofs
(R374), the choice of the forme (R88, R165), the restart decision (R103) and what a warm or cold restart leaves of every item
(R104, Table 5-5). -/

namespace Sys2Proof.Machine

/-! ### Operation ends -/

/-- A lane enters reset: no gate drive, and a checkpoint half that is being written stays unsealed (R393). -/
def LaneState.enterReset (st : LaneState) : LaneState :=
  { st with held := true, gate := false, writing := none, galley := none, records := [], events := [], recs := [] }

/-- A link is silent and down; its counters stay. -/
def Port.silence (q : Port) : Port := { q with mode := .down, joined := false }

/-- The two slots change places: the loaded one runs (R157). The slot records are rewritten at step 9 (R164). -/
def LaneState.swapRun (st : LaneState) : LaneState :=
  match st.running with
  | none => st
  | some n =>
    let st := st.setSlot n { st.slot n with state := .loaded }
    st.setSlot (1 - n) { st.slot (1 - n) with state := .running }

/-- The exchange cycle is under way. -/
def State.exchanging (s : State) : Bool := s.xchg.state == .committing && s.platen.lengthened && s.platen.cycleOpen

/-- Before step 9 the old forme is still the running one by the slot records: a restart finds it (Table 8-7). -/
def State.undoExchange (s : State) : State :=
  if s.exchanging then { s with lanes := s.lanes.mapL (fun l st => if s.laneIn l then st.swapRun else st) } else s

/-- Lanes, network and field side enter reset: outputs open, ports silent (R393, R398). -/
def State.stopVital (s : State) : State :=
  let s := s.undoExchange
  { s with
    lanes := s.lanes.map LaneState.enterReset,
    field := s.field.allOff,
    net := { s.net with mode := .stopped, ports := s.net.ports.map Port.silence, tx := [], txNext := none, copies := [] },
    platen := { s.platen with cycleOpen := false } }

/-- Every die but the always-on island enters reset. -/
def State.stopAll (s : State) : State :=
  let t := s.stopVital
  { t with power := { t.power with running := false }, host := { t.host with stewardUp := false, j1Up := false } }

/-! ### Start-up proofs (R374) -/

/-- The reading that a sound block gives: the spec gives no numbers (log 2). -/
def passReading (b : Nat) : ProofReading :=
  { block := b, applied := Config.patterns b, expected := Config.patterns b, signature := Config.proofSignature b,
    wanted := Config.proofSignature b, endSeal := BitVec.ofNat 32 (proofSeal b (Config.patterns b) (Config.proofSignature b)),
    checks := crcChecks, late := false }

/-- Supervisor, steward memories, crypto island, then the others. -/
def proofOrder : List Nat :=
  [0x40, 0x39, 0x38] ++ blockCodes.filter (fun b => !([0x40, 0x39, 0x38] : List Nat).contains b)

/-- The reading of a block at this start. -/
def startReading (f : StartFacts) (b : Nat) : ProofReading := (f.failing.find? (fun r => r.block == b)).getD (passReading b)

/-- The block passes at this start. A block that the environment does not list passes. -/
def startPasses (f : StartFacts) (b : Nat) : Bool :=
  match f.failing.find? (fun r => r.block == b) with
  | some r => ProofReading.verdict r r.late == 0
  | none => true

/-- One start-up proof: its record, and on failure `ev.block_unusable` and the bit of `PRF.FAIL_MASK`. -/
def State.proveBlock (f : StartFacts) (s : State) (b : Nat) : State :=
  let r := startReading f b
  let s := s.storeProof { ProofReading.record r 1 r.late s.recorder.seq with verdict := if startPasses f b then 0 else ProofReading.verdict r r.late }
  if startPasses f b then s
  else ({ s with proofs := { s.proofs with failed := s.proofs.failed ++ [b] } } : State).raise evBlockUnusable (leBytes 2 b)

/-- Every block is proved afresh; a proof that ran gives no result (R374, R379). -/
def State.startProofs (s : State) (f : StartFacts) : State :=
  let s : State := { s with proofs := { s.proofs with failed := [], requested := none, running := none, wasBlocked := false, rejoin := none } }
  proofOrder.foldl (State.proveBlock f) s

/-- A block failed at the last start. -/
def State.unusable (s : State) (b : Nat) : Bool := s.proofs.failed.contains b

/-! ### The records of steward MRAM -/

/-- The copy of the life-cycle record with the higher sequence whose seal checks; without one Manufacture with no keys (R371). -/
def State.readLife (s : State) (f : StartFacts) : State :=
  let bad (x : Life) : Bool := f.badLife.contains (x.seq % 2)
  if !bad s.life then s
  else if !bad s.lifeOlder then { s with life := s.lifeOlder }
  else ({ s with life := Life.reset, lifeOlder := Life.reset } : State).raise evLcsChanged (leBytes 1 0xFF)

/-- The recorder's seals at a start (R386). -/
def State.readRecorder (s : State) (f : StartFacts) : State :=
  let bad := f.badItems.filter (fun n => recNumbers.contains n)
  let r := s.recorder
  let top := (r.items.map (·.seq)).foldl max r.seq
  let s : State := { s with recorder :=
    { r with items := r.items.filter (fun i => !bad.contains i.num), seq := top, sealFaults := sat32 r.sealFaults bad.length } }
  bad.foldl (fun s n => s.raise evRecSealFault (leBytes 2 n)) s

/-- A clear that a start finds under way is completed before any batch; its answer was lost with the steward (R389). -/
def State.resumeClear (s : State) : State :=
  match s.recorder.clearing with
  | some c => { s with recorder := s.recorder.finishClear c }
  | none => s

/-! ### Which lanes start, and with which forme (R88, R165, R374) -/

/-- The digest of a lane's running slot. -/
def LaneState.runDigest (st : LaneState) : Option Digest := st.running.map (fun n => (st.slot n).digest)

/-- Sequence with which a lane's running slot began to run. -/
def LaneState.runSequence (st : LaneState) : Nat := (st.running.map (fun n => (st.slot n).runSeq)).getD 0

/-- A lane whose running slot is to hold a digest takes the image of the NAND slot of that number, which must be verified, carry that
digest and have no bad chunk; the content is that of the lanes that have it (R165). -/
def State.nandHolds (s : State) (f : StartFacts) (n : Nat) (d : Digest) : Bool :=
  let x := s.update.nandSlot 2 n
  x.verified && x.colophon.any (fun c => c.digest == d && s.verifies s.ident.rootKey c.helfinor && s.verifies s.life.authority c.approval) &&
    !slotBad f 2 n

/-- A lane without a valid forme: its running slot counts as empty (R88). -/
def LaneState.dropRunning (st : LaneState) : LaneState :=
  match st.running with
  | some n => st.unseal n
  | none => st

/-- A lane takes another lane's running slot; its own other slot does not run. -/
def LaneState.reloadFrom (st src : LaneState) : LaneState :=
  match src.running with
  | none => st
  | some n =>
    let other := st.slot (1 - n)
    let st := st.setSlot (1 - n) { other with state := if other.state = .running then .loaded else other.state }
    st.setSlot n (src.slot n)

/-- The lane whose running forme every lane starts with, and whether a majority stands behind it (R165). -/
def State.formeLane (s : State) (ls : List LaneId) : Option (LaneId × Bool) :=
  let dig (l : LaneId) : Option Digest := (s.lanes.get l).runDigest
  match ls.find? (fun l => (dig l).isSome && decide (2 ≤ (ls.filter (fun k => dig k == dig l)).length)) with
  | some l => some (l, true)
  | none =>
    let best := ls.foldl (fun (b : Option LaneId) l =>
      if (dig l).isNone then b
      else match b with
        | none => some l
        | some k => if (s.lanes.get k).runSequence < (s.lanes.get l).runSequence then some l else b) none
    best.map (fun l => (l, false))

/-- Every lane that starts takes the forme of one lane: those with another digest reload it from NAND, and a reload that fails its
checks is refused under R86 and leaves the lane without a forme (R165). -/
def State.reconcile (s : State) (f : StartFacts) (ls : List LaneId) : State × Bool :=
  match s.formeLane ls with
  | none => (s, false)
  | some (l, major) =>
    let src := s.lanes.get l
    let others := ls.filter (fun k => (s.lanes.get k).runDigest != src.runDigest)
    let sound := s.nandHolds f (src.running.getD 0) (src.runDigest.getD 0)
    let t := s.mapLanes (fun k st => if others.contains k then (if sound then st.reloadFrom src else st.dropRunning) else st)
    (if others.isEmpty || sound then t else t.formeRefusedBy 0x04 others, major)

/-- Lanes that pass their proof and that no rail or clock fault holds. -/
def State.provenLanes (s : State) : List LaneId :=
  lanesWhere (fun l => !s.unusable (1 + l.num) && !s.power.laneHeld.get l)

/-! ### The restart decision (R103) -/

/-- Halves whose seal fails at this start are not sealed (R18). -/
def State.readHalves (s : State) (f : StartFacts) : State :=
  let bad (l : LaneId) (n : Nat) : Bool := f.badHalves.contains (l, n)
  s.mapLanes (fun l st =>
    { st with half0 := { st.half0 with isSealed := st.half0.isSealed && !bad l 0 },
              half1 := { st.half1 with isSealed := st.half1.isSealed && !bad l 1 } })

/-- The sealed halves of a lane. -/
def LaneState.sealedHalves (st : LaneState) : List Checkpoint := [st.half0, st.half1].filter (fun h => h.isSealed)

/-- The sealed half with the highest count. -/
def LaneState.newestHalf (st : LaneState) : Option Checkpoint :=
  match st.sealedHalves with
  | [a, b] => some (if a.count < b.count then b else a)
  | l => l[0]?

/-- A sealed half of a count whose digest is that of the running forme. -/
def LaneState.halfOf (st : LaneState) (count : Nat) : Option Checkpoint :=
  st.sealedHalves.find? (fun h => h.count == count && st.runDigest == some h.digest)

/-- The highest count of which every lane holds a usable half. -/
def State.commonCount (s : State) (ls : List LaneId) : Option Nat :=
  let counts : List Nat := match ls with
    | [] => []
    | l :: _ => (s.lanes.get l).sealedHalves.map (fun h => h.count)
  (counts.filter (fun c => ls.all (fun l => ((s.lanes.get l).halfOf c).isSome))).max?

/-- `ILK.WARM_MAX_S` as stored (R105). -/
def State.warmMax (s : State) : Nat := s.stored 0x0601

/-- First condition of Table 5-4 that fails, as its cause code; 0 for a warm restart. -/
def State.restartCauseOf (s : State) (f : StartFacts) (ls : List LaneId) (major : Bool) : Nat :=
  let valid := f.islandValid && s.power.islandValid
  if s.power.resetStuck ∧ valid then 0x05
  else if s.power.coldAsked ∨ s.warmMax = 0 then 0x06
  else if !valid ∨ s.warmMax * 32768 < f.offTicks then 0x03
  else if ls.any (fun l => (s.lanes.get l).newestHalf.isNone) then 0x01
  else if !major ∨ ls.any (fun l => ((s.lanes.get l).newestHalf.map (·.digest)) != (s.lanes.get l).runDigest) then 0x02
  else if (s.commonCount ls).isNone then 0x07
  else 0

/-! ### Items of Table 5-5 in a lane -/

/-- Write one word of a record outside an evaluation. -/
def LaneCore.setWord (c : LaneCore) (f : Forme) (l : LaneId) (code i w x : Nat) : LaneCore :=
  let a := f.addr code i w
  { c with store := storeSet c.store a (sealWord f l c.cycle a 0 x) }

/-- x of one word of a record. -/
def LaneCore.getWord (c : LaneCore) (f : Forme) (l : LaneId) (code i w : Nat) : Nat := readX f l c.cycle c.store (f.addr code i w)

/-- Do something to a lane's state for every record of a table. -/
def LaneCore.forRecs {α : Type} (c : LaneCore) (rs : List α) (g : LaneCore → Nat → α → LaneCore) : LaneCore :=
  (indexed rs).foldl (fun c p => g c p.1 p.2) c

/-- A timer after a restart: release-type 0, restrict-type expired (Table 5-5). -/
def LaneCore.restartTimer (f : Forme) (l : LaneId) (c : LaneCore) (i : Nat) (t : TimerRec) : LaneCore :=
  let restrict := t.cls == 2
  let c := c.setWord f l 0x0F i 0 (if restrict then f.timerN t else 0)
  let c := c.setWord f l 0x0F i 1 0
  c.setWord f l 0x0F i 2 (if restrict then 1 else 0)

/-- Motion and guard functions after a restart (R224): status word restrictive, every other word 0. -/
def LaneCore.restartFunc (f : Forme) (l : LaneId) (c : LaneCore) (i : Nat) (g : FuncRec) : LaneCore :=
  let c := (List.range 20).foldl (fun c w => c.setWord f l 0x13 i (w + 1) 0) c
  c.setWord f l 0x13 i 0 (FuncBits.atRestart g).x

/-- A signal after a restart: at stop, m0 = 0 and m1 = 1; m2 as it was. -/
def LaneCore.restartSignal (f : Forme) (l : LaneId) (c : LaneCore) (i : Nat) : LaneCore :=
  let m2 := member (c.getWord f l 0x07 i 2) 2
  (c.setWord f l 0x07 i 1 0).setWord f l 0x07 i 2 (ofMembers [false, true, m2])

/-- A crossing after a warm restart. One in state 2 or 3 runs step 1 of Table 7-5 at its first scan. -/
def LaneCore.warmCrossing (f : Forme) (l : LaneId) (c : LaneCore) (i : Nat) : LaneCore :=
  let state := c.getWord f l 0x0A i 0
  let next := match state with
    | 5 => 4
    | 3 => 2
    | n => n
  let cause := (kvGetD c.crossings i .empty).cause
  let c := (c.setWord f l 0x0A i 0 next).setWord f l 0x0A i 1 0
  { c with crossings :=
      if state = 0 then kvSet c.crossings i { CrossingMem.empty with cause := cause }
      else if state = 2 ∨ state = 3 then kvSet c.crossings i { CrossingMem.empty with again := true }
      else kvDel c.crossings i }

/-- A track section after a warm restart: disturbed until the counts of its heads are judged. -/
def LaneCore.warmSection (f : Forme) (l : LaneId) (c : LaneCore) (i : Nat) : LaneCore :=
  let state := c.getWord f l 0x08 i 0
  let c := c.setWord f l 0x08 i 0 0
  { c with restore := if state = 0 then c.restore else kvSet c.restore i state }

/-- A counting head after a warm restart: the checkpoint's count is its reference; its state is the checkpoint's until the first scan
judges it (Table 5-5, R139). -/
def LaneCore.warmHead (f : Forme) (l : LaneId) (c : LaneCore) (i : Nat) : LaneCore :=
  { c with headRef := kvSet c.headRef i (c.getWord f l 0x09 i 1) }

/-- A route's requests are discarded; a signal clears again only on `ilk.route_reclear`. -/
def RouteMem.warm (m : RouteMem) : RouteMem := { m with withdrawn := true, slot := none, timeout := 0, clearReq := false }

/-- The evaluation state of a lane after a warm restart at a cycle count. -/
def LaneCore.warm (c : LaneCore) (f : Forme) (l : LaneId) (now : Nat) : LaneCore :=
  let c : LaneCore := { c with
    cycle := now,
    store := c.store.map (fun p => (p.1, reseal p.2 (laneSet l) (laneSet l) (now % 256))),
    points := c.points.map (fun p => (p.1, { PointMem.empty with failed := p.2.failed })),
    signals := [], routes := c.routes.map (fun p => (p.1, RouteMem.warm p.2)), stagings := [], voBlocked := [],
    bankBlocked := [], bankFaults := [], holds := [], edges := [], lastGalley := [], funcs := [], unavail := [], restore := [],
    headRef := [], train := .empty, sweepRow := 0, sweepTail := [], sweepLost := false }
  let c := c.forRecs f.timers (LaneCore.restartTimer f l)
  let c := c.forRecs f.signals (fun c i _ => c.restartSignal f l i)
  let c := c.forRecs f.sections (fun c i _ => c.warmSection f l i)
  let c := c.forRecs f.heads (fun c i _ => c.warmHead f l i)
  let c := c.forRecs f.crossings (fun c i _ => c.warmCrossing f l i)
  c.forRecs f.funcs (LaneCore.restartFunc f l)

/-- Addresses of the words that the forme's regions hold. -/
def Forme.wordAddrs (f : Forme) : List Nat :=
  wordRegions.flatMap (fun code => let e := f.entry code; (List.range (e.count * e.wordsPer)).map (e.base + ·))

/-- The evaluation state of a lane after a cold restart: every word of a region restrictive. -/
def LaneCore.cold (f : Forme) (l : LaneId) : LaneCore :=
  let c : LaneCore := { LaneCore.empty with store := f.wordAddrs.foldl (fun st a => storeSet st a (sealWord f l 0 a 0 0)) [] }
  let c := c.forRecs f.timers (LaneCore.restartTimer f l)
  let c := c.forRecs f.signals (fun c i _ => c.restartSignal f l i)
  let c := c.forRecs f.crossings (fun c i _ => (c.setWord f l 0x0A i 0 3).setWord f l 0x0A i 1 0)
  c.forRecs f.funcs (LaneCore.restartFunc f l)

/-! ### Every other item -/

/-- Banks 4 and 5 whose proof failed are blocked (Table 18-5). -/
def State.barredBanks (s : State) : List Nat := [4, 5].filter (fun b => s.unusable (0x10 + b))

/-- A lane as it starts. -/
def LaneState.begin (st : LaneState) (admitted : Bool) (core : LaneCore) (cold : Bool) : LaneState :=
  { st with
    held := !admitted, gate := admitted, writing := none, core := core, galley := none, records := [], events := [],
    recs := [], demands := 0, resets := 0, adopted := 0, quoinSound := true, badRows := [], lostWords := [],
    eccCorrected := if cold then 0 else st.eccCorrected, eccBad := if cold then 0 else st.eccBad,
    regionFaults := if cold then 0 else st.regionFaults }

/-- The field side as it starts: every output open; what it measures stays (R203, Table 18-5). -/
def Field.begin (d : Field) (link : Bool) (barred : List Nat) : Field :=
  { Field.reset with
    outOfRange := d.outOfRange, supplyMv := d.supplyMv, lineBad := d.lineBad, skips := d.skips, temp := d.temp,
    link := link, ubankBlocked := barred, safeN := true }

/-- The platen as it starts (Table 3-4, Table 3-11): counts 0, the parameters taken into use. -/
def State.beginPlaten (s : State) (mode : LaneId → LaneMode) (safe cold : Bool) : Platen :=
  let w := s.stored 0x0502
  let tn := s.storedCycleNs / 1000
  let duplex := (s.forme.map (·.header.duplex)).getD 0 == 1
  { Platen.reset with
    lanes := (Tri.all LaneMode.excluded).mapL (fun l _ => mode l), safe := safe,
    safeCause := if safe then causeHeld else s.platen.safeCause,
    excludeAfter := s.stored 0x0501, windowUs := if duplex then min w (2300 - tn) else w,
    overruns := if cold then 0 else s.platen.overruns }

/-- Ports whose proof failed are held down. -/
def State.beginPort (s : State) (p : PortId) (q : Port) (cold : Bool) : Port :=
  { q with mode := .down, joined := false, heldDown := s.unusable (0x20 + p.num),
           counters := if cold then List.replicate 8 0 else q.counters }

/-- The network as it starts: in links, or stopped when the frame engine failed (Table 12-11, Table 18-5). -/
def State.beginNet (s : State) (count : Nat) (cold : Bool) : Net :=
  let n := s.net.begin s.forme s.selfNode s.storedCycleNs
  let n := { n with
    mode := if s.unusable 0x24 then .stopped else .links, engineBad := s.unusable 0x24, count := count, atStart := true,
    countKnown := false, phase := 0, snapshot := [],
    ports := { xe := s.beginPort .xe n.ports.xe cold, xw := s.beginPort .xw n.ports.xw cold,
               ye := s.beginPort .ye n.ports.ye cold, yw := s.beginPort .yw n.ports.yw cold } }
  if cold then { n with selfSilence := 0, trips := 0, coldstarts := 0, slips := 0, mismatches := 0 } else n

/-- The inauguration unit as it starts: attempt number and ligature count are kept (R265, R277). -/
def Train.begin (t : Train) (cold : Bool) : Train :=
  { Train.reset with attempt := t.attempt, inaugCount := t.inaugCount, lastUs := t.lastUs, fails := if cold then 0 else t.fails }

/-- The duplex unit as it starts (R283): not commanding, no holder known, and ready after a cold restart or from a checkpoint sealed
while commanding or ready. -/
def Duplex.begin (d : Duplex) (cold clean : Bool) : Duplex :=
  { Duplex.reset with ready := cold || clean, cleanStart := cold || clean, switches := d.switches, gapUs := d.gapUs,
                      mismatches := if cold then 0 else d.mismatches }

/-- Requests as they start: every request is discarded, and the operator blocks are asked for anew (R104, R419). -/
def Requests.begin (r : Requests) (cold : Bool) : Requests :=
  let r := { r with slots := [], origins := [], frozen := [], mirrored := [], copies := none,
                    waiting := r.blockList.map (fun id => { kind := .block id, slot := none }) }
  if cold then
    { r with limitTotal := 0, refusedTotal := 0, highWater := 0, heldRows := .all 0, scrubFaults := .all 0,
             motViolations := 0, motFaults := 0, grdDemands := 0, grdDiscs := 0, grdFbs := 0, grdResets := 0 }
  else r

/-- Counters of the host side that count since the last cold restart. -/
def HostLink.coldCounters (h : HostLink) : HostLink :=
  { h with evtCount := [], authFails := 0, busyTotal := 0, framing := 0, discards := 0 }

/-- Commands that waited for a request slot, a prepare or a report are discarded without an answer (R104). -/
def State.dropWaiting (s : State) : State :=
  let waits (o : Outstanding) : Bool := o.slot.isSome || s.xchg.asked == some o || (s.update.signing.map (·.1)) == some o
  { s with
    host := { s.host with outstanding := s.host.outstanding.filter (fun o => !waits o) },
    xchg := { s.xchg with state := .idle, loading := false, asked := none, target := 0 },
    update := { s.update with signing := none } }

/-- The host side after a start of every die: queues, registers, sessions and CRC contexts at reset. Session numbers go on, since none is
reused before the value wraps (R317; log 37). -/
def State.beginHost (s : State) : State :=
  let h := s.host
  { s with
    host := { HostLink.reset with
      evtCount := h.evtCount, authFails := h.authFails, busyTotal := h.busyTotal, framing := h.framing,
      discards := h.discards, stewardUp := !s.unusable 0x39, j1Up := true, nonces := h.nonces, nextSession := h.nextSession },
    crc := [], recorder := { s.recorder with pending := [] } }

/-- What the decision needs and what it sets for the reports (R103). -/
def State.beginReport (s : State) (f : StartFacts) (kind cause : Nat) : State :=
  let valid := f.islandValid && s.power.islandValid
  let s : State := { s with
    req := { s.req with restartKind := kind, restartCause := cause,
                        offTimeS := if valid then min (f.offTicks / 32768) 0xFFFFFFFF else 0xFFFFFFFF },
    power := { s.power with resetStuck := false, coldAsked := false, islandValid := true, offCounting := false } }
  let s := s.raise evRestart (leBytes 1 kind ++ leBytes 1 cause)
  if cause = 0x05 then s.raise evResetStuck (leBytes 1 cause) else s

/-- Forces that a cold restart removes go to the recorder, each as a removal (Table 5-5). -/
def State.recordRemoved (s : State) (ls : List LaneId) : State :=
  match ls with
  | [] => s
  | l :: _ => (s.lanes.get l).core.frisket.foldl (fun s q =>
      s.recordBatch [recKeep (0x0200 + q.num) 0 (forceDetail q 3 0xFF 0 0 6)]) s

/-- The module starts with a forme: warm at the common checkpoint count plus 3, or cold at 0. `ls` take part in the decision,
`back` waits for a rejoin (R103, R104, R379). -/
def State.beginForme (s : State) (f : StartFacts) (ls : List LaneId) (back : Option LaneId) (major : Bool) : State :=
  let cause := s.restartCauseOf f ls major
  let cold := cause != 0
  let ckpt := (s.commonCount ls).getD 0
  let count := if cold then 0 else (ckpt + 3) % 4294967296
  let clean := ls.any (fun l => ((s.lanes.get l).halfOf ckpt).any (·.clean))
  let s := if cold then s.recordRemoved ls else s
  let mode (l : LaneId) : LaneMode := if ls.contains l then .inService 0 else if back = some l then .isolated else .excluded
  let core (l : LaneId) (st : LaneState) : LaneCore :=
    match st.forme with
    | none => .empty
    | some fm =>
      let c := match (if cold then none else st.halfOf ckpt) with
        | some h => h.core.warm fm l count
        | none => LaneCore.cold fm l
      { c with bankBlocked := s.barredBanks }
  let s : State := { s with
    lanes := s.lanes.mapL (fun l st => st.begin (ls.contains l) (if ls.contains l then core l st else .empty) cold),
    proofs := { s.proofs with rejoin := back } }
  let s : State := { s with
    platen := s.beginPlaten mode false cold,
    field := s.field.begin (!s.unusable 0x18) ([0, 1, 2, 3].filter (fun b => s.unusable (0x10 + b))),
    train := s.train.begin cold, duplex := s.duplex.begin cold clean, req := s.req.begin cold,
    host := if cold then s.host.coldCounters else s.host,
    recorder := if cold then { s.recorder with uncounted := [] } else s.recorder }
  let s : State := { s with net := s.beginNet count cold }
  let s := s.beginReport f (if cold then 2 else 1) cause
  if s.isTrain then s.newAttempt 6 else s

/-- The module starts without a forme that may run: it holds the safe state (R3, R86, R358, R367). The start is a cold one, and so
is the next, as after every safe state (R55, R103). Its cause is the first condition that fails, or the digest where none does. -/
def State.beginHeld (s : State) (f : StartFacts) (ls : List LaneId) (major : Bool) : State :=
  let mode (l : LaneId) : LaneMode := if ls.contains l then .inService 0 else .excluded
  let cause := s.restartCauseOf f ls major
  let s : State := { s with lanes := s.lanes.mapL (fun l st => (st.begin (ls.contains l) .empty false).safeEntry) }
  let s : State := { s with
    platen := s.beginPlaten mode true false,
    field := s.field.begin (!s.unusable 0x18) ([0, 1, 2, 3].filter (fun b => s.unusable (0x10 + b))),
    train := s.train.begin false, duplex := s.duplex.begin false false, req := s.req.begin false }
  let s : State := { s with net := s.beginNet s.net.count false }
  s.beginReport f 2 (if cause = 0 then 0x02 else cause)

/-- Values in use become the stored ones (Table 15-12): all of them at a start of every die, those of host link and bridge only
then. -/
def State.beginParams (s : State) (full : Bool) : State := s.applyParams (fun id => full || !(isHostParam id || isBridgeParam id))

/-! ### The start -/

/-- What the supervisor notes at a start: cause, address pins, counters of the start (R325, R396, R401, R406). -/
def Power.begin (p : Power) (f : StartFacts) (cause : Nat) : Power :=
  { p with running := true, powered := true, resetHeld := false, startCause := cause, ga := f.ga % 32, subNs := 0, poweredS := 0,
           cryptoDown := false, netDown := false }

/-- The steward writes the booted firmware's lane part into each lane's region where the copy there differs (R358). -/
def State.writeFirmware (s : State) : State :=
  match (s.update.nandSlot 1 (nthD s.update.booted 0 0)).colophon with
  | some c => s.mapLanes (fun _ st => { st with firmware := some c.digest })
  | none => s

/-- The steward's part of a start: records, boot, recorder, the forme on trial. The flag says that a forme may run. -/
def State.startSteward (s : State) (f : StartFacts) (full : Bool) : State × Bool :=
  let s := s.readLife f
  let s := s.readRecorder f
  let s := if full then s.resumeClear else s
  let p := s.boot f
  let s := (p.1.beginParams full).writeFirmware
  (s.loadTrial f, p.2)

/-- Lanes and forme of a start. -/
def State.startLanes (s : State) (f : StartFacts) (bootOk : Bool) (isolated : Option LaneId) : State :=
  let proven := s.provenLanes
  let p := (s.readHalves f).reconcile f proven
  let s := p.1.mapLanes (fun l st => if f.digestBad.contains l then st.dropRunning else st)
  let good := proven.filter (fun l => (s.lanes.get l).forme.isSome)
  let others := good.filter (fun l => isolated != some l)
  let split := decide (2 ≤ others.length) && (isolated.map good.contains).getD false
  let ls := if split then others else good
  let allowed := bootOk && s.life.state != .manufacture && s.life.state != .retired && decide (2 ≤ ls.length)
  if allowed then (s.beginForme f ls (if split then isolated else none) p.2).alignForme else s.beginHeld f proven p.2

/-- A start of the module. `full` starts every die (power-up, end of a reset); otherwise lanes, network and field side restart and
the steward's host side serves on (R106, log 17). A supervisor that fails its proof lets no die leave reset. -/
def State.start (s : State) (f : StartFacts) (cause : Nat) (full : Bool) : State :=
  if !startPasses f 0x40 then { s with power := { s.power with running := false, powered := true, resetHeld := false, startCause := cause } }
  else
    let isolated := LaneId.all.find? (fun l => s.platen.lanes.get l == .isolated)
    let s : State := { s with power := s.power.begin f cause, platen := { s.platen with safe := false } }
    let s := s.dropWaiting
    let s := if full then s.beginHost else s
    let s := s.startProofs f
    let s : State := { s with power := { s.power with cryptoDown := s.unusable 0x38 },
                              host := { s.host with stewardUp := s.host.stewardUp && !s.unusable 0x39 } }
    let s := s.bridgeRestart full
    let p := if s.unusable 0x39 then (s, true) else s.startSteward f full
    let s := p.1.startLanes f p.2 isolated
    let s := if s.unusable 0x18 then s.raise evFieldLink (leBytes 1 0) else s
    { s with power := { s.power with laneHeld := .all false } }

end Sys2Proof.Machine
end

