-- ==== Sys2Proof/Machine/Exchange.lean ====
section
/-! DEFINITION. The online exchange of a forme (R151 to R164): the maps from the running forme to the new one, the transfer of a
lane's state, the re-check before the exchange cycle, and the exchange commands. -/

namespace Sys2Proof.Machine

/-! ### Records that continue (R159) -/

/-- New record numbers with the record of the running forme that is equal once both are stripped of record numbers. -/
def samePairs {α : Type} [DecidableEq α] (strip : α → α) (old new : List α) : List (Nat × Nat) :=
  (indexed new).filterMap (fun p => (findIdx (fun o => decide (strip o = strip p.2)) old).map (fun i => (p.1, i)))

/-- A point record without its first flank rule number. -/
def PointRec.stripped (p : PointRec) : PointRec := { p with flank := 0 }

/-- Pairs of new and old record numbers by region: elements and functions with equal records, and the regions that an exchange
keeps byte-identical (R151). -/
def Forme.carriedRecs (old new : Forme) (code : Nat) : List (Nat × Nat) :=
  match code with
  | 0x03 => (List.range new.channels.length).map (fun i => (i, i))
  | 0x06 => samePairs PointRec.stripped old.points new.points
  | 0x07 => samePairs id old.signals new.signals
  | 0x08 => samePairs id old.sections new.sections
  | 0x09 => samePairs id old.heads new.heads
  | 0x0A => samePairs id old.crossings new.crossings
  | 0x11 => (List.range new.remotes.length).map (fun i => (i, i))
  | 0x12 => (List.range new.galley.length).map (fun i => (i, i))
  | 0x13 => samePairs id old.funcs new.funcs
  | _ => []

/-- Regions of elements and functions. -/
def elementRegions : List Nat := [0x06, 0x07, 0x08, 0x09, 0x0A, 0x13]

/-- Identities of a region's records. -/
def Forme.identities (f : Forme) (code : Nat) : List Nat :=
  match code with
  | 0x06 => f.points.map (·.id)
  | 0x07 => f.signals.map (·.id)
  | 0x08 => f.sections.map (·.id)
  | 0x09 => f.heads.map (·.id)
  | 0x0A => f.crossings.map (·.id)
  | 0x13 => f.funcs.map (·.id)
  | _ => []

/-- An element of the new forme continues one of the running forme. -/
def Forme.carriedId (old new : Forme) (code id : Nat) : Bool :=
  (old.carriedRecs new code).any (fun p => (new.identities code)[p.1]? == some id)

/-! ### Routes and overlaps (R160) -/

/-- Two pools are equal entry by entry in identity, role, required state and flags. -/
def samePool (a b : List PoolEntry) : Bool := decide (a = b)

/-- Flank rules of the running forme that a row of the owner locks, for a point in a position. -/
def Forme.lockedRules (f : Forme) (l : LaneId) (quoin : List (Nat × Word64)) (owner point pos : Nat) : List FlankRec :=
  (flankRow f point pos).filter (fun r => quoin.any (fun q => rowOwner l q.2 == some owner && rowId q.2 == r.pid &&
    rowKind q.2 == (if r.prole = 2 then 5 else 4)))

/-- The position whose flank row a pool entry uses: a point's own, or an anchor's (R113). -/
def PoolEntry.flankPos (p : PoolEntry) : Nat := if p.role = 1 ∨ p.role = 2 then p.role else p.state

/-- The flank rules locked for a pool's points are present in the new flank rows. -/
def Forme.flanksKept (old new : Forme) (l : LaneId) (quoin : List (Nat × Word64)) (owner : Nat) (pool : List PoolEntry) : Bool :=
  pool.all (fun p => (old.pointNo p.id).isNone ||
    (old.lockedRules l quoin owner p.id p.flankPos).all (fun r => (flankRow new p.id p.flankPos).any (fun q =>
      q.pid == r.pid && q.prole == r.prole && q.ppos == r.ppos && q.trigger == r.trigger)))

/-- Routes of the new forme with the same fields as one of the running forme. -/
def Forme.sameRoutes (old new : Forme) (r : RouteRec) : List Nat :=
  (indexed new.routes).filterMap (fun p =>
    let q := p.2
    if q.entry = r.entry ∧ q.exit = r.exit ∧ q.cls = r.cls ∧ q.release = r.release ∧ q.timer = r.timer ∧
        samePool (old.routeApproach r) (new.routeApproach q) ∧ samePool (old.routePool r) (new.routePool q) then some p.1 else none)

/-- Overlaps of the new forme with the same fields as one of the running forme. -/
def Forme.sameOverlaps (old new : Forme) (o : OverlapRec) : List Nat :=
  (indexed new.overlaps).filterMap (fun p =>
    let q := p.2
    if q.start = o.start ∧ q.trigger = o.trigger ∧ q.timer = o.timer ∧ samePool (old.overlapPool o) (new.overlapPool q) then some p.1
    else none)

/-- The counterpart of a route: exactly one. -/
def Forme.routeCounterpart (old new : Forme) (l : LaneId) (quoin : List (Nat × Word64)) (r : Nat) : Option Nat :=
  match old.routes[r]? with
  | none => none
  | some rt =>
    match old.sameRoutes new rt with
    | [n] => if old.flanksKept new l quoin (ownerRoute r) (old.routePool rt) then some n else none
    | _ => none

/-- The counterpart of an overlap. -/
def Forme.overlapCounterpart (old new : Forme) (l : LaneId) (quoin : List (Nat × Word64)) (o : Nat) : Option Nat :=
  match old.overlaps[o]? with
  | none => none
  | some ov =>
    match old.sameOverlaps new ov with
    | [n] => if old.flanksKept new l quoin (ownerOverlap o) (old.overlapPool ov) then some n else none
    | _ => none

/-- The owner value under the new forme. -/
def Forme.mapOwner (old new : Forme) (l : LaneId) (quoin : List (Nat × Word64)) (owner : Nat) : Option Nat :=
  if owner < 32768 then (old.routeCounterpart new l quoin owner).map ownerRoute
  else (old.overlapCounterpart new l quoin (owner - 32768)).map ownerOverlap

/-- Owners of the rows that a lane holds. -/
def LaneCore.owners (c : LaneCore) (l : LaneId) : List Nat := (c.quoin.filterMap (fun q => rowOwner l q.2)).eraseDups

/-- The first locked route or overlap without a counterpart. -/
def Forme.unmatched (old new : Forme) (l : LaneId) (c : LaneCore) : Option Nat :=
  (c.owners l).find? (fun o => (old.mapOwner new l c.quoin o).isNone)

/-! ### Words and memories -/

/-- Copy the words of one record into the new word store, each under the tag of the cycle about to be evaluated (R417). -/
def Forme.carryWords (old new : Forme) (l : LaneId) (now : Nat) (from_ : List (Nat × Word64)) (code : Nat) (st : List (Nat × Word64)) (p : Nat × Nat) :
    List (Nat × Word64) :=
  (List.range (min (old.entry code).wordsPer (new.entry code).wordsPer)).foldl (fun st w =>
    storeSet st (new.addr code p.1 w) (reseal (storeGet from_ (old.addr code p.2 w)) (laneSet l) (laneSet l) (now % 256))) st

/-- Memory of records by number, under the new numbers. -/
def carryMem {α : Type} (ps : List (Nat × Nat)) (l : List (Nat × α)) : List (Nat × α) :=
  ps.filterMap (fun p => (kvGet l p.2).map (fun x => (p.1, x)))

/-- The word store of the new forme from the carried records. -/
def Forme.carryStore (old new : Forme) (l : LaneId) (now : Nat) (st : List (Nat × Word64)) : List (Nat × Word64) :=
  ([0x03, 0x11, 0x12] ++ elementRegions).foldl (fun out code => (old.carriedRecs new code).foldl (old.carryWords new l now st code) out) []

/-- Every held row under its new owner; its place may change (R112). A row that fails its check stays as it is. -/
def Forme.carryRows (old new : Forme) (l : LaneId) (quoin : List (Nat × Word64)) : List (Nat × Word64) :=
  quoin.foldl (fun q p => match rowOwner l p.2 with
    | none => q
    | some o => match old.mapOwner new l quoin o with
      | none => q
      | some n => commitRow l q { id := rowId p.2, kind := rowKind p.2, state := rowState p.2, group := rowGroup p.2, owner := n })
    (quoin.filter (fun p => (rowOwner l p.2).isNone))

/-- Routes that hold state: locked, or not in state idle. -/
def LaneCore.liveRoutes (c : LaneCore) (f : Forme) (l : LaneId) : List Nat :=
  (c.routes.map (·.1)).filter (fun r => (c.owners l).contains (ownerRoute r) || c.getWord f l 0x0B r 0 != 0)

/-- The memory of a carried route: its overlap's new number, and a withdrawn clear request when its entry signal changed (R178). -/
def RouteMem.carry (m : RouteMem) (ovl : Nat → Option Nat) (signalKept : Bool) : RouteMem :=
  { m with ovl := m.ovl.bind (fun o => if o = lostOverlap then some o else ovl o),
           withdrawn := m.withdrawn || !signalKept, clearReq := m.clearReq && signalKept }

/-- Route memories, words and overlaps under auxiliary release. -/
def LaneCore.carryRoutes (c new' : LaneCore) (old new : Forme) (l : LaneId) : LaneCore :=
  let ps := (c.liveRoutes old l).filterMap (fun r => (old.routeCounterpart new l c.quoin r).map (fun n => (n, r)))
  let kept (n : Nat) : Bool := (new.routes[n]?).any (fun rt => old.carriedId new 0x07 rt.entry)
  { new' with
    store := ps.foldl (old.carryWords new l new'.cycle c.store 0x0B) new'.store,
    routes := ps.foldl (fun rs p => match kvGet c.routes p.2 with
      | some m => kvSet rs p.1 (m.carry (old.overlapCounterpart new l c.quoin) (kept p.1))
      | none => rs) [],
    ovlAux := c.ovlAux.filterMap (old.overlapCounterpart new l c.quoin) }

/-! ### Timers and edge detectors (R162, R163) -/

/-- The timer of the running forme that a timer continues: same owner, ordinal and class. -/
def Forme.timerMatch (old : Forme) (t : TimerRec) : Option Nat :=
  findIdx (fun r : TimerRec => r.owner == t.owner && r.ord == t.ord && r.cls == t.cls) old.timers

/-- Count and lead of a running timer carried across. A lead that is left of an earlier exchange counts as remaining time, so that a
release-type timer never expires earlier than it would have (DEDUCED from R162's last paragraph, log 31). -/
def carryTimer (release : Bool) (nOld nNew c lead : Nat) : Nat × Nat :=
  let oldRem := nOld - c + lead
  let rem := if release then max oldRem (nNew - c) else min oldRem (nNew - c)
  if rem ≤ nNew then (nNew - rem, 0) else (0, rem - nNew)

/-- One timer of the new forme. -/
def LaneCore.transferTimer (c : LaneCore) (old new : Forme) (l : LaneId) (out : LaneCore) (i : Nat) (t : TimerRec) : LaneCore :=
  match (old.timerMatch t).bind (fun j => (old.timers[j]?).map (fun r => (j, r))) with
  | none => out.restartTimer new l i t
  | some (j, r) =>
    let put (out : LaneCore) (count lead started : Nat) : LaneCore :=
      ((out.setWord new l 0x0F i 0 count).setWord new l 0x0F i 1 lead).setWord new l 0x0F i 2 started
    if member (c.getWord old l 0x0F j 2) 0 then
      let x := carryTimer (t.cls == 1) (old.timerN r) (new.timerN t) (c.getWord old l 0x0F j 0) (c.getWord old l 0x0F j 1)
      put out x.1 x.2 1
    else put out 0 0 0

/-- Edge detectors that keep their stored value: same owner and ordinal, and the source the same member of a word with the same
identity and kind in both formes. -/
def Forme.edgePairs (old new : Forme) : List (Nat × Nat) :=
  (indexed new.edges).filterMap (fun p =>
    (findIdx (fun r : EdgeRec => r.owner == p.2.owner && r.ord == p.2.ord) old.edges).bind (fun j =>
      match old.edges[j]? with
      | some r =>
        let a := old.decl r.addr
        let b := new.decl p.2.addr
        if r.member = p.2.member ∧ a.id = b.id ∧ a.kind = b.kind then some (p.1, j) else none
      | none => none))

/-! ### Forces (R170) -/

/-- Causes of `ev.force_removed`: no such position, value not legal, newly vital (DESIGN CHOICE, log 15). -/
def forceFate (new : Forme) (keepVital : Bool) (q : Force) : Nat :=
  match new.forceAddr q.path q.id q.kind q.word with
  | none => 1
  | some a =>
    if !new.forceLegal a q.kind q.x then 2
    else if new.forceVital q.path q.id ∧ !q.flags.testBit 0 ∧ !keepVital then 3
    else 0

/-- A surviving entry, with the vital flag of the new forme. -/
def Force.under (q : Force) (new : Forme) : Force := { q with flags := b2n (new.forceVital q.path q.id) + 2 * (q.flags / 2 % 2) }

/-- The word at an address of the new forme continues a word of the running one (R159). -/
def Forme.carriedWord (old new : Forme) (a : Nat) : Bool :=
  match new.locate a with
  | some (code, i, _) => (old.carriedRecs new code).any (fun p => p.1 == i)
  | none => false

/-- Forces under the new forme; a removed one whose position is still there leaves it the program's own value. The program's value
of a changed element is its restart value (R159). -/
def LaneCore.carryForces (c out : LaneCore) (old new : Forme) (l : LaneId) (keepVital : Bool) : LaneCore :=
  let own (q : Force) : Option Nat := (old.forceAddr q.path q.id q.kind q.word).bind (kvGet c.shadow)
  c.frisket.foldl (fun out q =>
    let stays := forceFate new keepVital q == 0
    match new.forceAddr q.path q.id q.kind q.word with
    | none => out
    | some a =>
      let x : Option Nat := if old.carriedWord new a then own q else some (readX new l out.cycle out.store a)
      match x with
      | none => if stays then { out with frisket := out.frisket ++ [q.under new] } else out
      | some x =>
        let out := { out with store := storeSet out.store a (sealWord new l out.cycle a q.kind (if stays then q.apply x else x)) }
        if stays then { out with frisket := out.frisket ++ [q.under new], shadow := kvSet out.shadow a x } else out) out

/-! ### The transfer of a lane (Tables 8-4 and 8-5) -/

/-- A crossing whose record changed or is new: state 2 under a trigger, else 1. -/
def LaneCore.newCrossing (new : Forme) (l : LaneId) (out : LaneCore) (i : Nat) (x : CrossingRec) : LaneCore :=
  let shut (id : Nat) : Bool := match new.sectionNo id with
    | some j => out.getWord new l 0x08 j 0 != 3
    | none => true
  let trigger := (x.strikes.filter (· != 0xFFFF)).any shut ||
    out.quoin.any (fun q => rowId q.2 == x.id && rowKind q.2 == 7)
  (out.setWord new l 0x0A i 0 (if trigger then 2 else 1)).setWord new l 0x0A i 1 0

/-- Records of a region that nothing continues take their restart values (R159). -/
def LaneCore.freshRecs {α : Type} (out : LaneCore) (ps : List (Nat × Nat)) (rs : List α) (g : LaneCore → Nat → α → LaneCore) : LaneCore :=
  out.forRecs rs (fun c i r => if ps.any (fun p => p.1 == i) then c else g c i r)

/-- A staging survives when its authority record and a range that permits it are equal in the new forme (Table 9-7). -/
def Forme.stagingKept (old new : Forme) (p : Nat × Staging) : Bool :=
  let a := p.1 % 8
  let permits (r : RangeRec) : Bool := decide (r.first ≤ p.2.target) && decide (p.2.target ≤ r.last) && member r.codes (p.2.code - 1) && member r.auths a
  old.authorities[a]? == new.authorities[a]? && old.ranges.any (fun r => permits r && new.ranges.contains r)

/-- A lane's state under the new forme, in the cycle about to be evaluated. -/
def LaneCore.transfer (c : LaneCore) (old new : Forme) (l : LaneId) (keepVital : Bool) (now : Nat) : LaneCore :=
  let ps := old.carriedRecs new
  let out : LaneCore := { c with
    cycle := now, store := old.carryStore new l now c.store, quoin := old.carryRows new l c.quoin, frisket := [], shadow := [],
    points := carryMem (ps 0x06) c.points, signals := carryMem (ps 0x07) c.signals,
    sweeps := (ps 0x08).filterMap (fun p => (kvGet c.sweeps p.2).map (fun n => (p.1, n))),
    swept := (ps 0x08).filterMap (fun p => if c.swept.contains p.2 then some p.1 else none),
    crossings := carryMem (ps 0x0A) c.crossings, funcs := carryMem (ps 0x13) c.funcs,
    restore := carryMem (ps 0x08) c.restore, headRef := carryMem (ps 0x09) c.headRef,
    stagings := c.stagings.filter (old.stagingKept new),
    opBlocks := c.opBlocks.filter (fun id => [0x06, 0x07, 0x08, 0x0A].any (fun code => old.carriedId new code id)),
    edges := carryMem (old.edgePairs new) c.edges, unavail := [], sweepRow := 0, sweepTail := [], sweepLost := true }
  let out := c.carryRoutes out old new l
  let out := out.forRecs new.timers (c.transferTimer old new l)
  let out := out.freshRecs (ps 0x07) new.signals (fun out i _ => out.restartSignal new l i)
  let out := out.freshRecs (ps 0x13) new.funcs (LaneCore.restartFunc new l)
  let out := out.freshRecs (ps 0x0A) new.crossings (LaneCore.newCrossing new l)
  c.carryForces out old new l keepVital

/-- What ends in the transfer: element requests of points that are not carried, and stagings (R160, Table 9-7). -/
def LaneCore.transferRecords (c : LaneCore) (old new : Forme) (now : Nat) : List OutRec :=
  let carried := (old.carriedRecs new 0x06).map (·.2)
  (c.points.filterMap (fun p =>
    if carried.contains p.1 then none
    else match p.2.slot, old.points[p.1]? with
      | some slot, some r => some (outRec false r.id (some slot) 0x03 0x0C now)
      | _, _ => none)) ++
  (c.stagings.filter (fun p => !old.stagingKept new p)).map (fun p =>
    { outRec false p.2.target (some p.2.slot) 0x03 0x0C now with code := p.2.code, ticket := p.2.ticket, authority := p.1 % 8 })

/-- Forces that the transfer removes, with their causes. -/
def LaneCore.transferRemoved (c : LaneCore) (new : Forme) (keepVital : Bool) : List (Force × Nat) :=
  (c.frisket.map (fun q => (q, forceFate new keepVital q))).filter (fun p => p.2 != 0)

/-! ### Counts and the transfer bound (R155, R174) -/

/-- How many records of a kind are matched, changed, new and removed: from identities and equal records. -/
def fourCounts (oldIds newIds : List Nat) (same : Nat) : List Nat :=
  let both := (newIds.filter oldIds.contains).length
  [same, both - same, newIds.length - both, (oldIds.filter (fun i => !newIds.contains i)).length]

/-- The counts of elements, timers and edge detectors. -/
def Forme.exchangeCounts (old new : Forme) : List (List Nat) :=
  let ids (f : Forme) : List Nat := elementRegions.flatMap f.identities
  let tid (f : Forme) : List Nat := f.timers.map (fun t => t.owner * 65536 + t.ord)
  let eid (f : Forme) : List Nat := f.edges.map (fun t => t.owner * 65536 + t.ord)
  [fourCounts (ids old) (ids new) ((elementRegions.map (fun c => (old.carriedRecs new c).length)).foldl (· + ·) 0),
   fourCounts (tid old) (tid new) (new.timers.filter (fun t => (old.timerMatch t).isSome)).length,
   fourCounts (eid old) (eid new) (old.edgePairs new).length]

/-- Words of the running store that have a counterpart in the new forme. -/
def Forme.mappedWords (old new : Forme) : Nat :=
  let per (code : Nat) : Nat := min (old.entry code).wordsPer (new.entry code).wordsPer
  (([0x03, 0x11, 0x12] ++ elementRegions).map (fun c => (old.carriedRecs new c).length * per c)).foldl (· + ·) 0 +
    (old.routes.filter (fun r => (old.sameRoutes new r).length == 1)).length * per 0x0B

/-- The transfer bound that the lanes compute at prepare. -/
def State.exchangeBound (s : State) (old new : Forme) : Nat :=
  transferBound (old.mappedWords new) ((s.refLane.map (fun l => (s.lanes.get l).core.quoin.length)).getD 0) new

/-- What the recorder keeps of an exchange, from one lane (R174). -/
def LaneCore.exchangeRecs (out : LaneCore) (old new : Forme) (l : LaneId) (dOld dNew : Digest) (now : Nat) : List RecUpd :=
  let leads := (indexed new.timers).filterMap (fun p =>
    let x := out.getWord new l 0x0F p.1 1
    if x = 0 then none else some (x, p.2))
  recKeep 0x0300 0 (digestBytes dOld ++ digestBytes dNew ++ leBytes 4 now ++
    (old.exchangeCounts new).flatMap (fun l => l.flatMap (leBytes 4)) ++ leBytes 4 out.quoin.length ++ leBytes 8 0) ::
  leads.flatMap (fun p => [recCount 0x0301 p.1, recKeep 0x0302 p.1 (leBytes 2 p.2.owner ++ leBytes 2 p.2.ord ++ leBytes 4 0)]) ++
  ((elementRegions.flatMap old.identities).filter (fun i => !(elementRegions.flatMap new.identities).contains i)).map (fun i =>
    recKeep 0x07F0 0 (leBytes 2 i ++ leBytes 6 0))

/-! ### The exchange cycle in the lanes -/

/-- The forme that waits in the slot that does not run. -/
def LaneState.waitingForme (st : LaneState) : Option Forme := st.running.bind (fun n => (st.slot (1 - n)).forme)

/-- A lane's transfer at step 4 of Table 8-4. A lane that fails it starts the new forme with cold values and delivers no galley. -/
def LaneState.exchange (st : LaneState) (l : LaneId) (keepVital failed : Bool) (now : Nat) : LaneState :=
  match st.forme, st.waitingForme with
  | some old, some new =>
    let out := if failed then LaneCore.cold new l else st.core.transfer old new l keepVital now
    let removed := st.core.transferRemoved new keepVital
    let dOld := (st.runDigest).getD 0
    let t := st.swapRun
    { t with
      core := out,
      records := t.records ++ st.core.transferRecords old new now,
      events := t.events ++ removed.map (fun p => { num := evForceRemoved, payload := p.1.bytes ++ leBytes 1 p.2 }),
      recs := t.recs ++ out.exchangeRecs old new l dOld ((t.runDigest).getD 0) now ++
        removed.map (fun p => recKeep (0x0200 + p.1.num) 0 (forceDetail p.1 3 0xFF 0 0 p.2)) }
  | _, _ => st

/-- The life-cycle states in which a vital flag newly set by a forme does not remove a force (R170). -/
def State.keepsVital (s : State) : Bool := s.life.state == .commissioning || s.life.state == .maintenance

/-- Every lane in service transfers its state. -/
def State.exchangeLanes (s : State) (failed : List LaneId) : State :=
  s.mapLanes (fun l st => if s.laneIn l then st.exchange l s.keepsVital (failed.contains l) s.net.count else st)

/-- The slot record after step 9 of the exchange cycle: the running sequence is one above the old slot's (R164). -/
def LaneState.sealRunning (st : LaneState) : LaneState :=
  match st.running with
  | none => st
  | some n => st.setSlot n { st.slot n with runSeq := max st.slot0.runSeq st.slot1.runSeq + 1 }

/-- Step 9 of the exchange cycle: slot records, `ev.exchange_done`, the boot record, and the operator blocks asked for anew (R164,
R360, R419). -/
def State.exchangeDone (s : State) : State :=
  let s := s.mapLanes (fun l st => if s.laneIn l then st.sealRunning else st)
  let s : State := { s with
    xchg := { s.xchg with state := .idle, target := 0, total := sat32 s.xchg.total 1 },
    req := { s.req with waiting := s.req.blockList.map (fun id => { kind := .block id, slot := none }) ++ s.req.waiting } }
  (s.raise evExchangeDone (leBytes 4 s.net.count)).alignForme

/-! ### The re-check (R156) -/

/-- A committed exchange returns to prepared with a reason. -/
def State.refuseExchange (s : State) (reason rec_ : Nat) : State :=
  ({ s with xchg := { s.xchg with state := .prepared, target := 0, reason := reason } } : State).raiseWith evExchangeRefused
    (leBytes 1 reason ++ leBytes 2 rec_) [recCount 0x0310 reason]

/-- A locked route or overlap of some lane in service without a counterpart. -/
def State.unmatchedOwner (s : State) : Option Nat :=
  s.lanesIn.findSome? (fun l =>
    let st := s.lanes.get l
    match st.forme, st.waitingForme with
    | some old, some new => old.unmatched new l st.core
    | _, _ => some 0xFFFF)

/-- `PLT.MODE` is 0 or 1: no lane is isolated and at least two are in service. -/
def State.modeSound (s : State) : Bool :=
  !s.platen.safe && decide (2 ≤ s.lanesIn.length) && LaneId.all.all (fun l => s.platen.lanes.get l != .isolated)

/-- The conditions at step 9 of the cycle before the target. The record number of an overlap stands without its owner bit (R156). -/
def State.recheck (s : State) : State :=
  if s.xchg.state ≠ .committing ∨ (s.net.count + 1) % 4294967296 ≠ s.xchg.target then s
  else if !s.modeSound ∨ s.platen.overrunRun ≠ 0 then s.refuseExchange 0x28 0
  else match s.unmatchedOwner with
    | some o => s.refuseExchange 0x29 (if o = 0xFFFF then o else o % 32768)
    | none => s

/-! ### Commands -/

/-- Life-cycle states in which exchange, operator and force commands are accepted (R152, R175). -/
def State.serves (s : State) : Bool :=
  s.life.state == .commissioning || s.life.state == .operation || s.life.state == .maintenance

/-- This member of a duplex pair stands by: its lanes take no request of its own host (R291). -/
def State.standsBy (s : State) : Bool := decide (s.dupRole = 2) || decide (s.dupRole = 3)

/-- The NAND slot of the forme partition that is not running. -/
def State.waitingNand (s : State) : Option NandSlot := s.lanesSlot.map (fun n => s.update.nandSlot 2 (1 - n))

/-- A forme image is being received or verified: the free slot is unsealed (Table 17-11). -/
def State.formeArrives (s : State) : Bool :=
  s.update.session.any (fun q => q.colophon.typ == 2) && (s.update.state == 1 || s.update.state == 2)

/-- The digest names the verified image that waits. -/
def State.digestWaits (s : State) (d : Digest) : Bool :=
  !s.formeArrives &&
  match s.waitingNand with
  | some x => x.verified && x.colophon.any (fun c => c.digest == d)
  | none => false

/-- An in-service proof stands in the way of an exchange (Table 18-8): it runs, or its lane has not rejoined. -/
def State.proofBars (s : State) : Bool :=
  (s.proofs.running.map (·.2)) == some 2 || LaneId.all.any (fun l => s.platen.lanes.get l == .isolated)

/-- A train node inaugurates: network state 7, or the attempt has not yet led to running (R266, Table 13-9; log 23). -/
def State.inaugurating (s : State) : Bool :=
  s.personality == 2 && (s.net.mode == .inaugurating || s.train.state == 1)

/-- The slots that do not run are unsealed in every lane in service: a load is to write them (R87). -/
def State.unsealFree (s : State) : State :=
  s.mapLanes (fun l st => if s.laneIn l then (match st.running with
    | some n => st.unseal (1 - n)
    | none => st) else st)

/-- `ilk.exchange_prepare`: it is answered once the load has been checked and mapped. While the load itself runs a second request is
answered `BUSY` (R87), and in the other states `STATE` (Table 8-3; log 61). -/
def State.prepare (s : State) (o : Outstanding) (d : Digest) : State :=
  if s.xchg.state = .loading ∧ s.xchg.loading ∧ s.serves then s.answer o .busy 0 []
  else if !s.serves ∨ s.xchg.state ≠ .idle ∨ s.lanesSlot.isNone ∨ s.proofBars ∨ s.inaugurating then s.answer o .state 0 []
  else if !s.digestWaits d then
    ({ s with xchg := { s.xchg with reason := 0x27 } } : State).answer o .refused 0 (leBytes 1 0x27)
  else ({ s.unsealFree with xchg := { s.xchg with state := .loading, loading := true, asked := some o, digest := d, target := 0 } } : State).keep o

def execIlkExchangePrepare (e : Entry) (s : State) : Host.Outcome State Fault Refusal :=
  .next (s.command 0x0610 true true e (fun o s =>
    if Entry.size e 64 then s.prepare o (digestAt (Entry.body e) 0) else s.badPayload o))

/-- The prepare that waits is answered, and is outstanding no more. -/
def State.answerPrepare (s : State) (st : Status) (detail : Nat) (payload : List Byte) : State :=
  match s.xchg.asked with
  | none => s
  | some o => ({ s with xchg := { s.xchg with asked := none } } : State).answerOut o st detail payload

/-- A load or a check of Table 8-1 fails in some lanes: back to idle (R86, R151). -/
def State.prepareFails (s : State) (x : LoadFail) (ls : List LaneId) : State :=
  (({ s with xchg := { s.xchg with state := .idle, loading := false, reason := x.reason } } : State).formeRefusedBy x.reason ls).answerPrepare
    x.status 0 (leBytes 1 x.reason)

/-- The image has arrived in every lane: the load checks, and the slot becomes "loaded" (R86, R87). -/
def State.formeLoad (s : State) (m : Image) (helfinor approval : Sig) (faults : List (LaneId × Bool)) : State :=
  match s.lanesSlot, s.waitingNand.bind (·.colophon) with
  | some n, some c =>
    match State.loadJudged (s.loadFail m c.digest c.installation helfinor approval s.net.cycleNs (some s.personality)) s.lanesIn faults with
    | some x => s.prepareFails x.1 x.2
    | none =>
      let t := s.mapLanes (fun l st => if s.laneIn l then st.sealLoaded (1 - n) (parseForme m) c else st)
      { t with xchg := { t.xchg with loading := false } }
  | _, _ => s

/-- FORME_LOAD: the image as it was decrypted, its signatures by Helfinor and by the approver, and the lanes at fault (see
State.loadJudged). -/
def execFormeLoad (image : Image) (sigs : Sig × Sig) (faults : List (LaneId × Bool)) (s : State) :
    Host.Outcome State Fault Refusal :=
  if s.power.running ∧ s.xchg.state = .loading ∧ s.xchg.loading then .next (s.formeLoad image sigs.1 sigs.2 faults) else .next s

/-- The running forme and the one that waits, in the first lane in service. -/
def State.exchangePair (s : State) : Option (Forme × Forme) :=
  s.refLane.bind (fun l =>
    match (s.lanes.get l).forme, (s.lanes.get l).waitingForme with
    | some old, some new => some (old, new)
    | _, _ => none)

/-- Payload of `ilk.exchange_prepare` (Table 8-2): state, transfer bound, matched and unmatched elements, timers and edge detectors. -/
def Forme.prepareReport (old new : Forme) (bound : Nat) : List Byte :=
  leBytes 1 XchgState.prepared.code ++ leBytes 3 0 ++ leBytes 4 bound ++
    (old.exchangeCounts new).flatMap (fun l => leBytes 4 (nthD l 0 0) ++ leBytes 4 (nthD l 1 0 + nthD l 2 0))

/-- The items of Table 8-1 are compared and the maps built. -/
def State.exchangePrepared (s : State) : State :=
  match s.exchangePair with
  | none => s
  | some (old, new) =>
    let bound := s.exchangeBound old new
    match old.exchangeFail new bound with
    | some x => s.prepareFails x s.lanesIn
    | none =>
      (({ s with xchg := { s.xchg with state := .prepared } } : State).raise evExchangePrepared (leBytes 4 bound)).answerPrepare
        .done 0 (old.prepareReport new bound)

def execExchangePrepared (s : State) : Host.Outcome State Fault Refusal :=
  if s.power.running ∧ s.xchg.state = .loading ∧ !s.xchg.loading then .next s.exchangePrepared else .next s

/-- The target cycle in its bounds (R154). -/
def commitTarget (count target : Nat) : Nat := clamp (count + 2) (count + 6000) target % 4294967296

/-- The partner's mirror frame 1: exchange state, target, and whether its prepared digest is this member's (Table 14-2). -/
def State.partnerExchange (s : State) : Option (Nat × Nat × Bool) :=
  s.refLane.bind (fun l =>
    match (s.lanes.get l).forme with
    | none => none
    | some f =>
      let e := s.envOf l f
      e.mirror.bind (fun m =>
        match e.partnerNumber m 1 0, e.partnerNumber m 1 1, e.partnerNumber m 1 2 with
        | some st, some lo, some hi =>
          let same := (List.range 4).map (fun w => e.partnerNumber m 1 (w + 3)) ==
            (digestWords (s.lanes.get l).preparedDigest).map some
          some (st, lo + 65536 * hi, same)
        | _, _, _ => none))

/-- A standby that reports the same prepared digest. -/
def State.standbyPrepared (s : State) : Bool := (s.partnerExchange).any (fun p => p.1 == 2 && p.2.2)

/-- `ilk.exchange_commit`. -/
def State.commitExchange (s : State) (o : Outstanding) (target : Nat) : State :=
  if !s.serves ∨ s.xchg.state ≠ .prepared ∨ s.standsBy ∨ (s.isDuplex && !s.standbyPrepared) then s.answer o .state 0 []
  else
    let t := commitTarget s.net.count target
    ({ s with xchg := { s.xchg with state := .committing, target := t } } : State).answer o .done 0 (leBytes 4 t)

def execIlkExchangeCommit (e : Entry) (s : State) : Host.Outcome State Fault Refusal :=
  .next (s.command 0x0611 true true e (fun o s =>
    if Entry.size e 4 then s.commitExchange o (Entry.field e 0 4) else s.badPayload o))

/-- What the mirror frames received before the coming strobe say, read in the cycle that the strobe opens. -/
def State.partnerAhead (s : State) : Option (Nat × Nat × Bool) :=
  ({ s with net := { s.net with snapshot := s.net.buffers, count := s.net.strobeCount } } : State).partnerExchange

/-- A standby that is prepared for the same forme takes the mirrored target over before the strobe is judged, so that a target two
cycles ahead finds it committed (R154). -/
def State.followTarget (s : State) : State :=
  match s.partnerAhead with
  | some (st, target, same) =>
    if s.standsBy ∧ st = 3 ∧ same ∧ s.xchg.state = .prepared then
      { s with xchg := { s.xchg with state := .committing, target := target } }
    else s
  | none => s

/-- `ilk.exchange_abort`: only a prepared exchange ends. -/
def State.abortExchange (s : State) (o : Outstanding) : State :=
  if !s.serves ∨ s.xchg.state ≠ .prepared then s.answer o .state 0 []
  else ({ s with xchg := { s.xchg with state := .idle, target := 0 } } : State).answer o .done 0 (leBytes 1 XchgState.idle.code)

def execIlkExchangeAbort (e : Entry) (s : State) : Host.Outcome State Fault Refusal :=
  .next (s.command 0x0612 true true e (fun o s => s.abortExchange o))

/-- Payload of `ilk.exchange_status`: state, target cycle, last reason. -/
def Xchg.report (x : Xchg) : List Byte := leBytes 1 x.state.code ++ leBytes 1 x.reason ++ leBytes 2 0 ++ leBytes 4 x.target

def execIlkExchangeStatus (e : Entry) (s : State) : Host.Outcome State Fault Refusal :=
  .next (s.command 0x0613 false true e (fun o s =>
    if !s.serves ∨ s.standsBy then s.answer o .state 0 []
    else s.answer o .done 0 s.xchg.report))

end Sys2Proof.Machine
end

