-- ==== Sys2Proof/Machine/Cycle.lean ====
section
/-! DEFINITION. The interlocking cycle: the strobe with sampling, input phase and evaluation (R89 to R93), the evaluation deadline
(R96, R97), galleys and the window (R42, R43), permits and gate drives (R58, R59), the cycle close with hand-over and checkpoint
(R95), the exchange cycle (R157) and the rejoin (R377). -/

namespace Sys2Proof.Machine

/-! ### Step 1 -/

/-- Requests that the mirror of one cycle carries (Table 14-2). -/
def State.mirrorSpace (s : State) : Nat := (s.forme.map Forme.mirrorRoom).getD 0

/-- Requests that the partner's mirror carries. -/
def State.partnerReqs (s : State) : List Req :=
  match s.refLane with
  | none => []
  | some l =>
    match (s.lanes.get l).forme with
    | none => []
    | some f =>
      let e := s.envOf l f
      (e.mirror.map e.partnerReqs).getD []

/-- A block that the steward asks for from its own list (R419). -/
def Req.fromList (q : Req) : Bool := q.slot.isNone && (match q.kind with
  | .block _ => true
  | _ => false)

/-- Requests frozen into the cycle (R93); in a duplex pair they pass through the mirror of the cycle before (R291), but for the
blocks of each member's own list, which come first (R419). -/
def State.freezeRequests (s : State) : State :=
  if !s.isDuplex then { s with req := { s.req with frozen := s.req.waiting, waiting := [] } }
  else
    let own := s.req.waiting.filter Req.fromList
    let rest := s.req.waiting.filter (fun q => !q.fromList)
    if s.duplex.commanding then
      { s with req := { s.req with frozen := own ++ s.req.mirrored, mirrored := rest.take s.mirrorSpace,
                                   waiting := rest.drop s.mirrorSpace } }
    else { s with req := { s.req with frozen := own ++ s.partnerReqs, mirrored := [], waiting := [] } }

/-- Count, tag and snapshot advance; the votes of the cycle begin anew. -/
def State.openCycle (s : State) (longer : Bool) : State :=
  { s with
    net := { s.net with count := s.net.strobeCount, atStart := false, phase := 0, snapshot := s.net.buffers },
    platen := { s.platen.newCycle with lengthened := longer },
    lanes := s.lanes.map (fun st => { st with galley := none }) }

/-- The field side samples and seals (R12, R89); the supervisor's own means are taken with it (R406). Words do not reach the lanes while the link is out (R203). -/
def State.sealField (s : State) (f : Forme) (x : Sample) (ns : Nat) : State :=
  let t := s.sampleField f x ns
  { t with
    power := { t.power with vsMv := x.vsMv.getD t.power.vsMv, holdupMv := x.holdupMv.getD t.power.holdupMv }
    field := { t.field with sealed := if t.field.link then f.sealInputs t.field x t.net.count else [] } }

/-! ### Steps 2 to 5 -/

/-- What one lane reads at this strobe: the environment, with the words that an isolator changed on their way (R12). -/
def State.strobeEnv (s : State) (x : Sample) (stuck : List (Nat × Nat)) (findings : List (Nat × Nat)) (fell : List Nat)
    (l : LaneId) (f : Forme) : Env :=
  let e := s.envOf l f
  { e with
    restarted := x.restarted, stuckOpen := stuck, findings := findings, lineFell := fell,
    sealed := x.corrupt.foldl (fun st c => if c.1 = l then kvSet st c.2.1 c.2.2 else st) e.sealed }

/-- How long the lane took (items 0x0010 to 0x0015). -/
def LaneState.timed (st : LaneState) (l : LaneId) (us count : Nat) : LaneState :=
  { st with evalUs := us, recs := st.recs ++
      [recCount (0x0010 + l.num) us, recKeep (0x0013 + l.num) us (leBytes 4 count ++ leBytes 4 0)] }

/-- Regions of Table 1-6: base and size; 0 to 4 those of a lane MRAM, 5 to 8 those of the steward MRAM. -/
def mramRegions : List (Nat × Nat) :=
  [(0x00000000, 0x01800000), (0x01800000, 0x01800000), (0x03000000, 0x00400000), (0x03400000, 0x00400000), (0x03800000, 0x00800000),
   (0x00000000, 0x00800000), (0x00800000, 0x00400000), (0x00C00000, 0x00200000), (0x00E00000, 0x00200000)]

/-- A write outside the region it belongs to, which the firmware aborts (R17). -/
def outside (w : Nat × Nat × Nat) : Bool :=
  let r := nthD mramRegions w.2.1 (0, 0)
  decide (w.2.2 < r.1) || decide (r.1 + r.2 ≤ w.2.2) || (decide (w.1 < 3) != decide (w.2.1 < 5))

/-- Aborted writes of a die in this cycle (R17). -/
def memoryViolations (x : Sample) (die : Nat) : Nat := (x.mramWrites.filter (fun w => w.1 == die && outside w)).length

/-- Faults of a lane's hardware in this cycle: words computed wrong, corrected errors, and an uncorrectable SRAM error, with which
no galley comes (R16). -/
def LaneState.suffer (st : LaneState) (l : LaneId) (x : Sample) : LaneState :=
  let wrong := (x.wrong.filter (fun w => w.1 == l)).map (fun w => (w.2.1, w.2.2))
  let fixed := ((x.corrected.filter (fun c => c.1 == l)).map (·.2)).foldl (· + ·) 0
  let st := { st with galley := st.galley.map (fun ws => arrivedGalley ws wrong), eccCorrected := sat32 st.eccCorrected fixed,
                      regionFaults := sat32 st.regionFaults (memoryViolations x l.num) }
  if x.sram.contains l then { st with galley := none, eccBad := sat32 st.eccBad 1 } else st

/-- The extremes of the load currents and supplies (items 0x0550 to 0x055F, 0x0540 to 0x0545, log 14), the completion of the galley (0x0018
to 0x001A), and the die's temperature. -/
def LaneState.currents (st : LaneState) (l : LaneId) (x : Sample) : LaneState :=
  { st with temp := ((x.laneTemp.find? (fun p => p.1 == l)).map (·.2)).getD st.temp,
            recs := st.recs ++ (x.voMa.filter (fun p => decide (p.1 < 16))).map (fun p => recKeep (0x0550 + p.1) p.2 []) ++
              (x.supplyMv.filter (fun p => decide (p.1 < 6))).map (fun p => recKeep (0x0540 + p.1) p.2 []) ++
              (x.galleyUs.filter (fun p => p.1 == l)).map (fun p => recCount (0x0018 + l.num) p.2) }

/-- Every lane in service runs the input phase and the evaluation. -/
def State.evaluateLanes (s : State) (x : Sample) (stuck findings : List (Nat × Nat)) (fell : List Nat) (failed : List LaneId) : State :=
  s.mapLanes (fun l st =>
    if !s.laneIn l then st
    else match st.forme with
      | none => st
      | some f =>
        let st := st.evaluate (s.strobeEnv x stuck findings fell l f)
        let st := match x.evalUs.find? (fun p => p.1 == l) with
          | some p => st.timed l p.2 s.net.count
          | none => st
        let st := (st.suffer l x).currents l x
        { st with lostWords := [], galley := if failed.contains l then none else st.galley })

/-! ### The duplex sweep of a cycle (R290, R292) -/

/-- Mirror environment of the first lane in service. -/
def State.refMirror (s : State) : Option (Env × MirrorEnv × LaneState) :=
  s.refLane.bind (fun l => ((s.lanes.get l).forme).bind (fun f =>
    let e := s.envOf l f
    e.mirror.map (fun m => (e, m, s.lanes.get l))))

/-- The commanding member's sweep goes on. -/
def State.advanceSweep (s : State) : State :=
  match s.refMirror with
  | some (e, m, st) => { s with duplex := { s.duplex with sweepAt := (Ev.start st.core).nextSweep e m } }
  | none => s

/-- A complete pass has ended: clean when nothing differed and nothing was missed (R292). -/
def Duplex.endPass (d : Duplex) (clean : Bool) : Duplex :=
  if clean then { d with passes := min 65535 (d.passes + 1), ready := true, dirty := false } else { d with dirty := false }

/-- The standby after its evaluation: passes, mismatches and readiness (R283, R292, Tables 14-2 and 14-4). `before` is the state in
which the lanes compared. -/
def State.standbySweep (s before : State) : State :=
  match s.refMirror, before.refMirror with
  | some (e, m, st), some (_, _, old) =>
    let d := s.duplex
    let d := { d with mismatches := sat32 d.mismatches st.adopted }
    let d := if e.partnerDigestOk m then d else { d with ready := false, dirty := true }
    let d := match e.partnerSweep m with
      | none => { d with dirty := true }
      | some (i, items) =>
        let beyond := if i = 0 then ((Ev.start old.core).closePass e).adopted else 0
        let whole := decide (d.sweepAt = i) && !old.core.sweepLost
        let d := if i = 0 then d.endPass (whole && !d.dirty && beyond == 0 && d.partnerSeen) else d
        let r := (e.partnerNumber m 0 6).getD 0
        let frames := e.forme.mirrorRoom - r
        let total := ((Ev.start st.core).sweepItems e).length
        let next := if items.length < 7 * frames ∨ total ≤ 7 * (i + frames) then 0 else i + frames
        { d with sweepAt := next, dirty := d.dirty || decide (beyond < st.adopted) || st.core.sweepLost }
    let d := if 0 < st.adopted then { d with ready := false } else d
    { s with duplex := d }
  | _, _ => s

/-- The duplex unit's part of the strobe. -/
def State.duplexStrobe (s before : State) : State :=
  if !s.isDuplex then s else if s.duplex.commanding then s.advanceSweep else s.standbySweep before

/-! ### The strobe -/

/-- Length of the cycle that ends at the next strobe, ns (R96, R157). -/
def State.cycleLength (s : State) : Nat :=
  ((s.forme.map Forme.tcNs).getD 0) + (if s.platen.stretched || s.platen.lengthened then s.net.cycleNs else 0)

/-- Sampling, freezing of the requests, input phase and evaluation of a cycle whose count stands; `ns` is the length of the cycle before. -/
def State.runCycle (s : State) (f : Forme) (x : Sample) (failed : List LaneId) (freeze : Bool) (ns : Nat) : State :=
  let old := s.field
  let s := s.sealField f x ns
  let stuck := s.field.stuckOpen.filter (fun p => !old.stuckOpen.contains p)
  let fell := f.lineFell { s.field with sealed := old.sealed }
  let s := s.recordBatch ((List.range 4).flatMap (fun d => List.replicate (memoryViolations x d) (recCount 0x0740 d)))
  let s := if freeze then s.freezeRequests else { s with req := { s.req with frozen := [] } }
  let before := s
  let s := s.evaluateLanes x stuck old.findings fell failed
  let s := s.duplexStrobe before
  let s : State := { s with field := s.field.nextInterval, platen := { s.platen with stretched := false, emitted := x.emitted } }
  s.proofResult

/-- An exchange cycle: the transfer comes before the input phase, and no request is frozen (Table 8-4). -/
def State.exchangeStrobe (s : State) (x : Sample) (failed : List LaneId) : State :=
  let ns := s.cycleLength
  let s := (s.openCycle true).exchangeLanes failed
  match s.forme with
  | none => s
  | some f => s.runCycle f x failed false ns

/-! ### The rejoin (R377) -/

/-- Lists whose order is that in which a lane scanned, put in rising order, so that two lanes' states can be compared. -/
def LaneCore.sorted (c : LaneCore) : LaneCore :=
  let le (a b : Nat) : Bool := decide (a ≤ b)
  { c with ovlAux := sortBy le c.ovlAux, opBlocks := sortBy le c.opBlocks, swept := sortBy le c.swept, unavail := sortBy le c.unavail,
           voBlocked := sortBy le c.voBlocked, bankBlocked := sortBy le c.bankBlocked,
           bankFaults := sortBy le c.bankFaults }

/-- A held row free of the lane's own coding and place. -/
def plainRows (l : LaneId) (c : LaneCore) : List Row :=
  sortBy (fun a b => decide (a.id * 65536 + a.owner ≤ b.id * 65536 + b.owner)) (c.quoin.filterMap (fun q =>
    (rowOwner l q.2).map (fun o => { id := rowId q.2, kind := rowKind q.2, state := rowState q.2, group := rowGroup q.2, owner := o })))

/-- Words of a store with their own identity, tag, kind and value. -/
def plainWords (l : LaneId) (c : LaneCore) : List (Nat × Nat × Nat × Nat × Option Nat) :=
  c.store.map (fun p => (p.1, wordId p.2, wordTag p.2, wordKind p.2, decodeSelf p.2 (laneSet l)))

/-- The state that a rejoining lane takes from two others: every item only when both give the same value; its words take the tag of the
cycle about to be evaluated (R417). -/
def rejoinCore (l a b : LaneId) (x y : LaneCore) (now : Nat) : Option LaneCore :=
  let blank (c : LaneCore) : LaneCore := { c.sorted with store := [], quoin := [] }
  if blank x = blank y ∧ plainRows a x = plainRows b y ∧ plainWords a x = plainWords b y ∧
      x.quoin.length = (plainRows a x).length then
    some { x.sorted with
      store := x.store.map (fun p => (p.1, reseal p.2 (laneSet a) (laneSet l) (now % 256))),
      quoin := (plainRows a x).foldl (commitRow l) [] }
  else none

/-- The transfer into lane l: back in service at count 0, or excluded when an item is not given identically. -/
def State.rejoin (s : State) (l : LaneId) : State :=
  let s : State := { s with proofs := { s.proofs with rejoin := none } }
  match s.lanesIn with
  | [a, b] =>
    match rejoinCore l a b (s.lanes.get a).core (s.lanes.get b).core s.net.count with
    | some c =>
      let s := s.updLane l (fun st => { (st.begin true c false) with half0 := st.half0, half1 := st.half1 })
      let s : State := { s with platen := { s.platen with lanes := s.platen.lanes.set l (.inService 0) } }
      s.raise evLaneRejoined (leBytes 1 l.num)
    | none => s.exclude l 6
  | _ => s.exclude l 6

/-- The lane whose rejoin is due. -/
def State.rejoinDue (s : State) : Option LaneId := s.proofs.rejoin.bind (fun l => if s.platen.lanes.get l = .isolated then some l else none)

/-- A cycle that begins with a rejoin transfer. -/
def State.rejoinStrobe (s : State) (l : LaneId) (x : Sample) : State :=
  let ns := s.cycleLength
  let s := (s.openCycle true).rejoin l
  match s.forme with
  | none => s
  | some f => s.runCycle f x [] true ns

/-- The module can open a cycle: it runs a forme, its network die works, the last cycle is closed, and the network cycle is the first of
an interlocking cycle. A module that is not the cycle master takes this from the distributed count (R90); a vehicle that knows none keeps
its own (R266). -/
def State.canStrobe (s : State) : Bool :=
  s.netOn && !s.platen.cycleOpen && s.forme.isSome && !s.lanesIn.isEmpty && s.net.phase == 0 &&
  (s.isMaster || s.net.countKnown || s.isTrain)

/-- The cycle to come is the target of a committed exchange (R157). -/
def State.exchangeDue (s : State) : Bool := s.xchg.state == .committing && s.net.strobeCount == s.xchg.target

/-- The cycle strobe: an ordinary cycle, or the exchange or rejoin cycle that is due. -/
def State.strobe (s : State) (x : Sample) : State :=
  if s.exchangeDue then s.exchangeStrobe x []
  else match s.rejoinDue with
    | some l => s.rejoinStrobe l x
    | none => match s.forme with
      | some f => (s.openCycle false).runCycle f x [] true s.cycleLength
      | none => s

def execCycleStrobe (x : Sample) (s : State) : Host.Outcome State Fault Refusal :=
  if s.canStrobe then .next (s.followTarget.strobe x) else .next s

def execExchangeCycle (x : Sample) (failed : List LaneId) (s : State) : Host.Outcome State Fault Refusal :=
  if s.canStrobe ∧ s.followTarget.exchangeDue then .next (s.followTarget.exchangeStrobe x failed) else .next s

def execLaneRejoin (x : Sample) (s : State) : Host.Outcome State Fault Refusal :=
  match s.rejoinDue with
  | some l => if s.canStrobe then .next (s.followTarget.rejoinStrobe l x) else .next s
  | none => .next s

/-! ### The evaluation deadline (R96, R97) -/

/-- Lanes in service whose evaluation has not completed at E. -/
def State.asking (s : State) (late : List LaneId) : List LaneId := lanesWhere (fun l => s.laneIn l && late.contains l)

/-- The network die would grant the stretch. -/
def State.grants (s : State) (late : List LaneId) : Bool :=
  let n := (lanesWhere s.serving).length
  let k := (s.asking late).length
  if n = 3 then decide (2 ≤ k) else n == 2 && decide (1 ≤ k)

/-- A cycle in which a stretch can be granted: open, not stretched yet, not an exchange or rejoin cycle (R96, R157). -/
def State.stretchable (s : State) : Bool := s.power.running && s.platen.cycleOpen && !s.platen.stretched && !s.platen.lengthened && !s.platen.safe

/-- A granted stretch is an overrun. -/
def State.overrun (s : State) (late : List LaneId) : State :=
  let mask := ofMembers (LaneId.all.map (fun l => (s.asking late).contains l))
  let run := s.platen.overrunRun + 1
  let us (l : LaneId) : List Byte := leBytes 4 (s.lanes.get l).evalUs
  let s : State := { s with platen := { s.platen with stretched := true, overrunRun := run, overruns := sat32 s.platen.overruns 1 } }
  s.raiseWith evOverrun (leBytes 1 mask ++ leBytes 1 run) [recKeep 0x0040 0 (leBytes 4 mask ++ us .a ++ us .b ++ us .c)]

def execEvaluationDeadline (late : List LaneId) (s : State) : Host.Outcome State Fault Refusal :=
  if s.stretchable ∧ s.grants late then
    .next (if s.platen.overrunRun < 2 then s.overrun late else s.enterSafe causeOverruns)
  else .next s

def execOverrunLimit (late : List LaneId) (s : State) : Host.Outcome State Fault Refusal :=
  if s.stretchable ∧ s.grants late ∧ 2 ≤ s.platen.overrunRun then .next (s.enterSafe causeOverruns) else .next s

/-- A lane that sees no strobe asks for the safe state (R404, R54). A lone request in two-out-of-three mode counts at the next vote. -/
def State.askSafe (s : State) (l : LaneId) : State :=
  let s : State := { s with platen := { s.platen with safeAsked := s.platen.safeAsked.set l true } }
  let asks := (lanesWhere (fun k => s.serving k && s.platen.safeAsked.get k)).length
  let n := (lanesWhere s.serving).length
  if (n = 3 ∧ 2 ≤ asks) ∨ (n ≠ 3 ∧ 1 ≤ asks) then s.enterSafe causeRequest else s

def execStrobeTimeout (l : LaneId) (s : State) : Host.Outcome State Fault Refusal :=
  if s.power.running ∧ s.laneIn l then .next (s.askSafe l) else .next s

/-! ### Galleys -/

def execGalleyReceived (copy lane : LaneId) (bad : List (Nat × Word64)) (s : State) : Host.Outcome State Fault Refusal :=
  match s.forme with
  | some f => .next (s.deliver f copy lane bad)
  | none => .next s

def execGalleyWindowClose (copy : LaneId) (s : State) : Host.Outcome State Fault Refusal :=
  match s.forme with
  | some f => if s.copyOpen copy then .next (s.copyVote f copy) else .next s
  | none => .next s

/-- A permit ends 1.5 cycles after its last refresh (R59). -/
def execPermitExpiry (l : LaneId) (item : Nat) (s : State) : Host.Outcome State Fault Refusal :=
  .next { s with field := { s.field with permits := s.field.permits.filter (fun p => !(p.lane == l && p.item == item)) } }

/-- A gate drive outside its band opens every switch of its lane (R58). -/
def execGateDriveLoss (l : LaneId) (s : State) : Host.Outcome State Fault Refusal :=
  .next (s.updLane l (fun st => { st with gate := false }))

/-! ### Step 9 -/

/-- Rows held by a lane. -/
def LaneState.rowsHeld (st : LaneState) : Nat := st.core.quoin.length

/-- The most rows held in any lane in service. -/
def State.mostRows (s : State) : Nat := (s.lanesIn.map (fun l => (s.lanes.get l).rowsHeld)).foldl max 0

/-- Quoin reports at the close (Table 6-10), with the item of held rows in the lanes' batch. -/
def State.closeRows (s : State) : State :=
  let n := s.mostRows
  let s : State := { s with req := { s.req with
    heldRows := s.lanes.mapL (fun l st => if s.laneIn l then st.rowsHeld else s.req.heldRows.get l),
    highWater := max s.req.highWater n } }
  match s.refLane with
  | none => s
  | some l => s.updLane l (fun st => { st with recs := st.recs ++ [recKeep 0x0110 n (leBytes 4 s.net.count ++ leBytes 4 0)] })

/-- How many of a list of raises carry a number. -/
def raisesOf (l : List Raise) (num : Nat) : Nat := (l.filter (fun r => r.num == num)).length

/-- The counters of motion and guard functions (Table 11-11). -/
def State.closeFuncs (s : State) : State :=
  let ev := s.laneEvents
  let st := s.refLane.map s.lanes.get
  let r := s.req
  { s with req := { r with
    motViolations := sat32 r.motViolations (raisesOf ev evMotionViolation),
    motFaults := sat32 r.motFaults (raisesOf ev evMotionSource),
    grdDemands := sat32 r.grdDemands ((st.map (·.demands)).getD 0),
    grdDiscs := sat32 r.grdDiscs (raisesOf ev evGuardDiscrepancy),
    grdFbs := sat32 r.grdFbs (raisesOf ev evGuardFeedback),
    grdResets := sat32 r.grdResets ((st.map (·.resets)).getD 0) } }

/-- The half that was not written last (R18, R95). A half counts as written once its seal stands (log 40). -/
def LaneState.oldHalf (st : LaneState) : Nat := 1 - st.lastHalf

def LaneState.half (st : LaneState) (n : Nat) : Checkpoint := if n = 0 then st.half0 else st.half1

def LaneState.setHalf (st : LaneState) (n : Nat) (h : Checkpoint) : LaneState :=
  if n = 0 then { st with half0 := h } else { st with half1 := h }

/-- The shadow of the cycle's state is taken, and the half not written last begins to be written: it is not sealed meanwhile. -/
def LaneState.snapshot (st : LaneState) : LaneState :=
  let n := (st.writing.map (·.1)).getD st.oldHalf
  ({ st with writing := some (n, st.core) }).setHalf n { st.half n with isSealed := false }

/-- What a lane's lists of the cycle become once they are handed over. -/
def LaneState.cleared (st : LaneState) : LaneState :=
  { st with records := [], events := [], recs := [], demands := 0, resets := 0, adopted := 0 }

/-- Lists cleared and shadows taken: none in the safe state, whose halves stay unsealed (Table 3-5). -/
def State.closeLanes (s : State) : State :=
  s.mapLanes (fun l st =>
    let st := st.cleared
    if s.laneIn l ∧ !s.platen.safe then st.snapshot else st)

/-- The cycle's end for the overrun run counter (Table 5-2). -/
def Platen.close (p : Platen) : Platen :=
  { p with cycleOpen := false, overrunRun := if p.stretched ∨ p.safe then p.overrunRun else 0 }

/-- The copies of safety words that the lanes hand the steward at the close: every lane's galley, and the words of the first lane in
service; with them the effective age bound of every remote input (R15, R32, Table 5-1). -/
def State.copyWords (s : State) : State :=
  match s.refLane.bind (fun l => (s.lanes.get l).forme.map (fun f => (l, f))) with
  | none => s
  | some (l, f) =>
    { s with req := { s.req with copies := some {
        cycle := s.net.count, lane := l, galleys := s.lanes.map (fun st => st.galley.getD []), store := (s.lanes.get l).core.store,
        shadow := (s.lanes.get l).core.shadow,
        bounds := (indexed f.remotes).filterMap (fun p => if p.2.output = 0 then some (p.1, min p.2.maxAge (2 * f.header.m)) else none) } } }

/-- The whole of step 9. -/
def State.closeCycle (s : State) : State :=
  let s := (((s.closeRows).closeFuncs).copyWords).handOver
  let s := s.takeDescriptor
  let s := s.recheck
  let s := if s.exchanging then s.exchangeDone else s
  let s := s.closeLanes
  { s with platen := s.platen.close, req := { s.req with frozen := [] } }

def execCycleClose (s : State) : Host.Outcome State Fault Refusal :=
  if s.power.running ∧ s.platen.cycleOpen then .next s.closeCycle else .next s

/-- The half is sealed with the count of the cycle just closed (R18, R95). -/
def State.sealCheckpoint (s : State) (l : LaneId) : State :=
  match (s.lanes.get l).writing with
  | none => s
  | some (n, core) => s.updLane l (fun st => ({ st with writing := none, lastHalf := n }).setHalf n
      { isSealed := true, count := core.cycle, digest := (st.runDigest).getD 0,
        clean := s.duplex.commanding || s.duplex.ready, core := core })

def execCheckpointSeal (l : LaneId) (s : State) : Host.Outcome State Fault Refusal :=
  if s.power.running ∧ !s.platen.safe ∧ !(s.lanes.get l).held then .next (s.sealCheckpoint l) else .next s

/-! ### Happenings inside an evaluation that have a row of their own -/

/-- An operation of the lanes while the module runs. -/
def State.laneOp (s : State) (op : Env → Ev → Ev) : State := if s.power.running then s.inLanes op else s

/-- The scrubber of lane l finds a row that fails its check (R111). -/
def State.scrubFault (s : State) (l : LaneId) (row : Nat) : State :=
  if s.power.running ∧ s.laneIn l ∧ (kvGet (s.lanes.get l).core.quoin row).isSome ∧ !(s.lanes.get l).badRows.contains row then
    let s := s.updLane l (fun st => { st with badRows := insertOnce st.badRows row, quoinSound := false })
    let s : State := { s with req := { s.req with scrubFaults := s.req.scrubFaults.upd l (fun n => sat32 n 1) } }
    s.recordBatch [recCount (0x0020 + l.num) 5]
  else s

def execQuoinScrubFault (l : LaneId) (row : Nat) (s : State) : Host.Outcome State Fault Refusal := .next (s.scrubFault l row)

def execTimerExpiry (t : Nat) (s : State) : Host.Outcome State Fault Refusal :=
  .next (s.laneOp (fun e v => v.timerExpiry e t))

def execApproachLockExpiry (r : Nat) (s : State) : Host.Outcome State Fault Refusal :=
  .next (s.laneOp (fun e v => v.approachExpiry e r))

def execOverlapReleaseExpiry (o : Nat) (s : State) : Host.Outcome State Fault Refusal :=
  .next (s.laneOp (fun e v => v.overlapExpiry e o))

def execRouteStalled (r : Nat) (s : State) : Host.Outcome State Fault Refusal :=
  .next (s.laneOp (fun e v => v.routeStall e r))

def execPointStroke (p : Nat) (s : State) : Host.Outcome State Fault Refusal :=
  .next (s.laneOp (fun e v => v.strokeExpiry e p))

def execPointLost (p : Nat) (s : State) : Host.Outcome State Fault Refusal :=
  .next (s.laneOp (fun e v => v.lossExpiry e p))

def execSignalM0Restore (g : Nat) (s : State) : Host.Outcome State Fault Refusal :=
  .next (s.laneOp (fun e v => v.restoreM0 e g))

def execSweepTimeout (n : Nat) (s : State) : Host.Outcome State Fault Refusal :=
  .next (s.laneOp (fun e v => v.sweepExpiry e n))

def execWarningTimeExpiry (x : Nat) (s : State) : Host.Outcome State Fault Refusal :=
  .next (s.laneOp (fun e v => v.warningExpiry e x))

def execCrossingFail (x : Nat) (s : State) : Host.Outcome State Fault Refusal :=
  .next (s.laneOp (fun e v => v.crossingFails e x))

def execCrossingLightsRestored (x : Nat) (s : State) : Host.Outcome State Fault Refusal :=
  .next (s.laneOp (fun e v => v.lightsRestored e x))

def execOpeningLoweringExpiry (x : Nat) (s : State) : Host.Outcome State Fault Refusal :=
  .next (s.laneOp (fun e v => v.openingExpiry e x))

def execGuardDiscrepancy (f : Nat) (s : State) : Host.Outcome State Fault Refusal :=
  .next (s.laneOp (fun e v => v.discrepancyExpiry e f))

def execGuardFeedback (f : Nat) (s : State) : Host.Outcome State Fault Refusal :=
  .next (s.laneOp (fun e v => v.feedbackExpiry e f))

def execStandstillProven (f : Nat) (s : State) : Host.Outcome State Fault Refusal :=
  .next (s.laneOp (fun e v => v.stillExpiry e f))

def execSimultaneityExpiry (f : Nat) (s : State) : Host.Outcome State Fault Refusal :=
  .next (s.laneOp (fun e v => v.simultaneityExpiry e f))

def execAuxWindowExpiry (authority : Nat) (s : State) : Host.Outcome State Fault Refusal :=
  .next (s.laneOp (fun e v => v.windowExpiry e authority))

def execAuxNotCounted (authority : Nat) (s : State) : Host.Outcome State Fault Refusal :=
  .next (s.laneOp (fun e v => v.notCountedOf e authority))

def execExternalEnergyProcedure (bank : Nat) (s : State) : Host.Outcome State Fault Refusal :=
  .next (s.laneOp (fun e v => v.bankProcedure e bank))

end Sys2Proof.Machine
end

