-- ==== Sys2Proof/Machine/Params.lean ====
section
/-! DEFINITION. The value of every parameter (R5, R105, R124, R173, R188, R208, R227, R260, R279, R298, R315, R325 and the parameter tables
of the other chapters). A read-only parameter reads the state; a writable one reads its cell. -/

namespace Sys2Proof.Machine

/-! ### Interlocking families -/

/-- `PLT.MODE` (Table 3-1). -/
def State.platenMode (s : State) : Nat :=
  if s.platen.safe then 3
  else if (lanesWhere s.serving).length = 3 then 0
  else if LaneId.all.any (fun l => s.platen.lanes.get l == .isolated) then 2
  else 1

/-- `PLT.LANE_STATE`: the states of Table 3-4 in their order (log 16). -/
def LaneMode.code : LaneMode → Nat
  | .inService _ => 0
  | .isolated => 1
  | .excluded => 2

/-- `PLT.DISAGREE_COUNT`. -/
def LaneMode.count : LaneMode → Nat
  | .inService n => n
  | _ => 0

def paramPlt (s : State) (n : Nat) : Option Nat :=
  if n = 3 then some s.platenMode
  else if 4 ≤ n ∧ n ≤ 6 then some (s.platen.lanes.get (LaneId.ofNum (n - 4))).code
  else if 7 ≤ n ∧ n ≤ 9 then some (s.platen.lanes.get (LaneId.ofNum (n - 7))).count
  else none

/-- The frisket of the first lane in service. -/
def State.frisket (s : State) : List Force := (s.refLane.map (fun l => (s.lanes.get l).core.frisket)).getD []

/-- `ILK.AUX_STAGED`. -/
def State.auxStaged (s : State) : Nat :=
  let open_ := (s.refLane.map (fun l => (s.lanes.get l).core.stagings)).getD []
  ofMembers ((List.range 8).map (fun i => open_.any (fun p => p.1 == i)))

def paramIlk (s : State) (n : Nat) : Option Nat :=
  if 0x20 ≤ n ∧ n ≤ 0x4F then some (nthD s.req.auxCounts (n - 0x20) 0)
  else if 5 ≤ n ∧ n ≤ 7 then some (s.lanes.get (LaneId.ofNum (n - 5))).evalUs
  else match n with
    | 0x02 => some s.net.count
    | 0x03 => some s.platen.overruns
    | 0x04 => some s.platen.overrunRun
    | 0x08 => some s.req.restartKind
    | 0x09 => some s.req.restartCause
    | 0x0A => some s.req.offTimeS
    | 0x10 => some s.xchg.state.code
    | 0x11 => some s.xchg.target
    | 0x12 => some s.xchg.reason
    | 0x13 => some s.xchg.total
    | 0x14 => some s.frisket.length
    | 0x15 => some (s.frisket.filter (fun q => member q.flags 0)).length
    | 0x50 => some s.auxStaged
    | _ => none

def paramQuo (s : State) (n : Nat) : Option Nat :=
  if 1 ≤ n ∧ n ≤ 3 then some (s.req.heldRows.get (LaneId.ofNum (n - 1)))
  else if 8 ≤ n ∧ n ≤ 10 then some (s.req.scrubFaults.get (LaneId.ofNum (n - 8)))
  else match n with
    | 4 => some s.req.highWater
    | 5 => some s.req.limitTotal
    | 6 => some s.req.refusedTotal
    | 7 => some (s.req.slots.filter (fun p => decide (p.1 < 256))).length
    | _ => none

/-! ### Field, motion and guard families -/

/-- `FLD.INPUT`: filtered level, line sound (L variant), output on, thermal shutdown. -/
def State.fieldInput (s : State) (ch : Nat) : Nat :=
  let d := s.field
  ofMembers [d.inputsOn.contains ch, s.ident.variant == .l && !d.lineBad.contains ch, d.uoOn.contains ch, d.uoThermal.contains ch]

/-- `FLD.BLOCKED`. -/
def State.fieldBlocked (s : State) : Nat :=
  let any (p : LaneCore → Bool) : Bool := LaneId.all.any (fun l => p (s.lanes.get l).core)
  ofMembers ((List.range 16).map (fun vo => any (fun c => c.voBlocked.contains vo)) ++
    [any (fun c => c.bankBlocked.contains 4), any (fun c => c.bankBlocked.contains 5)])

def paramFld (s : State) (n : Nat) : Option Nat :=
  if 1 ≤ n ∧ n ≤ 6 then some (nthD s.field.supplyMv (n - 1) 0)
  else if 0x10 ≤ n ∧ n ≤ 0x2F then some (s.fieldInput (n - 0x10))
  else if 0x30 ≤ n ∧ n ≤ 0x3F then some (kvGetD s.field.voMa (n - 0x30) 0)
  else if 0x40 ≤ n ∧ n ≤ 0x4F then some (kvGetD s.field.lineUa (n - 0x40) 0)
  else if 0x50 ≤ n ∧ n ≤ 0x5F then some (kvGetD s.field.counts (2 * (n - 0x50)) 0)
  else if n = 0x60 then some s.fieldBlocked
  else if n = 0x61 then some s.field.temp
  else none

/-- Functions of the running forme of one kind. -/
def State.functions (s : State) (guard : Bool) : Nat :=
  match s.forme with
  | none => 0
  | some f => (f.funcs.filter (fun g => decide (0x10 ≤ g.typ) == guard)).length

def paramMot (s : State) (n : Nat) : Option Nat :=
  match n with
  | 1 => some (s.functions false)
  | 2 => some s.req.motViolations
  | 3 => some s.req.motFaults
  | _ => none

def paramGrd (s : State) (n : Nat) : Option Nat :=
  match n with
  | 1 => some (s.functions true)
  | 2 => some s.req.grdDemands
  | 3 => some s.req.grdDiscs
  | 4 => some s.req.grdFbs
  | 5 => some s.req.grdResets
  | _ => none

/-! ### Network families -/

/-- A latency in ns, from units of 0.8 ns. -/
def Port.latencyNs (q : Port) : Nat := q.latency * 8 / 10

def portAt (n : Nat) : PortId :=
  match n with
  | 0 => .xe
  | 1 => .xw
  | 2 => .ye
  | _ => .yw

/-- `NET.POSITION`. -/
def Net.positionCode (n : Net) : Nat := n.position.getD 0xFFFF

def paramNet (s : State) (n : Nat) : Option Nat :=
  if 0x10 ≤ n ∧ n ≤ 0x13 then some (s.net.ports.get (portAt (n - 0x10))).mode.code
  else if 0x14 ≤ n ∧ n ≤ 0x17 then some (s.net.ports.get (portAt (n - 0x14))).latencyNs
  else if 0x20 ≤ n ∧ n ≤ 0x3F then some (nthD (s.net.ports.get (portAt ((n - 0x20) / 8))).counters ((n - 0x20) % 8) 0)
  else match n with
    | 0x02 => some s.net.mode.code
    | 0x03 => some s.net.positionCode
    | 0x05 => some (toU32 s.net.off)
    | 0x06 => some (toU32 s.net.rc)
    | 0x07 => some s.net.syncSeen
    | 0x40 => some s.net.selfSilence
    | 0x41 => some s.net.trips
    | 0x42 => some s.net.coldstarts
    | 0x43 => some s.net.slips
    | 0x44 => some s.net.mismatches
    | 0x45 => some s.net.notAdmitted
    | _ => none

def paramTrn (s : State) (n : Nat) : Option Nat :=
  match n with
  | 1 => some (if s.isTrain then s.train.state else 0)
  | 2 => some s.train.failCause
  | 3 => some s.train.number
  | 4 => some s.train.orient
  | 5 => some s.train.count
  | 6 => some s.train.inaugCount
  | 7 => some s.train.lastUs
  | 8 => some s.train.fails
  | _ => none

/-- `DUP.SWEEP_LEN`: items in the sweep sequence of the first lane in service. -/
def State.sweepLen (s : State) : Nat :=
  match s.refLane with
  | none => 0
  | some l => match (s.lanes.get l).forme with
    | none => 0
    | some f => if f.header.duplex = 1 then ((Ev.start (s.lanes.get l).core).sweepItems (s.envOf l f)).length else 0

def paramDup (s : State) (n : Nat) : Option Nat :=
  match n with
  | 1 => some (if s.isDuplex then s.memberNo else 0xFF)
  | 2 => some s.dupRole
  | 3 => some s.duplex.mark
  | 4 => some s.sweepLen
  | 5 => some s.duplex.passes
  | 6 => some s.duplex.mismatches
  | 7 => some s.duplex.switches
  | 8 => some s.duplex.gapUs
  | _ => none

/-! ### Host, system and lane families -/

def paramHst (s : State) (n : Nat) : Option Nat :=
  match n with
  | 2 => some (s.host.sessions.filter (·.opened)).length
  | 3 => some s.host.authFails
  | 4 => some s.host.busyTotal
  | 5 => some s.host.framing
  | 6 => some s.host.discards
  | 7 => some s.host.linkSpeed
  | _ => none

def paramSys (s : State) (n : Nat) : Option Nat :=
  match n with
  | 1 => some s.ident.variant.code
  | 2 => some s.ident.hwRev
  | 3 => some (s.ident.serial % 4294967296)
  | 4 => some (s.ident.serial / 4294967296)
  | 5 => some s.personality
  | 6 => some ((s.forme.map (·.header.version)).getD 0)
  | 7 => some s.power.poweredS
  | _ => none

def paramLane (s : State) (n : Nat) : Option Nat :=
  if 1 ≤ n ∧ n ≤ 3 then some (s.lanes.get (LaneId.ofNum (n - 1))).eccCorrected
  else if 4 ≤ n ∧ n ≤ 6 then some (s.lanes.get (LaneId.ofNum (n - 4))).eccBad
  else if 7 ≤ n ∧ n ≤ 9 then some (s.lanes.get (LaneId.ofNum (n - 7))).regionFaults
  else if 0x0A ≤ n ∧ n ≤ 0x0C then some (s.lanes.get (LaneId.ofNum (n - 0x0A))).temp
  else none

def paramBrg (s : State) (n : Nat) : Option Nat :=
  if 0xA0 ≤ n ∧ n ≤ 0xA7 then some (nthD s.bridge.txFrames (n - 0xA0) 0)
  else if 0xA8 ≤ n ∧ n ≤ 0xAF then some (nthD s.bridge.rxFrames (n - 0xA8) 0)
  else if n = 0xB0 then some s.bridge.reads.length
  else if n = 0xB1 then some s.bridge.drops
  else none

/-! ### Update, life-cycle, proof, recorder and power families -/

def paramUpd (s : State) (n : Nat) : Option Nat :=
  let u := s.update
  if 9 ≤ n ∧ n ≤ 0x0C then some (u.record.entry (n - 8)).floor
  else match n with
    | 1 => some u.state
    | 2 => some ((u.session.map (·.colophon.typ)).getD 0)
    | 3 => some ((u.session.map (·.held.length)).getD 0)
    | 4 => some ((u.session.map (·.colophon.chunks)).getD 0)
    | 5 => some u.idleS
    | 6 => some ((u.session.map (·.source)).getD 0xFF)
    | 7 => some u.record.seq
    | 8 => some u.trialBoots
    | _ => none

def paramLcs (s : State) (n : Nat) : Option Nat :=
  match n with
  | 1 => some s.life.state.code
  | 2 => some s.life.transitions
  | _ => none

/-- Blocks in the order of the bits of `PRF.FAIL_MASK`. -/
def failMaskBlocks : List Nat :=
  [0x01, 0x02, 0x03, 0x10, 0x11, 0x12, 0x13, 0x14, 0x15, 0x18, 0x20, 0x21, 0x22, 0x23, 0x24,
   0x30, 0x31, 0x32, 0x33, 0x34, 0x35, 0x36, 0x37, 0x38, 0x39]

def paramPrf (s : State) (n : Nat) : Option Nat :=
  match n with
  | 1 => some (ofMembers (failMaskBlocks.map s.proofs.failed.contains))
  | 2 => some s.life.inServiceS
  | 3 => some s.proofs.nextLane.num
  | _ => none

def paramRec (s : State) (n : Nat) : Option Nat :=
  match n with
  | 1 => some (s.recorder.seq % 4294967296)
  | 2 => some (s.recorder.seq / 4294967296)
  | 3 => some recNumbers.length
  | 4 => some s.recorder.clears
  | 5 => some s.recorder.sealFaults
  | _ => none

/-- Hottest junction of the dies, °C: the lanes', the field side's, and the one that `ev.temp_high` reported last (Table 20-8). -/
def State.hottest (s : State) : Nat := (s.field.temp :: s.lanes.toList.map (·.temp)).foldl max s.power.tempMax

def paramPwr (s : State) (n : Nat) : Option Nat :=
  if 0x10 ≤ n ∧ n ≤ 0x1D then some (nthD s.power.cdc (n - 0x10) 0)
  else match n with
    | 1 => some s.power.vsMv
    | 2 => some s.power.holdupMv
    | 3 => some (b2n s.power.holdupOk)
    | 4 => some s.power.startCause
    | 5 => some s.power.powerups
    | 6 => some s.power.resets
    | 7 => some s.power.pfs
    | 8 => some s.power.ga
    | 9 => some s.hottest
    | _ => none

/-! ### All families -/

/-- A read-only parameter. -/
def State.readOnly (s : State) (id : Nat) : Option Nat :=
  let n := id % 256
  match id / 256 with
  | 0x03 => paramSys s n
  | 0x04 => paramLane s n
  | 0x05 => paramPlt s n
  | 0x06 => paramIlk s n
  | 0x07 => paramQuo s n
  | 0x09 => paramFld s n
  | 0x0A => paramMot s n
  | 0x0B => paramGrd s n
  | 0x0C => paramNet s n
  | 0x0D => paramTrn s n
  | 0x0E => paramDup s n
  | 0x0F => paramHst s n
  | 0x10 => paramBrg s n
  | 0x12 => paramUpd s n
  | 0x13 => paramLcs s n
  | 0x14 => paramPrf s n
  | 0x15 => paramRec s n
  | 0x16 => paramPwr s n
  | _ => none

/-- Value in use and stored value of a parameter (R315): equal for a read-only one, none for an unknown ID. -/
def State.param (s : State) (id : Nat) : Option (Nat × Nat) :=
  if (writableParam id).isSome then some (s.inUse id, s.stored id) else (s.readOnly id).map (fun v => (v, v))

/-- The value in use as 4 bytes; an unknown ID gives zeros. -/
def State.paramBytes (s : State) (id : Nat) : List Byte := leBytes 4 (((s.param id).map (·.1)).getD 0)

/-- The values in use of a range of IDs. -/
def State.paramRange (s : State) (first n : Nat) : List Byte := (List.range n).flatMap (fun i => s.paramBytes (first + i))

end Sys2Proof.Machine
end

