-- ==== Sys2Proof/Machine/Duplex.lean ====
section
/-! DEFINITION. The duplex pair (R280 to R297): the referee's decision, the mark, commanding, the cold take-over, the switch-back, and the
network-cycle boundary at which a member begins or ends to command. The mirror and the sweep are in Mirror.lean and Cycle.lean. -/

namespace Sys2Proof.Machine

/-! ### Heartbeats and the mark -/

/-- Static entry number with the heartbeat flag that a node owns (R281). -/
def Net.flagged (n : Net) (owner : Nat) : Option Nat :=
  findIdx (fun e : ImpEntry => e.flags.testBit 3 && e.flags % 2 == 0 && e.owner == owner) n.entries

/-- The node that carries the referee role. -/
def Net.referee (n : Net) : Option Nat := (n.nodes.find? (fun r => r.roles.testBit 3)).map (·.id)

/-- The buffer of a node's heartbeat or mark, when a copy refreshed it in the present network cycle (R245, R284). -/
def Net.heard (n : Net) (owner : Nat) : Option Buffer :=
  ((n.flagged owner).bind n.buffer).bind (fun b => if b.refreshed then some b else none)

/-- x of a word of a buffer under R26; none when it does not decode. -/
def Buffer.x? (b : Buffer) (w id kind now highest : Nat) : Option Nat := (decode (nthD b.words w 0) id kind 0xA now highest).x?

/-- Heartbeat word 0 of member i in the present network cycle. -/
def State.heartbeat (s : State) (i : Nat) : Option Nat :=
  ((s.net.nodes[i]?).bind (fun r => s.net.heard r.id)).map (fun b => (b.x? 0 (0x7420 + 8 * i) 1 s.net.count 0xFFFF).getD 0)

/-- The mark of the present network cycle: holder and sequence (Table 14-1). -/
def State.markHeard (s : State) : Option (Nat × Nat) :=
  (s.net.referee.bind s.net.heard).bind (fun b =>
    (b.x? 0 0x7430 3 s.net.count 2).map (fun h => (h, (b.x? 1 0x7431 2 s.net.count 0xFFFF).getD 0)))

/-! ### The referee (R284) -/

/-- A member's heartbeat of the cycle is noted: word and missed count. -/
def noteBeat (x : Option Nat) (hb miss : Nat) : Nat × Nat :=
  match x with
  | some v => (v, 0)
  | none => (hb, min (miss + 1) 255)

def Duplex.note (d : Duplex) (x0 x1 : Option Nat) : Duplex :=
  let p := noteBeat x0 d.hb0 d.miss0
  let q := noteBeat x1 d.hb1 d.miss1
  { d with hb0 := p.1, miss0 := p.2, hb1 := q.1, miss1 := q.2 }

/-- Word 0 and missed heartbeats of the member that holder code h names. -/
def Duplex.hb (d : Duplex) (h : Nat) : Nat := if h = 1 then d.hb0 else d.hb1
def Duplex.miss (d : Duplex) (h : Nat) : Nat := if h = 1 then d.miss0 else d.miss1

/-- The member reports sound and ready, and was heard in this cycle. -/
def Duplex.fit (d : Duplex) (h : Nat) : Bool := d.miss h == 0 && member (d.hb h) 0 && member (d.hb h) 2

/-- The holder stays: it is sound, and it does not yield to a fit partner. -/
def Duplex.keeps (d : Duplex) : Bool :=
  d.holder != 0 && decide (d.miss d.holder < 3) && member (d.hb d.holder) 0 && !(member (d.hb d.holder) 3 && d.fit (3 - d.holder))

/-- The holder after one cycle: 0 none, 1 member 0, 2 member 1. -/
def Duplex.decide' (d : Duplex) : Duplex :=
  if d.keeps then d
  else
    let order : List Nat := if d.holder = 0 then [1, 2] else [3 - d.holder]
    match order.find? d.fit with
    | some h => { d with holder := h, seq := (d.seq + 1) % 65536 }
    | none => { d with holder := 0 }

def execRefereeDecide (s : State) : Host.Outcome State Fault Refusal :=
  if s.netOn ∧ s.net.mode = .running ∧ s.net.roles.testBit 3 then
    .next { s with duplex := (s.duplex.note (s.heartbeat 0) (s.heartbeat 1)).decide' }
  else .next s

/-! ### The mark at a member (R285) -/

/-- A mark is accepted: it decides who commands from the next boundary on. -/
def execMarkAccepted (s : State) : Host.Outcome State Fault Refusal :=
  match s.markHeard with
  | some m => if s.netOn ∧ s.isDuplex then
      .next { s with duplex := { s.duplex with named := some m, mark := m.1, markSeq := m.2 } } else .next s
  | none => .next s

/-- Requests that this member has not mirrored before the partner's take-over are lost with their slots: no answer comes (Table
14-4). -/
def State.loseRequests (s : State) : State :=
  let lost := (s.req.waiting ++ s.req.mirrored).filterMap (·.slot)
  { s with
    req := { s.req with waiting := [], mirrored := [], slots := s.req.slots.filter (fun p => !lost.contains p.1),
                        origins := s.req.origins.filter (fun p => !lost.contains p.1) },
    host := { s.host with outstanding := s.host.outstanding.filter (fun o => !(o.slot.map lost.contains).getD false) } }

/-- This member begins to command: a take-over when the partner has commanded since the restart (R285, R288, Table 14-3). -/
def State.takeCommand (s : State) (seq : Nat) : State :=
  let d := { s.duplex with commanding := true, ready := true, sweepAt := 0 }
  if s.duplex.partnerSeen then
    let gap := s.duplex.sincePartner * s.net.cycleNs / 1000
    ({ s with duplex := { d with switches := sat32 d.switches 1, gapUs := gap } } : State).raiseWith evDupTakeover
      (leBytes 1 s.memberNo ++ leBytes 2 seq ++ leBytes 4 gap) [recKeep 0x0631 0 (leBytes 1 s.memberNo ++ leBytes 1 0 ++ leBytes 2 seq ++ leBytes 4 gap)]
  else { s with duplex := d }

/-- This member ceases to command: not ready at once (R283), and a yield has done its work (R295). -/
def State.dropCommand (s : State) : State :=
  let d := { s.duplex with commanding := false, ready := false, dirty := true, sweepAt := 0, yielding := none }
  if s.duplex.yielding.isSome ∧ s.duplex.named.isSome then
    ({ s with duplex := { d with switches := sat32 d.switches 1 } } : State).raise evDupSwitchBack (leBytes 1 1)
  else { s with duplex := d }

/-- The partner's heartbeat of the cycle (R283, Table 14-5). -/
def State.notePartner (s : State) : State :=
  if member ((s.heartbeat (1 - s.memberNo)).getD 0) 1 then
    let d := s.duplex
    { s with duplex := { d with partnerSeen := true, sincePartner := 0, ready := d.ready && (d.partnerSeen || d.commanding) } }
  else s

/-- What a member makes of the mark of the cycle just ended: who commands from now on, how long no holder was named, and whether the mark
is lost (R285, R294, R296). -/
def State.duplexBoundary (s : State) : State :=
  if !s.isDuplex then s
  else
    let s := s.notePartner
    let named := s.duplex.named
    let mine := named.map (·.1) == some (s.memberNo + 1)
    let s := if mine && !s.duplex.commanding then s.takeCommand ((named.map (·.2)).getD 0)
      else if !mine && s.duplex.commanding then s.dropCommand
      else s
    let s := if named.map (·.1) == some (2 - s.memberNo) then s.loseRequests else s
    let s := if named.isNone && s.duplex.markHeld then s.raise evDupMarkLost (leBytes 2 s.duplex.markSeq) else s
    let d := s.duplex
    { s with duplex := { d with named := none, markHeld := named.isSome,
                                noHolder := if named.map (·.1) == some 0 then d.noHolder + 1 else 0 } }

def execNetworkCycleBoundary (s : State) : Host.Outcome State Fault Refusal :=
  if s.netOn then .next s.duplexBoundary.boundary else .next s

/-! ### Cold take-over (R294) -/

/-- A member that is not ready and saw no holder for 20 cycles restarts cold. -/
def State.coldTakeover (s : State) (f : StartFacts) : State :=
  let t := s.stopVital
  (({ t with power := { t.power with coldAsked := true } } : State).start f 3 false).raise evDupColdTakeover (leBytes 1 s.memberNo)

def execDupColdTakeover (f : StartFacts) (s : State) : Host.Outcome State Fault Refusal :=
  if s.netOn ∧ s.isDuplex ∧ !s.duplex.ready ∧ !s.duplex.commanding ∧ 20 ≤ s.duplex.noHolder then .next (s.coldTakeover f) else .next s

/-! ### Switch-back (R295) -/

/-- The partner reported ready in the last heartbeat that its buffer holds, at most one network cycle old. -/
def State.partnerReady (s : State) : Bool :=
  let i := 1 - s.memberNo
  match (s.net.nodes[i]?).bind (fun r => (s.net.flagged r.id).bind s.net.buffer) with
  | some b => (b.refreshed || b.age == 0) && member ((b.x? 0 (0x7420 + 8 * i) 1 s.net.count 0xFFFF).getD 0) 2
  | none => false

/-- Node identity of the partner. -/
def State.partnerId (s : State) : Nat := ((s.net.nodes[1 - s.memberNo]?).map (·.id)).getD 0

/-- The state in which `dup.switch_back` is accepted: life-cycle state, commanding, and a partner that reports ready. -/
def State.maySwitchBack (s : State) : Bool :=
  (s.life.state == .commissioning || s.life.state == .operation || s.life.state == .maintenance) &&
  s.isDuplex && s.duplex.commanding && s.partnerReady

/-- `dup.switch_back` under a token that passed: it must name the partner. -/
def State.switchBack (s : State) (o : Outstanding) (t : List Byte) : State :=
  if !s.maySwitchBack then s.answer o .state 0 []
  else if fieldAt (tokBody t) 0 2 ≠ s.partnerId then s.answer o .auth 0 []
  else
    let s := ({ s with duplex := { s.duplex with yielding := some 0 } } : State).recordBatch
      [recKeep 0x0630 0 (leBytes 4 (tokSeq t) ++ leBytes 2 s.partnerId ++ leBytes 2 o.session)]
    s.answer o .done 0 (leBytes 2 s.partnerId)

def execDupSwitchBack (e : Entry) (sig : Sig) (s : State) : Host.Outcome State Fault Refusal :=
  .next (s.command 0x0E02 true true e (fun o s =>
    s.withToken o [0x07] (Entry.body e) sig (fun s => s.switchBack o (Entry.body e))))

/-- 100 network cycles of yield without a move of the mark. -/
def execDupSwitchBackFail (s : State) : Host.Outcome State Fault Refusal :=
  match s.duplex.yielding with
  | some n => if s.netOn ∧ 100 ≤ n then
      .next (({ s with duplex := { s.duplex with yielding := none } } : State).raise evDupSwitchBack (leBytes 1 0)) else .next s
  | none => .next s

def execDupStatus (e : Entry) (s : State) : Host.Outcome State Fault Refusal :=
  .next (s.command 0x0E01 false true e (fun o s =>
    if !s.isDuplex then s.answer o .state 0 []
    else s.answer o .done 0 (s.paramRange 0x0E01 8)))

end Sys2Proof.Machine
end

