-- ==== Sys2Proof/Machine/FieldRows.lean ====
section
/-! DEFINITION. The field side's own happenings: dark tests (R60 to R62), axle and frequency counting (R196, R197), wire breaks
(R195), the field supply (R202), overloads (R198, R199) and the loss of the field link (R203). -/

namespace Sys2Proof.Machine

/-! ### What exists on the variant (Table 10-1) -/

def State.hasVital (s : State) (vo : Nat) : Bool := decide (vo < (match s.ident.variant with | .l => 8 | .f => 16))
def State.hasUniversal (s : State) (ch : Nat) : Bool := decide (ch < (match s.ident.variant with | .l => 16 | .f => 32))
def State.hasBank (s : State) (bank : Nat) : Bool :=
  match s.ident.variant with
  | .l => bank == 0 || bank == 1 || bank == 4
  | .f => decide (bank < 6)

/-- The field side works. -/
def State.fieldOn (s : State) : Bool := s.power.running && s.field.link

/-- The field side with a change to its state. -/
def State.updField (s : State) (g : Field → Field) : State := { s with field := g s.field }

/-! ### Recorder items of the field range (log 14)

0x0500 + channel (vital output k is channel 32 + k) and 0x0530 + bank count field faults by kind; 0x0540 + bank is the supply extreme;
0x0560 counts skipped bank-path tests. -/

def faultOverload : Nat := 1
def faultRate : Nat := 2
def faultSequence : Nat := 3
def faultFrequency : Nat := 4
def faultDarkTest : Nat := 5
def faultCross : Nat := 6
def faultSwitch : Nat := 7

def recChannel (ch kind : Nat) : RecUpd := recCount (0x0500 + ch) kind
def recBank (bank kind : Nat) : RecUpd := recCount (0x0530 + bank) kind

/-! ### Dark tests -/

/-- Findings of the test of an output that was pulsed (R61, Table 3-10): a switch stuck closed, an off-pulse missing at the readback,
and off-pulses seen on other outputs that were on. -/
def State.testFindings (s : State) (vo : Nat) (d : DarkSample) : List (Nat × Nat) :=
  (if d.conducting.any (fun n => decide (n < 6)) then [(3, vo)] else []) ++
  (if d.readsOn then [(1, vo)] else []) ++
  ((d.othersOff.filter (fun o => o != vo && s.hasVital o && s.voEnergised o)).map (fun o => (2, vo + 16 * o)))

/-- The switches of an item that a test looked at: those that conduct are stuck closed, the others are not (Table 3-10). -/
def Field.noteStuck (d : Field) (item : Nat) (looked conducting : List Nat) : Field :=
  { d with stuckClosed := d.stuckClosed.filter (fun p => !(p.1 == item && looked.contains p.2)) ++
      (looked.filter conducting.contains).map (fun n => (item, n)) }

/-- A finding as a recorder count. -/
def recFinding (p : Nat × Nat) : RecUpd :=
  recChannel (32 + p.2 % 16) (if p.1 = 1 then faultDarkTest else if p.1 = 2 then faultCross else faultSwitch)

/-- The test of an output that is on. Its findings cross to the lanes with the words of the next strobe. -/
def State.pulseOutput (s : State) (vo : Nat) (d : DarkSample) : State :=
  if d.dip then s
  else
    let found := s.testFindings vo d
    (s.updField (fun f => ({ f with voBad := withFlag f.voBad vo (!found.isEmpty), findings := f.findings ++ found } : Field).noteStuck
      vo (List.range 6) d.conducting)).recordBatch (found.map recFinding)

/-- The sampling of an output that is off (R61): m(k) follows it. -/
def State.sampleOutput (s : State) (vo : Nat) (d : DarkSample) : State :=
  s.updField (fun f => ({ f with voBad := withFlag f.voBad vo (d.readsOn || d.conducting.any (fun n => decide (n < 6))) } : Field).noteStuck
    vo (List.range 6) d.conducting)

/-- A slot of the dark-test sequencer: in the safe state no tests run (Table 3-9). -/
def execDarkTestOutput (vo : Nat) (d : DarkSample) (s : State) : Host.Outcome State Fault Refusal :=
  if s.fieldOn ∧ s.hasVital vo ∧ !s.platen.safe then
    .next (if s.voEnergised vo then s.pulseOutput vo d else s.sampleOutput vo d)
  else .next s

/-- The test of a path of a closed bank switch, or the sampling of a path of an open one; in two-out-of-two mode the test is skipped and
recorded (R62). -/
def State.pathSlot (s : State) (bank path : Nat) (conducting : List Nat) : State :=
  let bad := (pathSwitches path).any conducting.contains
  let item := 3 * bank + path
  let note (d : Field) : Field := d.noteStuck (12 + bank) (pathSwitches path) conducting
  if !s.itemOn (12 + bank) then s.updField (fun f => note { f with pathBad := withFlag f.pathBad item bad })
  else if s.lanesIn.length < 3 then
    (s.updField (fun f => { f with skips := sat32 f.skips 1 })).recordBatch [recCount 0x0560 (bank - 4)]
  else
    let found : List (Nat × Nat) := if bad then [(4, bank)] else []
    (s.updField (fun f => note { f with pathBad := withFlag f.pathBad item bad, findings := f.findings ++ found })).recordBatch
      (if bad then [recBank bank faultSwitch] else [])

def execDarkTestBankPath (bank path : Nat) (conducting : List Nat) (s : State) : Host.Outcome State Fault Refusal :=
  if s.fieldOn ∧ 4 ≤ bank ∧ s.hasBank bank ∧ path < 3 ∧ !s.platen.safe then .next (s.pathSlot bank path conducting) else .next s

/-! ### Counting and frequency -/

/-- The head of a counting pair, by its even channel (Table 4-8). -/
def Forme.headOf (f : Forme) (even : Nat) : Option HeadRec := f.heads.find? (fun h => h.source == 1 && h.even == even)

/-- The pair's net count moves by one axle, modulo 65 536, in both counters; a faulty one misses it (R12, R196). -/
def Field.countAxle (d : Field) (even : Nat) (up : Bool) (miss : Nat) : Field :=
  let move (l : List (Nat × Nat)) : List (Nat × Nat) := kvUpd l even 0 (fun n => (n + (if up then 1 else 65535)) % 65536)
  { d with counts := if miss = 1 then d.counts else move d.counts, counts2 := if miss = 2 then d.counts2 else move d.counts2 }

/-- A pulse pair at a counting pair (R196). A pulse shorter than the head's minimum is discarded; the other system's pulse then stands
alone. -/
def State.axle (s : State) (h : HeadRec) (even : Nat) (p : AxlePulse) : State :=
  let first := decide (h.minPulse ≤ p.pulseUs)
  let second := decide (h.minPulse ≤ p.otherUs) && !p.lone
  if !first && !second then s
  else
    let lone := !(first && second)
    let fast := decide (p.gapUs * h.maxFreq < 1000000) || decide (p.gapUs < 100)
    let good := p.complete && !lone && decide (h.overlap ≤ p.overlapUs)
    let broken := lone || (p.complete && !good)
    let recs := (if fast then [recChannel even faultRate] else []) ++ (if broken then [recChannel even faultSequence] else [])
    (s.updField (fun d =>
      let d := { d with rateBad := if fast then insertOnce d.rateBad even else d.rateBad,
                        seqBad := if broken then insertOnce d.seqBad even else d.seqBad }
      if good then d.countAxle even p.evenLeads p.miss else d)).recordBatch recs

/-- Channel records of a function. -/
def Forme.hasFunc (f : Forme) (ch func : Nat) : Bool := f.channels.any (fun r => r.channel == ch && r.func == func && r.isInput)

def execAxleSequence (even : Nat) (p : AxlePulse) (s : State) : Host.Outcome State Fault Refusal :=
  match s.forme with
  | none => .next s
  | some f =>
    match f.headOf even with
    | some h => if s.fieldOn ∧ s.ident.variant = .f ∧ f.hasFunc even 3 then .next (s.axle h even p) else .next s
    | none => .next s

/-- A rising-edge period completes, or a pulse shorter than 40 µs is discarded; above 10 kHz the status member is cleared (R197). -/
def State.frequencyPulse (s : State) (ch : Nat) (p : FreqPulse) (miss : Nat) : State :=
  if p.pulseUs < 40 then
    (s.updField (fun d => { d with freqBad := insertOnce d.freqBad ch })).recordBatch [recChannel ch faultFrequency]
  else
    let fast := decide (p.periodUs < 100)
    (s.updField (fun d => { d with
      freqBad := if fast then insertOnce d.freqBad ch else d.freqBad,
      periods := if miss = 1 then d.periods else kvUpd d.periods ch [] (fun l => (-(1000 * p.sinceUs : Nat), p.periodUs) :: l),
      periods2 := if miss = 2 then d.periods2 else kvUpd d.periods2 ch [] (fun l => (-(1000 * p.sinceUs : Nat), p.periodUs) :: l) })).recordBatch (if fast then [recChannel ch faultFrequency] else [])

def execFrequencyPulse (ch : Nat) (p : FreqPulse) (miss : Nat) (s : State) : Host.Outcome State Fault Refusal :=
  match s.forme with
  | none => .next s
  | some f => if s.fieldOn ∧ s.ident.variant = .f ∧ f.hasFunc ch 4 then .next (s.frequencyPulse ch p miss) else .next s

/-! ### Wire breaks -/

/-- Line sound reads 0 from now on; the lanes raise the event at the first strobe that seals it (R195). -/
def execWireBreak (ch : Nat) (s : State) : Host.Outcome State Fault Refusal :=
  match s.forme with
  | none => .next s
  | some f =>
    if s.fieldOn ∧ s.ident.variant = .l ∧ f.hasFunc ch 5 then
      .next ((s.updField (fun d => { d with lineBad := insertOnce d.lineBad ch })).recordBatch [recChannel ch 0])
    else .next s

/-! ### The field supply (R202) -/

/-- The outputs of a bank lose what they need from its supply: universal outputs switch off, vital outputs lose their permits. -/
def Field.unfed (d : Field) (bank : Nat) : Field :=
  ({ d with permits := d.permits.filter (fun p => !(decide (p.item < 16) && bankOf p.item == bank)) } : Field).driveUniversal

/-- A change of a bank's range, with its event. -/
def State.supplyChange (s : State) (bank mv : Nat) (out : Bool) : State :=
  let s := s.updField (fun d =>
    let d := { d with outOfRange := withFlag d.outOfRange bank out, supplyMv := setNth d.supplyMv bank mv }
    if out then d.unfed bank else d.driveUniversal)
  s.raiseWith evFieldSupply (leBytes 1 bank ++ leBytes 1 (if out then 0 else 1)) [recKeep (0x0540 + bank) mv []]

def execFieldSupplyOutOfRange (bank mv : Nat) (s : State) : Host.Outcome State Fault Refusal :=
  if s.fieldOn ∧ s.hasBank bank ∧ (mv < 17500 ∨ 32000 < mv) ∧ !s.field.outOfRange.contains bank then
    .next (s.supplyChange bank mv true)
  else .next s

def execFieldSupplyInRange (bank mv : Nat) (s : State) : Host.Outcome State Fault Refusal :=
  if s.fieldOn ∧ s.hasBank bank ∧ 19200 ≤ mv ∧ mv ≤ 30000 ∧ s.field.outOfRange.contains bank then
    .next (s.supplyChange bank mv false)
  else .next s

/-! ### Overloads (R198, R199) -/

/-- Thermal shutdown of an output that carries energy: a universal output is off until its retry, a vital output loses its permits. -/
def State.overloadOutput (s : State) (vital : Bool) (ch : Nat) : State :=
  let s := s.updField (fun d => if vital then d.withdraw ch else ({ d with uoThermal := insertOnce d.uoThermal ch } : Field).driveUniversal)
  let ch := if vital then 32 + ch else ch
  s.raiseWith evOutputOverload (leBytes 1 ch) [recChannel ch faultOverload]

/-- The output exists and carries energy. -/
def State.outputLive (s : State) (vital : Bool) (ch : Nat) : Bool :=
  if vital then s.hasVital ch && s.voEnergised ch else s.hasUniversal ch && s.field.uoOn.contains ch

def execOutputOverload (vital : Bool) (ch : Nat) (s : State) : Host.Outcome State Fault Refusal :=
  if s.fieldOn ∧ s.outputLive vital ch then .next (s.overloadOutput vital ch) else .next s

/-- 100 ms after its shutdown a universal bank or output retries; an output does not while its bank is off (R198, Table 10-9). -/
def Field.retry (d : Field) (wholeBank : Bool) (n : Nat) : Field :=
  (if wholeBank then { d with ubankOff := removeAll d.ubankOff n }
   else if d.ubankOff.contains (channelBank n) then d
   else { d with uoThermal := removeAll d.uoThermal n }).driveUniversal

def execThermalRetry (wholeBank : Bool) (n : Nat) (s : State) : Host.Outcome State Fault Refusal :=
  if s.fieldOn then .next (s.updField (fun d => d.retry wholeBank n)) else .next s

/-- Every output of a vital bank that holds a permit loses it; m13 reads 0 until none is latched (R199). -/
def Field.withdrawBank (d : Field) (bank : Nat) : Field :=
  let live := ((List.range 8).map (fun k => 8 * (bank - 4) + k)).filter (fun vo => d.permits.any (fun p => p.item == vo))
  { live.foldl Field.withdraw d with overload := insertOnce d.overload bank }

/-- The sliding mean of a bank's current exceeds its limit. -/
def State.overloadBank (s : State) (bank : Nat) : State :=
  let s := s.updField (fun d =>
    if bank < 4 then ({ d with ubankOff := insertOnce d.ubankOff bank } : Field).driveUniversal
    else d.withdrawBank bank)
  s.raiseWith evBankOverload (leBytes 1 bank) [recBank bank faultOverload]

/-- A bank with an output that carries energy. -/
def State.bankLive (s : State) (bank : Nat) : Bool :=
  s.hasBank bank && (if bank < 4 then s.field.uoOn.any (fun ch => channelBank ch == bank)
    else (List.range 8).any (fun k => s.voEnergised (8 * (bank - 4) + k)))

def execBankOverload (bank : Nat) (s : State) : Host.Outcome State Fault Refusal :=
  if s.fieldOn ∧ s.bankLive bank then .next (s.overloadBank bank) else .next s

/-! ### The field link (R203) -/

/-- Every permit has expired, every local output is off, and no word reaches the lanes. -/
def State.loseField (s : State) : State :=
  (s.updField (fun d => { d with link := false, permits := [], uoOn := [], sealed := [] })).raise evFieldLink (leBytes 1 0)

def execFieldLink (s : State) : Host.Outcome State Fault Refusal :=
  if s.fieldOn then .next s.loseField else .next s

end Sys2Proof.Machine
end

