-- ==== Sys2Proof/Machine/Session.lean ====
section
/-! DEFINITION. Sessions of the host link (R317, R318) and the saved CRC contexts (R36 to R40). -/

namespace Sys2Proof.Machine

/-! ### Closing -/

/-- A session closes: its CRC contexts become free and the event is raised (R318, R39). A pending one is only discarded. -/
def State.closeSession (s : State) (x : Session) : State :=
  let s1 : State := { s with
    host := { s.host with sessions := s.host.sessions.filter (fun y => y.num != x.num),
                          udpSent := s.host.udpSent.filter (fun u => u.session != x.num) },
    crc := s.crc.filter (fun c => c.session != x.num) }
  if x.opened then s1.raise evSessionClosed (leBytes 2 x.num) else s1

/-- Every session that satisfies p closes. -/
def State.closeSessions (s : State) (p : Session → Bool) : State := (s.host.sessions.filter p).foldl State.closeSession s

/-! ### Opening (R317) -/

/-- Transport locked out. -/
def HostLink.locked (h : HostLink) (udp : Bool) : Bool := if udp then h.lockUdp else h.lockPcie

/-- Consecutive `AUTH` answers of a transport. -/
def HostLink.authRun (h : HostLink) (udp : Bool) : Nat := if udp then h.authRunUdp else h.authRunPcie

def HostLink.setAuth (h : HostLink) (udp : Bool) (run : Nat) (lock : Bool) : HostLink :=
  if udp then { h with authRunUdp := run, lockUdp := lock } else { h with authRunPcie := run, lockPcie := lock }

/-- `AUTH` to `hst.session_open` or `hst.session_prove`: recorded and raised; the fifth in a row locks the transport's opens, and answers
given during the lockout do not count. -/
def State.authFail (s : State) (o : Outstanding) (udp : Bool) : State :=
  let h := s.host
  let run := h.authRun udp + 1
  let h := if h.locked udp then h else h.setAuth udp run (decide (5 ≤ run))
  let s1 := ({ s with host := { h with authFails := sat32 h.authFails 1 } } : State).answer o .auth 0 []
  s1.raiseWith evAuthFail (leBytes 1 (if udp then 2 else 1)) [recCount 0x0701 (b2n udp)]

/-- The next session number from a start on: 1 to 0xFFFE in increasing order, passing over those in use. -/
def HostLink.freeSession (h : HostLink) : Nat :=
  let cand (i : Nat) : Nat := (h.nextSession - 1 + i) % 0xFFFE + 1
  ((List.range 5).map cand).find? (fun n => !h.sessions.any (fun x => x.num == n)) |>.getD h.nextSession

/-- Response of `hst.session_open`: number, 2 reserved bytes and the nonce. -/
def openAnswer (num nonce : Nat) : List Byte := leBytes 2 num ++ leBytes 2 0 ++ leBytes 32 (Config.nonce nonce).toNat

/-- `hst.session_open`: a pending session. The idle time in use becomes the stored one (Table 15-12). -/
def State.sessionOpen (s : State) (o : Outstanding) (e : Entry) : State :=
  let udp := Entry.udp e
  if s.host.locked udp ∨ s.power.cryptoDown then s.authFail o udp
  else if 4 ≤ s.host.sessions.length then s.answer o .limit 0 []
  else
    let s := s.applyParams (fun id => id == 0x0F01)
    let num := s.host.freeSession
    let x : Session := { num := num, udp := udp, key := min 7 (Entry.field e 0 1), opened := false, nonce := s.host.nonces,
                         srcAddr := e.srcAddr, srcPort := e.srcPort }
    let s1 : State := { s with host := { s.host with
      sessions := s.host.sessions ++ [x], nextSession := num % 0xFFFE + 1, nonces := s.host.nonces + 1 } }
    s1.answer o .done 0 (openAnswer num x.nonce)

def execHstSessionOpen (e : Entry) (s : State) : Host.Outcome State Fault Refusal :=
  .next (s.command 0x0F01 false false e (fun o s => if Entry.size e 4 then s.sessionOpen o e else s.badPayload o))

/-- The pending session that a proof names, on its own transport and, over UDP, from its own source. -/
def State.pendingFor (s : State) (e : Entry) : Option Session :=
  s.host.sessions.find? (fun x => !x.opened && x.num == Entry.field e 0 2 && x.udp == Entry.udp e &&
    (!Entry.udp e || (x.srcAddr == e.srcAddr && x.srcPort == e.srcPort)))

/-- A correct proof opens the session, as the most recently opened of its transport. -/
def State.openSession (s : State) (o : Outstanding) (x : Session) : State :=
  let rest := s.host.sessions.filter (fun y => y.num != x.num)
  let h := { s.host with sessions := rest ++ [{ x with opened := true }] }
  let s1 := ({ s with host := h.setAuth x.udp 0 (h.locked x.udp) } : State).answer o .done 0 (leBytes 2 x.num)
  s1.raise evSessionOpened (leBytes 2 x.num ++ leBytes 1 (if x.udp then 2 else 1) ++ leBytes 1 x.key)

/-- `hst.session_prove`. A wrong proof discards the pending session. -/
def State.sessionProve (s : State) (o : Outstanding) (e : Entry) (sig : Sig) : State :=
  match s.pendingFor e with
  | none => s.authFail o (Entry.udp e)
  | some x =>
    if s.verifies (nthD s.life.host x.key 0) sig then s.openSession o x
    else (s.closeSession x).authFail o x.udp

def execHstSessionProve (e : Entry) (sig : Sig) (s : State) : Host.Outcome State Fault Refusal :=
  .next (s.command 0x0F02 false false e (fun o s => if Entry.size e 118 then s.sessionProve o e sig else s.badPayload o))

def execHstSessionClose (e : Entry) (s : State) : Host.Outcome State Fault Refusal :=
  .next (s.command 0x0F03 true true e (fun o s =>
    (s.answer o .done 0 (leBytes 2 o.session)).closeSessions (fun x => x.num == o.session)))

/-- Number, transport, key index and idle time of each open session. Idle times are free values (log 17). -/
def State.sessionList (s : State) : List Byte :=
  (indexed (s.host.sessions.filter (·.opened))).flatMap (fun p =>
    leBytes 2 p.2.num ++ leBytes 1 (if p.2.udp then 2 else 1) ++ leBytes 1 p.2.key ++ leBytes 4 (Config.idleSeconds (s.free.next + p.1)))

def execHstSessionList (e : Entry) (s : State) : Host.Outcome State Fault Refusal :=
  .next (s.command 0x0F04 false true e (fun o s =>
    let t : State := { s with free := { next := s.free.next + (s.host.sessions.filter (·.opened)).length } }
    t.answer o .done 0 s.sessionList))

/-- Parameters of J1 that `hst.port_restart` applies (Table 15-12). -/
def isPortParam (id : Nat) : Bool := decide (0x0F10 ≤ id) && decide (id ≤ 0x0F13)

/-- `hst.port_restart`: the J1 settings apply and UDP sessions close. -/
def execHstPortRestart (e : Entry) (s : State) : Host.Outcome State Fault Refusal :=
  .next (s.command 0x0F05 true true e (fun o s =>
    ((s.answer o .done 0 []).applyParams isPortParam).closeSessions (·.udp)))

/-! ### Times -/

def execPendingSessionExpiry (session : Nat) (s : State) : Host.Outcome State Fault Refusal :=
  if s.power.running ∧ s.host.stewardUp then .next (s.closeSessions (fun x => x.num == session && !x.opened)) else .next s

def execAuthLockoutEnd (udp : Bool) (s : State) : Host.Outcome State Fault Refusal :=
  if s.power.running ∧ s.host.locked udp then .next { s with host := s.host.setAuth udp 0 false } else .next s

def execSessionIdleExpiry (session : Nat) (s : State) : Host.Outcome State Fault Refusal :=
  if s.power.running ∧ s.host.stewardUp then .next (s.closeSessions (fun x => x.num == session && x.opened)) else .next s

/-! ### CRC contexts (Table 2-9; the layout of the payloads is the model's, log 16) -/

/-- A context of the command's own session. -/
def State.context (s : State) (o : Outstanding) (n : Nat) : Option CrcContext :=
  s.crc.find? (fun c => c.num == n && c.session == o.session)

/-- Put a context in place, in the order of numbers. -/
def State.setContext (s : State) (c : CrcContext) : State :=
  { s with crc := sortBy (fun a b => decide (a.num ≤ b.num)) (s.crc.filter (fun d => d.num != c.num) ++ [c]) }

/-- The context that `crc.open` gives: the lowest number that is free (DESIGN CHOICE, log 16: Table 2-9 says only 0 to 63). -/
def State.freeContext (s : State) : Option Nat := (List.range 64).find? (fun n => !s.crc.any (fun c => c.num == n))

/-- A code other than 0 to 3 uses 0 (R37). -/
def polyCode (n : Nat) : Nat := if n ≤ 3 then n else 0

def State.crcOpen (s : State) (o : Outstanding) (code : Nat) : State :=
  match s.freeContext with
  | none => (s.answer o .limit 0 []).recordBatch [recCount 0x0108 3]
  | some n =>
    (s.setContext { num := n, poly := code, raw := crcOnes code, bytes := 0, session := o.session }).answer o .done 0
      (leBytes 1 n ++ leBytes 1 code)

def execCrcOpen (e : Entry) (s : State) : Host.Outcome State Fault Refusal :=
  .next (s.command 0x1101 true true e (fun o s =>
    if Entry.size e 1 then s.crcOpen o (polyCode (Entry.field e 0 1)) else s.badPayload o))

/-- `crc.feed`: context number, then 1 to 4 072 bytes. -/
def State.crcFeed (s : State) (o : Outstanding) (n : Nat) (data : List Byte) : State :=
  match s.context o n with
  | none => s.answer o .state 0 []
  | some c =>
    let c : CrcContext := { c with raw := crcFold c.poly c.raw data, bytes := c.bytes + data.length }
    (s.setContext c).answer o .done 0 (leBytes 8 c.bytes)

def execCrcFeed (e : Entry) (s : State) : Host.Outcome State Fault Refusal :=
  .next (s.command 0x1102 true true e (fun o s =>
    let b := Entry.body e
    if 2 ≤ b.length ∧ b.length ≤ 4073 then s.crcFeed o (fieldAt b 0 1) (b.drop 1) else s.badPayload o))

/-- `crc.read`: raw and final value. -/
def execCrcRead (e : Entry) (s : State) : Host.Outcome State Fault Refusal :=
  .next (s.command 0x1103 false true e (fun o s =>
    if !Entry.size e 1 then s.badPayload o
    else match s.context o (Entry.field e 0 1) with
      | none => s.answer o .state 0 []
      | some c => s.answer o .done 0 (leBytes 8 c.raw ++ leBytes 8 (crcFinal c.poly c.raw))))

/-- `crc.write`: a value wider than the polynomial is clamped to all ones (R37). -/
def State.crcWrite (s : State) (o : Outstanding) (n v : Nat) : State :=
  match s.context o n with
  | none => s.answer o .state 0 []
  | some c =>
    let raw := min v (crcOnes c.poly)
    (s.setContext { c with raw := raw }).answer o .done 0 (leBytes 8 raw)

def execCrcWrite (e : Entry) (s : State) : Host.Outcome State Fault Refusal :=
  .next (s.command 0x1104 true true e (fun o s =>
    if Entry.size e 9 then s.crcWrite o (Entry.field e 0 1) (Entry.field e 1 8) else s.badPayload o))

/-- `crc.close`: the final value, and the context becomes free. -/
def execCrcClose (e : Entry) (s : State) : Host.Outcome State Fault Refusal :=
  .next (s.command 0x1105 true true e (fun o s =>
    if !Entry.size e 1 then s.badPayload o
    else match s.context o (Entry.field e 0 1) with
      | none => s.answer o .state 0 []
      | some c => ({ s with crc := s.crc.filter (fun d => d.num != c.num) } : State).answer o .done 0 (leBytes 8 (crcFinal c.poly c.raw))))

end Sys2Proof.Machine
end

