-- ==== Sys2Proof/Machine/HostRows.lean ====
section
/-! DEFINITION. The commands of the host link (chapter 15): queue registers and doorbells (R307, R308, R312), the other BAR0
accesses (R302 to R306), the PCIe function (R298 to R300, R323), the maintenance port (R319, R320), the restart and the return of
Gweten (R11), and crossings that time out (R403). -/

namespace Sys2Proof

/-- Island codes of Table 20-5. -/
def Island.code : Island → Nat
  | .alwaysOn => 0x0
  | .steward => 0x1
  | .laneA => 0x2
  | .laneB => 0x3
  | .laneC => 0x4
  | .netTx => 0x5
  | .rxXE => 0x6
  | .rxXW => 0x7
  | .rxYE => 0x8
  | .rxYW => 0x9
  | .pcie => 0xA
  | .maintEth => 0xB
  | .fieldSide => 0xC
  | .crypto => 0xD

end Sys2Proof

namespace Sys2Proof.Machine

/-! ### Crossings (R403) and aborts (R302) -/

/-- The island that waited sets its flag and counts; `CDC_STATUS` reports it, and `ev.cdc_timeout` is raised (R305, R403). -/
def State.crossingTimeout (s : State) (i : Island) : State :=
  let s1 : State := { s with
    power := { s.power with cdc := updNth s.power.cdc i.code 0 (fun n => sat32 n 1) },
    host := { s.host with cdcFlag := true, cdcIsland := i.code, cdcCount := sat16 s.host.cdcCount 1 } }
  s1.raise evCdcTimeout (leBytes 1 i.code)

/-- What becomes of the thing that was to cross: a value read keeps the previous value and a doorbell is lost; a lane has no word for
the input until the next strobe; of a lost event the count stays; a guardian keeps its gate closed for the network cycle (R254). -/
def State.crossingLost (s : State) : Crossing → State
  | .value => s
  | .laneWord l w => s.updLane l (fun st => { st with lostWords := insertOnce st.lostWords w })
  | .event n => { s with host := { s.host with evtCount := kvUpd s.host.evtCount n 0 (fun c => sat32 c 1) },
                         recorder := { s.recorder with uncounted := kvUpd s.recorder.uncounted n 0 (· + 1) } }
  | .doorbell _ => s
  | .guardian p => s.setPort p (fun q => { q with shut := true })

def execCdcTimeout (i : Island) (x : Crossing) (s : State) : Host.Outcome State Fault Refusal :=
  if s.power.running then .next ((s.crossingLost x).crossingTimeout i) else .next s

/-- A completer abort: `ABORT_LOG` takes offset and reason, its count saturates at 4 095; of a posted write AER logs it. -/
def State.abort (s : State) (off reason : Nat) (posted : Bool) : State :=
  { s with host := { s.host with abortOff := off % 65536, abortReason := reason, abortCount := min (s.host.abortCount + 1) 4095,
                                 aerAbort := s.host.aerAbort || posted } }

/-- A read of `CYCLE_COUNT`, the one RO-S register: on a stopped network island it aborts with reason 0x3 after 100 µs, and the PCIe
island, which waited, has a crossing timeout. Otherwise it returns the count and changes nothing. -/
def execCycleCountRead (stopped : Bool) (s : State) : Host.Outcome State Fault Refusal :=
  if s.power.running ∧ (stopped ∨ s.power.netDown) then .next ((s.abort 0x1014 3 false).crossingTimeout .pcie) else .next s

/-- The W1C bit of `CDC_STATUS`. -/
def State.clearCdc (s : State) (v : Word32) : State :=
  if v.getLsbD 0 then { s with host := { s.host with cdcFlag := false } } else s

def execCdcStatusClear (v : Word32) (s : State) : Host.Outcome State Fault Refusal :=
  if s.power.running then .next (s.clearCdc v) else .next s

/-! ### Entries with an opcode that no chapter defines (R310) -/

/-- Every opcode of Table 15-15 and of the chapters it refers to. -/
def knownOpcodes : List Nat :=
  [0x0301, 0x0302, 0x0303, 0x0304, 0x0601, 0x0602, 0x0603, 0x0610, 0x0611, 0x0612, 0x0613, 0x0618, 0x0619, 0x061A] ++
  [0x0620, 0x0621, 0x0622, 0x0801, 0x0802, 0x0901, 0x0A01, 0x0B01, 0x0C01, 0x0C02, 0x0C03, 0x0C04] ++
  [0x0D01, 0x0D02, 0x0D03, 0x0E01, 0x0E02, 0x0F01, 0x0F02, 0x0F03, 0x0F04, 0x0F05] ++
  [0x1001, 0x1002, 0x1003, 0x1004, 0x1101, 0x1102, 0x1103, 0x1104, 0x1105] ++
  [0x1201, 0x1202, 0x1203, 0x1204, 0x1205, 0x1206, 0x1207, 0x1208] ++
  [0x1301, 0x1302, 0x1303, 0x1401, 0x1402, 0x1501, 0x1502, 0x1503, 0x1504, 0x1601]

/-- `UNKNOWN` with the index of the first offending item. -/
def State.answerUnknown (s : State) (o : Outstanding) (index : Nat) : State := s.answer o .unknown 0 (leBytes 4 index)

/-- An entry with an unknown opcode at the head of its queue: the length and CRC checks come first, the session is not looked at. -/
def State.unknownCommand (s : State) (op : Nat) (e : Entry) : State :=
  let o := outstandingOf op e none
  match s.vet op false false { e with session := 0 } with
  | .none => s
  | .stall => s.stall e
  | .reject st d => ((s.dequeue e).answer o st d []).recordBatch [recCount 0x0700 d]
  | .busy => (s.dequeue e).answerUnknown o 0
  | .accept => (s.dequeue e).answerUnknown o 0

/-! ### Queue registers -/

/-- A check of R308 failed: the write is ignored and the code recorded. -/
def State.badIndex (s : State) (n : Nat) : State := s.updQueue n (fun q => { q with errCode := 0x02 })

/-- A write of `Q_PROD`. -/
def State.writeProd (s : State) (n v : Nat) : State :=
  let q := s.host.queue n
  if !hostProducer n ∨ portQueue n ∨ 64 ≤ n then s
  else if (v + 65536 - q.prod % 65536) % 65536 ≤ q.free then s.updQueue n (fun q => { q with prod := v })
  else s.badIndex n

/-- A write of `Q_PROD`, and what the engine does with entries of unknown opcodes it finds behind it. -/
def execQProdWrite (queue : Nat) (v : Word32) (unknown : List (Nat × Entry)) (s : State) : Host.Outcome State Fault Refusal :=
  if s.power.running then
    .next ((unknown.filter (fun p => p.2.queue == queue && !knownOpcodes.contains p.1)).foldl
      (fun s p => s.unknownCommand p.1 p.2) (s.writeProd queue (v.toNat % 65536)))
  else .next s

/-- A write of `Q_CONS`: the entries before it are consumed; a tunnel receive queue takes what waits for it. -/
def State.writeCons (s : State) (n v : Nat) : State :=
  let q := s.host.queue n
  let k := (v + 65536 - q.cons % 65536) % 65536
  if hostProducer n ∨ portQueue n ∨ 64 ≤ n then s
  else if k ≤ q.used then
    let t := s.updQueue n (fun q => { q with cons := v, held := q.held.drop k })
    if 56 ≤ n then t.drainChannel (n - 56) t.bridge.reasm.length else t
  else s.badIndex n

def execQConsWrite (queue : Nat) (v : Word32) (s : State) : Host.Outcome State Fault Refusal :=
  if s.power.running then .next (s.writeCons queue (v.toNat % 65536)) else .next s

/-- `Q_CFG` as written: depth and entry size clamped, reserved bits 0 (Table 15-8, R313). -/
def cfgEffective (v : Word32) : Word32 :=
  BitVec.ofNat 32 (clamp 1 10 (bits32 v 0 4) + 16 * clamp 1 65 (bits32 v 4 7) + 2048 * bits32 v 11 7 +
    (if v.getLsbD 31 then 2147483648 else 0))

/-- Only ENABLE of a configuration changed. -/
def cfgEnable (cfg : Word32) (on : Bool) : Word32 :=
  BitVec.ofNat 32 (cfg.toNat % 2147483648 + (if on then 2147483648 else 0))

/-- ENABLE set on a disabled queue: every field, indices 0, error and overflow cleared. -/
def Queue.start (q : Queue) (v : Word32) : Queue :=
  { q with cfg := cfgEffective v, prod := 0, cons := 0, stalled := false, error := false, errCode := 0, overflow := 0, dropped := false,
           held := [] }

/-- A write of `Q_CFG` (R307). A write to an enabled queue changes ENABLE only, a clear ENABLE bit included (DEDUCED, log 35). -/
def State.writeCfg (s : State) (n : Nat) (v : Word32) : State :=
  let q := s.host.queue n
  let on := v.getLsbD 31
  if portQueue n ∨ 64 ≤ n then s
  else if q.enabled then s.updQueue n (fun q => { q with cfg := cfgEnable q.cfg on })
  else if on then
    let t := s.updQueue n (fun q => q.start v)
    if 56 ≤ n then t.drainChannel (n - 56) t.bridge.reasm.length else t
  else s.updQueue n (fun q => { q with cfg := cfgEffective v })

def execQCfgWrite (queue : Nat) (v : Word32) (s : State) : Host.Outcome State Fault Refusal :=
  if s.power.running then .next (s.writeCfg queue v) else .next s

/-- Every response entry of a command's queue is taken or reserved (R312). -/
def State.responseFull (s : State) (e : Entry) : Bool :=
  !s.host.moves (Entry.target' e) || s.host.unreserved (Entry.target' e) == 0

/-- A command at the head of its queue waits for a response entry; once one is free, the queue is no longer held (R312). The command
itself is dequeued by its own row. -/
def execQueueStall (e : Entry) (s : State) : Host.Outcome State Fault Refusal :=
  if Entry.udp e ∨ !s.fetchable 0 e then .next s
  else if s.responseFull e then .next (s.stall e)
  else .next (s.updQueue e.queue (fun q => { q with stalled := false }))

/-! ### MSI-X (R323) -/

/-- One pending message is sent when its vector is unmasked. -/
def HostLink.unmask (h : HostLink) (vec : Nat) : HostLink :=
  let h := { h with masked := removeAll h.masked vec }
  if h.pba.contains vec then { h with pba := removeAll h.pba vec, messages := vec :: h.messages } else h

def execMsixVectorUnmask (vector : Nat) (s : State) : Host.Outcome State Fault Refusal :=
  if s.power.running ∧ vector < 32 then .next { s with host := s.host.unmask vector } else .next s

/-- A DWORD of the MSI-X table: address, data, or vector control, whose bit 0 masks. -/
def HostLink.writeMsix (h : HostLink) (off : Nat) (v : Word32) : HostLink :=
  if off % 16 = 12 then
    let vec := (off - 0x2000) / 16
    if v.getLsbD 0 then { h with masked := insertOnce h.masked vec } else h.unmask vec
  else { h with msix := if v = 0 then kvDel h.msix off else kvSet h.msix off v }

/-! ### Gweten (R11, R300) -/

/-- Every BAR0 register at its reset value: queues disabled, no message pending (R300). -/
def HostLink.barReset (h : HostLink) : HostLink :=
  let r := HostLink.reset
  { h with queues := r.queues, scratch := r.scratch, cdcFlag := false, cdcIsland := 0, cdcCount := 0, abortOff := 0, abortReason := 0,
           abortCount := 0, evtRoute := r.evtRoute, masked := r.masked, pba := [], msix := [] }

/-- The response of a command of one of the transports will be discarded and counted (R300). -/
def Outstanding.orphan (p : Nat → Bool) (o : Outstanding) : Outstanding := if p o.queue then { o with queue := discardQueue } else o

/-- Responses still due on a transport are to be discarded, wherever their commands wait. -/
def State.orphans (s : State) (p : Nat → Bool) : State :=
  let f := Outstanding.orphan p
  { s with
    host := { s.host with outstanding := s.host.outstanding.map f },
    xchg := { s.xchg with asked := s.xchg.asked.map f },
    update := { s.update with signing := s.update.signing.map (fun q => (f q.1, q.2)) },
    recorder := { s.recorder with clearing := s.recorder.clearing.map (fun c => { c with answer := f c.answer }) } }

/-- Requests that had not been handed to the lanes are lost with steward SRAM; their slots become free. Those of the steward's own come
from its MRAM and stay. -/
def State.dropUnhanded (s : State) : State :=
  let lost := s.req.waiting.filterMap (·.slot)
  let t : State := { s with
    req := { s.req with waiting := s.req.waiting.filter (fun q => q.slot.isNone) },
    host := { s.host with outstanding := s.host.outstanding.filter (fun o => !(o.slot.map lost.contains).getD false) } }
  lost.foldl State.freeSlot t

/-- What a restart of the steward leaves: sessions closed, contexts and SRAM lost, BAR0 at reset, configuration space kept; a
verification starts again from chunk 0 (R39, R300, R318, R364). Lanes, network and field side are not touched. -/
def State.stewardRestart (s : State) : State :=
  let s1 : State := { s with
    host := { s.host.barReset with stewardUp := false, udpQueue := [], udpSent := [], reassemblies := [] },
    recorder := { s.recorder with pending := [] } }
  let s2 := (s1.dropUnhanded.orphans (fun _ => true)).closeSessions (fun _ => true)
  { s2 with
    crc := [],
    update := { s2.update with parts := [], signing := none, state := if s2.update.state = 2 then 1 else s2.update.state },
    host := { s2.host with discards := sat32 s2.host.discards (b2n s2.update.signing.isSome) } }

/-- The key of `STEWARD_CTRL` (Table 15-5). -/
def restartKey (v : Word32) : Bool := v.getLsbD 0 && bits32 v 8 8 == 0xC3

/-- A write of `STEWARD_CTRL`: through the privileged window, or by a lane supervisor on the internal bus, which reaches it at all
times (R306). -/
def execStewardCtrlRestart (v : Word32) (backplane : Bool) (s : State) : Host.Outcome State Fault Refusal :=
  if s.power.running ∧ s.host.stewardUp ∧ (s.host.window ∨ backplane) ∧ restartKey v then .next s.stewardRestart else .next s

/-- Gweten serves again: a clear that it finds under way is completed (R389), and events held back are raised in their order. -/
def State.stewardServes (s : State) : State :=
  let s1 : State := { s with host := { s.host with stewardUp := true, heldEvents := [] } }
  s.host.heldEvents.foldl (fun s r => s.raiseNow r.num r.payload) s1.resumeClear

def execStewardBack (s : State) : Host.Outcome State Fault Refusal :=
  if s.power.running ∧ !s.host.stewardUp ∧ !s.unusable 0x39 then .next s.stewardServes else .next s

/-! ### Other BAR0 accesses (Table 15-2) -/

/-- `EVT_ROUTE`: bits [7:5] of each byte are reserved and read 0. -/
def routeEffective (v : Word32) : Word32 := v &&& 0x1F1F1F1F

/-- A DWORD written whole to an implemented register; a read-only one ignores it. -/
def State.applyRegister (s : State) (off : Nat) (v : Word32) : State :=
  let n := off / 0x40
  if off < 0x1000 then
    match off % 0x40 with
    | 0x00 => if portQueue n ∨ (s.host.queue n).enabled then s else s.updQueue n (fun q => { q with baseLo := v &&& 0xFFFFFFC0 })
    | 0x04 => if portQueue n ∨ (s.host.queue n).enabled then s else s.updQueue n (fun q => { q with baseHi := v })
    | 0x08 => s.writeCfg n v
    | 0x0C => s.writeProd n (v.toNat % 65536)
    | 0x10 => s.writeCons n (v.toNat % 65536)
    | _ => s
  else if off = 0x101C then { s with host := { s.host with scratch := v } }
  else if off = 0x1020 then s.clearCdc v
  else if 0x2000 ≤ off ∧ off < 0x2200 then { s with host := s.host.writeMsix off v }
  else if off = 0x8004 then (if s.host.window ∧ s.host.stewardUp ∧ restartKey v then s.stewardRestart else s)
  else if 0x8400 ≤ off ∧ off < 0x8500 then
    (if s.host.window then { s with host := { s.host with evtRoute := setNth s.host.evtRoute ((off - 0x8400) / 4) (routeEffective v) } }
     else s)
  else s

/-- The privileged window is addressed while it is closed: reads give 0, writes are ignored, nothing aborts (R306). -/
def State.windowShut (s : State) (off : Nat) : Bool := decide (0x8000 ≤ off) && !s.host.window

/-- A write of one DWORD or, with `high`, of two: checked whole, then applied low before high (R302, R303). `enables` is the byte-enable
mask, of 4 or 8 bits. -/
def State.writeRegister (s : State) (off : Nat) (v : Word32) (enables : Nat) (high : Option Word32) : State :=
  let w := s.host.window
  if s.windowShut off then s
  else match high with
    | none =>
      if !implemented w off then s.abort off 1 true
      else if enables % 16 ≠ 15 then s.abort off 2 true
      else s.applyRegister off v
    | some h =>
      if !(implemented w off && implemented w (off + 4)) then s.abort off 4 true
      else if enables % 256 ≠ 255 then s.abort off 2 true
      else (s.applyRegister off v).applyRegister (off + 4) h

def execRegisterWrite (offset : Nat) (v : Word32) (enables : Nat) (high : Option Word32) (s : State) :
    Host.Outcome State Fault Refusal :=
  if s.power.running then .next (s.writeRegister (offset % 65536 / 4 * 4) v enables high) else .next s

/-- An access that touches a reserved location: reason 0x1, or 0x4 for a 64-bit access of which either DWORD is reserved. -/
def State.reservedAt (s : State) (off : Nat) (write wide : Bool) : State :=
  let w := s.host.window
  if s.windowShut off then s
  else if wide ∧ !(implemented w off && implemented w (off + 4)) then s.abort off 4 write
  else if !wide ∧ !implemented w off then s.abort off 1 write
  else s

def execReservedAccess (offset : Nat) (write wide : Bool) (s : State) : Host.Outcome State Fault Refusal :=
  if s.power.running then .next (s.reservedAt (offset % 65536 / 4 * 4) write wide) else .next s

/-! ### The PCIe function (R298 to R300) -/

/-- Device ID and class code of the one function (R298). -/
def pcieDeviceId : Nat := 0x3840
def pcieClass : Nat := 0xFF0000

/-- Revision ID: bits [31:24] of `ID_PART` (R298). -/
def Ident.revisionId (i : Ident) : Nat := i.hwRev % 256

/-- Entries that wait for the tunnel receive queues go into those that move. -/
def State.drainAll (s : State) : State := (List.range 8).foldl (fun s ch => s.drainChannel ch s.bridge.reasm.length) s

/-- R300: BAR0 at reset, PCIe sessions closed, responses of PCIe commands to be discarded; the function is in D0 with Bus Master Enable
clear, and the link is down unless the reset keeps it (an FLR). -/
def State.pcieReset (s : State) (linkStays : Bool) : State :=
  let h := s.host.barReset
  let s1 : State := { s with host :=
    { h with busMaster := false, inD0 := true, linkSpeed := if linkStays then h.linkSpeed else 0 } }
  (s1.orphans (fun q => q < 15)).closeSessions (fun x => !x.udp)

def execPcieReset (linkStays : Bool) (s : State) : Host.Outcome State Fault Refusal :=
  if s.power.running then .next (s.pcieReset linkStays) else .next s

/-- The link trains at the higher rate that both ends support. -/
def execLinkTraining (partnerGen2 : Bool) (s : State) : Host.Outcome State Fault Refusal :=
  if s.power.running then .next { s with host := { s.host with linkSpeed := if partnerGen2 then 2 else 1 } } else .next s

/-- Bus Master Enable and power state: while either stops the function, every queue stops at an entry boundary; with both the queues
run again. -/
def execBusMasterEnableChange (enabled d0 : Bool) (s : State) : Host.Outcome State Fault Refusal :=
  if s.power.running then
    .next (({ s with host := { s.host with busMaster := enabled, inD0 := d0 } } : State).drainAll)
  else .next s

/-! ### The maintenance port -/

/-- J1 works and Gweten serves it. -/
def State.portUp (s : State) : Bool := s.power.running && s.host.j1Up && s.host.stewardUp

/-- A stored response of the session with this tag (R320). -/
def State.storedResponse (s : State) (e : Entry) : Option UdpSent :=
  if e.session ≠ 0 ∧ s.host.sessionOk e then s.host.udpSent.find? (fun u => u.session == e.session && u.tag == e.tag) else none

/-- A datagram with an entry of the right length: a stored response is sent again; an unknown opcode is answered; anything else
waits in Q15. -/
def State.datagram (s : State) (opcode : Nat) (e : Entry) : State :=
  let o := outstandingOf opcode e none
  match s.storedResponse e with
  | some u => s.sendDatagram e.srcAddr e.srcPort u.entry
  | none =>
    if knownOpcodes.contains opcode then { s with host := { s.host with udpQueue := s.host.udpQueue ++ [(opcode, e)] } }
    else if 4080 < e.length then (s.answer o .framing 1 []).recordBatch [recCount 0x0700 1]
    else if !Entry.crcOk e then (s.answer o .framing 3 []).recordBatch [recCount 0x0700 3]
    else s.answerUnknown o 0

/-- A UDP datagram of so many bytes: one command entry, 16 + length + 4 bytes (R319). -/
def execUdpDatagram (bytes : Nat) (opcode : Nat) (e : Entry) (s : State) : Host.Outcome State Fault Refusal :=
  let e : Entry := { e with queue := 15 }
  if !s.portUp then .next s
  else if bytes ≠ e.length + 20 then
    .next ((s.answer (outstandingOf opcode e none) .framing 4 []).recordBatch [recCount 0x0700 4])
  else .next (s.datagram opcode e)

/-- Something leaves J1. -/
def State.portSend (s : State) (x : PortOut) : State := { s with host := { s.host with portOut := x :: s.host.portOut } }

def execArpRequest (target : Nat) (s : State) : Host.Outcome State Fault Refusal :=
  if s.portUp ∧ target = s.inUse 0x0F10 then .next (s.portSend .arpReply) else .next s

def execIcmpEcho (target : Nat) (data : List Byte) (s : State) : Host.Outcome State Fault Refusal :=
  if s.portUp ∧ target = s.inUse 0x0F10 then .next (s.portSend (.echoReply data)) else .next s

/-- A reassembly not complete within 1 s is abandoned. -/
def execIpReassemblyTimeout (id : Nat) (s : State) : Host.Outcome State Fault Refusal :=
  .next { s with host := { s.host with reassemblies := removeAll s.host.reassemblies id } }

/-! ### System commands (R106, R315, R316) -/

/-- `sys.restart`: the effective profile is answered before the lanes enter reset (R106). -/
def State.sysRestart (s : State) (o : Outstanding) (e : Entry) (f : StartFacts) : State :=
  let profile := if Entry.field e 0 1 = 1 then 1 else 2
  let t := (s.answer o .done 0 (leBytes 1 profile)).stopVital
  ({ t with power := { t.power with coldAsked := profile == 2 } } : State).start f 3 false

def execSysRestart (e : Entry) (f : StartFacts) (s : State) : Host.Outcome State Fault Refusal :=
  .next (s.command 0x0301 true true e (fun o s => if Entry.size e 1 then s.sysRestart o e f else s.badPayload o))

/-- Count of a parameter command whose length matches it. -/
def paramCount (e : Entry) : Option Nat :=
  let n := Entry.field e 0 2
  if 1 ≤ n ∧ n ≤ 339 ∧ (Entry.body e).length = 4 + 12 * n then some n else none

/-- ID of entry i of a parameter command. -/
def paramId (e : Entry) (i : Nat) : Nat := Entry.field e (4 + 12 * i) 2

/-- One answered parameter: ID, flags, value in use, stored value. -/
def State.paramEntry (s : State) (id : Nat) : List Byte :=
  let v := (s.param id).getD (0, 0)
  leBytes 2 id ++ leBytes 2 (b2n (v.1 != v.2)) ++ leBytes 4 v.1 ++ leBytes 4 v.2

/-- The answer to a parameter command: the same count and an entry for each ID. -/
def State.paramAnswer (s : State) (e : Entry) (n : Nat) : List Byte :=
  leBytes 2 n ++ leBytes 2 0 ++ (List.range n).flatMap (fun i => s.paramEntry (paramId e i))

def execSysParamGet (e : Entry) (s : State) : Host.Outcome State Fault Refusal :=
  .next (s.command 0x0302 false true e (fun o s =>
    match paramCount e with
    | none => s.badPayload o
    | some n =>
      match (List.range n).find? (fun i => (s.param (paramId e i)).isNone) with
      | some i => s.answerUnknown o i
      | none => s.answer o .done 0 (s.paramAnswer e n)))

/-- A set is checked whole before anything is stored. -/
def execSysParamSet (e : Entry) (s : State) : Host.Outcome State Fault Refusal :=
  .next (s.command 0x0303 true true e (fun o s =>
    match paramCount e with
    | none => s.badPayload o
    | some n =>
      match (List.range n).find? (fun i => (writableParam (paramId e i)).isNone) with
      | some i => s.answerUnknown o i
      | none =>
        let t := (List.range n).foldl (fun s i => s.store (paramId e i) (Entry.field e (8 + 12 * i) 4)) s
        t.answer o .done 0 (t.paramAnswer e n)))

/-- Part, variant, serial, Gweten version, first 8 digest bytes of the running forme, life-cycle state (log 16). -/
def State.identify (s : State) : List Byte :=
  leBytes 2 0x3840 ++ leBytes 1 s.ident.variant.code ++ leBytes 8 s.ident.serial ++ leBytes 4 s.ident.fwVersion.toNat ++
  (digestBytes s.formeDigest).take 8 ++ leBytes 1 s.life.state.code

def execSysIdentify (e : Entry) (s : State) : Host.Outcome State Fault Refusal :=
  .next (s.command 0x0304 false true e (fun o s => s.answer o .done 0 s.identify))

end Sys2Proof.Machine
end

