-- ==== Sys2Proof/Machine/NetRows.lean ====
section
/-! DEFINITION. The network commands (R258, R259, Table 12-14) and the train commands (R279, Table 13-10). -/

namespace Sys2Proof.Machine

/-! ### `net.start`, `net.stop` -/

/-- An illegal profile takes the default `ring-1ms` (R258). -/
def netProfile (n : Nat) : Nat := if n ≤ 3 then n else 1

/-- The network cycle that a profile writes, ns, beside the default of `NET.QUAL_ERR_MAX` (R258, R315); `expert` writes none. -/
def profileCycle : Nat → Option Nat
  | 1 => some 1000000
  | 2 => some 500000
  | 3 => some 250000
  | _ => none

/-- The network starts with the stored set (R259, R315, Table 15-12) and brings every port up anew (Table 12-11); a train vehicle begins an attempt, with the cause of a restart
(DESIGN CHOICE, log 34). -/
def State.startNet (s : State) : State :=
  let s := s.applyParams isNetParam
  let n := s.net.begin s.forme s.selfNode s.storedCycleNs
  let s : State := { s with net := { n with
    countKnown := false, ports := n.ports.map (fun q => { q with mode := .down, joined := false, page := none }) } }
  if s.isTrain then s.newAttempt 6 else s.tryListen

/-- Response of `net.start`: profile, cycle, state (log 16). -/
def State.netStarted (s : State) (profile : Nat) : List Byte :=
  leBytes 1 profile ++ leBytes 4 s.storedCycleNs ++ leBytes 1 s.net.mode.code

def State.netStart (s : State) (o : Outstanding) (profile : Nat) : State :=
  if s.net.mode ≠ .stopped ∨ s.net.engineBad ∨ s.power.netDown then s.answer o .state 0 []
  else
    let s := match profileCycle profile with
      | some ns => (s.store 0x0C01 ns).store 0x0C04 0
      | none => s
    let s := s.startNet
    s.answer o .done 0 (s.netStarted profile)

def execNetStart (e : Entry) (s : State) : Host.Outcome State Fault Refusal :=
  .next (s.command 0x0C01 true true e (fun o s =>
    if Entry.size e 1 then s.netStart o (netProfile (Entry.field e 0 1)) else s.badPayload o))

/-- `net.stop` is taken in Commissioning, Maintenance and the safe state, and not while an exchange is under way. -/
def State.netStops (s : State) : Bool :=
  (s.life.state == .commissioning || s.life.state == .maintenance || s.platen.safe) && s.xchg.state == .idle

/-- The network stops: buffers age on (R258). -/
def State.stopNet (s : State) : State :=
  { s with net := { s.net with mode := .stopped, adopt := none, copies := [], arrivals := [], sends := false, good := 0, silent := 0,
                               countKnown := false } }

def execNetStop (e : Entry) (s : State) : Host.Outcome State Fault Refusal :=
  .next (s.command 0x0C02 true true e (fun o s =>
    if !s.netStops then s.answer o .state 0 []
    else s.stopNet.answer o .done 0 (leBytes 1 s.stopNet.net.mode.code)))

/-- State, position, four link states and latencies, last off, rc and dev, 4 bytes each (log 16). -/
def State.netReport (s : State) : List Byte :=
  s.paramRange 0x0C02 2 ++ s.paramRange 0x0C10 8 ++ s.paramRange 0x0C05 2 ++ leBytes 4 (toU32 s.net.dev)

def execNetStatus (e : Entry) (s : State) : Host.Outcome State Fault Refusal :=
  .next (s.command 0x0C03 false true e (fun o s =>
    s.answer o .done 0 s.netReport))

def execNetCounters (e : Entry) (s : State) : Host.Outcome State Fault Refusal :=
  .next (s.command 0x0C04 false true e (fun o s =>
    s.answer o .done 0 (s.paramRange 0x0C20 32 ++ s.paramRange 0x0C40 5)))

/-! ### Train commands -/

def execTrnStatus (e : Entry) (s : State) : Host.Outcome State Fault Refusal :=
  .next (s.command 0x0D01 false true e (fun o s =>
    if !s.isTrain then s.answer o .state 0 []
    else s.answer o .done 0 (s.paramRange 0x0D01 8)))

/-- Vehicle k of the line as the first lane in service sees it: identity, number, orientation, proven. -/
def vehicleBytes (e : Env) (own : List Nat) (k : Nat) : List Byte :=
  let n := (e.claim.map (·.1)).getD 0
  let proven := member ((((e.vehicleWords own n k)[4]?).getD none).getD 0) 0
  leBytes 6 (e.vehicleId k) ++ leBytes 1 k ++ leBytes 1 (e.vehicleOrient k) ++ leBytes 1 (b2n proven) ++ leBytes 1 0

/-- N, the vehicles and the ligature records (log 16). -/
def State.composition (s : State) : List Byte :=
  let n := s.train.count
  let vehicles := match s.refLane with
    | none => []
    | some l => match (s.lanes.get l).forme with
      | none => []
      | some f =>
        let e := s.envOf l f
        let own := (Ev.start (s.lanes.get l).core).ownStatus e e.claim (s.lanes.get l).core.train.passed
        (List.range n).flatMap (fun i => vehicleBytes e own (i + 1))
  leBytes 2 n ++ vehicles ++ s.train.ligatures.flatMap Ligature.bytes

def execTrnComposition (e : Entry) (s : State) : Host.Outcome State Fault Refusal :=
  .next (s.command 0x0D02 false true e (fun o s =>
    if !s.isTrain then s.answer o .state 0 []
    else s.answer o .done 0 s.composition))

/-- `trn.inaugurate`: a new attempt with cause 4. A node whose proofs have failed takes heart again (Table 13-5). -/
def State.inaugurate (s : State) (o : Outstanding) : State :=
  if !s.serves ∨ !s.inaugurates ∨ s.train.state = 1 then s.answer o .state 0 []
  else
    let s := ({ s with train := { s.train with proofFails := 0 } } : State).newAttempt 4
    s.answer o .done 0 (leBytes 2 s.train.attempt)

def execTrnInaugurate (e : Entry) (s : State) : Host.Outcome State Fault Refusal :=
  .next (s.command 0x0D03 true true e (fun o s =>
    s.inaugurate o))

end Sys2Proof.Machine
end

