-- ==== Sys2Proof/Machine/Operator.lean ====
section
/-! DEFINITION. Operator commands (R175 to R189), forces (R166 to R169), the clearing of blocks (R206) and the status of motion and guard
functions (R227), as the steward takes them. The lanes act on what it freezes. -/

namespace Sys2Proof.Machine

/-! ### Request slots (R122) -/

/-- The first request slot at or above a number that nothing holds. -/
def Requests.slotFrom (r : Requests) (first : Nat) : Nat :=
  ((List.range 257).find? (fun i => (kvGet r.slots (first + i)).isNone)).map (first + ·) |>.getD (first + 257)

/-- Slots of route and element requests that are taken. Force requests hold numbers above 255, for they take none of the 256 slots
(R122, R166; DESIGN CHOICE, log 33). -/
def Requests.taken (r : Requests) : Nat := (r.slots.filter (fun p => decide (p.1 < 256))).length

def ReqKind.isForce : ReqKind → Bool
  | .forceSet _ => true
  | .forceClear _ => true
  | _ => false

/-- The request joins those that the next strobe freezes, and its command stays outstanding until the slot answers. -/
def State.file (s : State) (o : Outstanding) (k : ReqKind) (key tok : Nat) : State :=
  let n := s.req.slotFrom (if k.isForce then 256 else 0)
  let s : State := { s with req := { s.req with
    slots := kvSet s.req.slots n k, origins := kvSet s.req.origins n (o.session, key, tok),
    waiting := s.req.waiting ++ [{ kind := k, slot := some n }] } }
  s.keep { o with slot := some n }

/-- `BUSY` for want of a request slot, counted in the recorder (R122). -/
def State.noSlot (s : State) (o : Outstanding) : State := (s.answer o .busy 0 []).recordBatch [recCount 0x0108 0]

/-! ### When requests are taken -/

/-- The exchange periods of R158; a cancel is taken while an exchange is loading or prepared. -/
def State.exchangeBars (s : State) (cancel : Bool) : Bool :=
  match s.xchg.state with
  | .idle => false
  | .loading => !cancel
  | .prepared => !cancel
  | .committing => true

/-- Commands of R175 are taken: life-cycle state, a forme that runs (DESIGN CHOICE, log 33), no exchange period, and not in a member that
stands by (R291). -/
def State.open' (s : State) (cancel : Bool) : Bool := s.serves && s.forme.isSome && !s.exchangeBars cancel && !s.standsBy

/-- The route that a request names. -/
def ReqKind.route? : ReqKind → Option Nat
  | .routeSet r => some r
  | .routeCancel r => some r
  | .reclear r => some r
  | _ => none

/-- The element that a request names. -/
def ReqKind.element? : ReqKind → Option Nat
  | .pointMove id _ => some id
  | .block id => some id
  | .auxStage id _ _ => some id
  | .auxWithdraw id => some id
  | _ => none

/-- The output or bank that a request names (R206). -/
def ReqKind.output? : ReqKind → Option (Nat × Nat)
  | .blockClear t i => some (t, i)
  | _ => none

/-- Two requests name one target. -/
def ReqKind.sameTarget (a b : ReqKind) : Bool :=
  (a.route?.isSome && a.route? == b.route?) || (a.element?.isSome && a.element? == b.element?) ||
  (a.output?.isSome && a.output? == b.output?)

/-- A second request for a target that holds a slot is not taken (R122, R176). A cancel is, and so is a withdrawal, which names the
target of the staging that it ends. -/
def ReqKind.alwaysFits : ReqKind → Bool
  | .routeCancel _ => true
  | .auxWithdraw _ => true
  | _ => false

def Requests.clashes (r : Requests) (k : ReqKind) : Bool := !k.alwaysFits && r.slots.any (fun p => p.2.sameTarget k)

/-- A request of the host: `STATE` where it is not taken now, `BUSY` without a free slot, and otherwise a slot until the lanes answer. -/
def State.request (s : State) (o : Outstanding) (k : ReqKind) : State :=
  let cancel := match k with | .routeCancel _ => true | _ => false
  if !s.open' cancel ∨ s.platen.safe ∨ s.req.clashes k then s.answer o .state 0 []
  else if 256 ≤ s.req.taken then s.noSlot o
  else s.file o k 0xFF 0

/-! ### Route commands -/

def execIlkRouteSet (e : Entry) (s : State) : Host.Outcome State Fault Refusal :=
  .next (s.command 0x0601 true true e (fun o s =>
    if Entry.size e 2 then s.request o (.routeSet (Entry.field e 0 2)) else s.badPayload o))

def execIlkRouteCancel (e : Entry) (s : State) : Host.Outcome State Fault Refusal :=
  .next (s.command 0x0602 true true e (fun o s =>
    if Entry.size e 2 then s.request o (.routeCancel (Entry.field e 0 2)) else s.badPayload o))

def execIlkRouteReclear (e : Entry) (s : State) : Host.Outcome State Fault Refusal :=
  .next (s.command 0x0603 true true e (fun o s =>
    if Entry.size e 2 then s.request o (.reclear (Entry.field e 0 2)) else s.badPayload o))

/-! ### Element and auxiliary commands -/

/-- A position code other than 1 or 2 takes the default 1 (R176, R313). -/
def positionCode (n : Nat) : Nat := if n = 2 then 2 else 1

def execElmPointMove (e : Entry) (s : State) : Host.Outcome State Fault Refusal :=
  .next (s.command 0x0801 true true e (fun o s =>
    if Entry.size e 3 then s.request o (.pointMove (Entry.field e 0 2) (positionCode (Entry.field e 2 1))) else s.badPayload o))

def execElmBlockSet (e : Entry) (s : State) : Host.Outcome State Fault Refusal :=
  .next (s.command 0x0802 true true e (fun o s =>
    if Entry.size e 2 then s.request o (.block (Entry.field e 0 2)) else s.badPayload o))

/-- The authority index is clamped to 0 to 7 (R313); an illegal code is refused by the lanes (R176, R185). -/
def execIlkAuxStage (e : Entry) (s : State) : Host.Outcome State Fault Refusal :=
  .next (s.command 0x0620 true true e (fun o s =>
    if Entry.size e 4 then s.request o (.auxStage (Entry.field e 0 2) (Entry.field e 2 1) (min 7 (Entry.field e 3 1)))
    else s.badPayload o))

def execIlkAuxWithdraw (e : Entry) (s : State) : Host.Outcome State Fault Refusal :=
  .next (s.command 0x0621 true true e (fun o s =>
    if Entry.size e 2 then s.request o (.auxWithdraw (Entry.field e 0 2)) else s.badPayload o))

/-- All 48 counters and their sum (R176, R188); the sum is 8 bytes long (log 16). -/
def Requests.auxReport (r : Requests) : List Byte :=
  r.auxCounts.flatMap (leBytes 4) ++ leBytes 8 (r.auxCounts.foldl (· + ·) 0)

def execIlkAuxCounters (e : Entry) (s : State) : Host.Outcome State Fault Refusal :=
  .next (s.command 0x0622 true true e (fun o s =>
    if !s.serves ∨ s.platen.safe ∨ s.exchangeBars false ∨ s.standsBy then s.answer o .state 0 []
    else s.answer o .done 0 s.req.auxReport))

/-! ### Forces -/

/-- The entry that `ilk.force_set` carries: bytes 0x00 to 0x09 of Table 8-8. -/
def forceOfEntry (b : List Byte) : Force :=
  { id := fieldAt b 0 2, kind := fieldAt b 2 1, path := fieldAt b 3 1, word := fieldAt b 4 1, flags := fieldAt b 5 1,
    mask := fieldAt b 6 2, x := fieldAt b 8 2, num := 0, cycle := 0 }

/-- Life-cycle states in which vital forces are set and removed (R167, R168). -/
def State.vitalForces (s : State) : Bool := s.life.state == .commissioning || s.life.state == .maintenance

/-- Forces wait out the exchange periods with the other requests (R158, R172), and a member that stands by takes none (R291). -/
def State.takesForces (s : State) : Bool := s.open' false && !s.platen.safe

/-- The token of a vital force names the entry's fields and the digest of the running forme (R167, Table 18-4). -/
def State.forceNamed (s : State) (b t : List Byte) : Bool :=
  (tokBody t).take 10 == b.take 10 && digestAt (tokBody t) 12 == s.formeDigest

/-- `ilk.force_set`: the entry, and for a vital position the token after it, which is checked before the command's own conditions
(R369). A token that names something else gives `AUTH`. -/
def State.forceSet (s : State) (o : Outstanding) (b : List Byte) (sig : Sig) : State :=
  let q := forceOfEntry b
  let t := b.drop 10
  if b.length < 10 then s.badPayload o
  else if s.forme.any (fun f => f.forceVital q.path q.id) then
    if t.isEmpty then s.answer o .auth 0 []
    else s.withToken o [0x05] t sig (fun s =>
      if !s.forceNamed b t then s.answer o .auth 0 []
      else if !s.takesForces ∨ !s.vitalForces then s.answer o .state 0 []
      else s.file o (.forceSet q) (tokIndex t) (tokSeq t))
  else if !s.takesForces then s.answer o .state 0 []
  else s.file o (.forceSet q) 0xFF 0

def execIlkForceSet (e : Entry) (sig : Sig) (s : State) : Host.Outcome State Fault Refusal :=
  .next (s.command 0x0618 true true e (fun o s => s.forceSet o (Entry.body e) sig))

/-- The entry with a number is vital. -/
def State.forceIsVital (s : State) (num : Nat) : Bool := (s.forceNo num).any (fun q => member q.flags 0)

def execIlkForceClear (e : Entry) (s : State) : Host.Outcome State Fault Refusal :=
  .next (s.command 0x0619 true true e (fun o s =>
    let n := Entry.field e 0 2
    if !Entry.size e 2 then s.badPayload o
    else if !s.takesForces ∨ (s.forceIsVital n ∧ !s.vitalForces) then s.answer o .state 0 []
    else s.file o (.forceClear n) 0xFF 0))

/-- The program's present x of a forced position: the shadow word (R169). -/
def LaneState.programX (st : LaneState) (f : Forme) (l : LaneId) (now : Nat) (q : Force) : Nat :=
  match f.forceAddr q.path q.id q.kind q.word with
  | none => 0
  | some a => (kvGet st.core.shadow a).getD (readX f l now st.core.store a)

/-- Every entry with the program's present x. -/
def State.forceList (s : State) : List Byte :=
  match s.refLane, s.forme with
  | some l, some f => (s.lanes.get l).core.frisket.flatMap (fun q =>
      q.bytes ++ leBytes 2 ((s.lanes.get l).programX f l s.net.count q) ++ leBytes 2 0)
  | _, _ => []

def execIlkForceList (e : Entry) (s : State) : Host.Outcome State Fault Refusal :=
  .next (s.command 0x061A false true e (fun o s =>
    if s.standsBy then s.answer o .state 0 []
    else s.answer o .done 0 s.forceList))

/-! ### `fld.block_clear` -/

/-- Target and index as they take effect: clamped to the outputs and banks of the variant (R206, R313). -/
def State.clearTarget (s : State) (b : List Byte) : Nat × Nat :=
  let target := clamp 1 2 (fieldAt b 0 1)
  let full := s.ident.variant == .f
  (target, if target = 1 then min (if full then 15 else 7) (fieldAt b 1 1) else clamp 4 (if full then 5 else 4) (fieldAt b 1 1))

/-- `fld.block_clear`: the token, which names target and index, is checked before the command's own conditions (R369). -/
def State.blockClear (s : State) (o : Outstanding) (b : List Byte) (sig : Sig) : State :=
  let p := s.clearTarget b
  let t := b.drop 2
  if b.length < 2 then s.badPayload o
  else if t.isEmpty then s.answer o .auth 0 []
  else s.withToken o [0x06] t sig (fun s =>
    if fieldAt (tokBody t) 0 1 ≠ p.1 ∨ fieldAt (tokBody t) 1 1 ≠ p.2 then s.answer o .auth 0 []
    else if !s.takesForces ∨ s.req.clashes (.blockClear p.1 p.2) then s.answer o .state 0 []
    else if 256 ≤ s.req.taken then s.noSlot o
    else s.file o (.blockClear p.1 p.2) (tokIndex t) (tokSeq t))

def execFldBlockClear (e : Entry) (sig : Sig) (s : State) : Host.Outcome State Fault Refusal :=
  .next (s.command 0x0901 true true e (fun o s => s.blockClear o (Entry.body e) sig))

/-! ### `mot.status` and `grd.status` -/

/-- The words that the steward holds as copies, as it decodes them (R15); before the first cycle close it holds none. -/
def State.copiedX (s : State) (f : Forme) (a : Nat) : Nat :=
  match s.req.copies with
  | some c => readX f c.lane c.cycle c.store a
  | none => 0

/-- Cycle count of the steward's copies. -/
def State.copiedCycle (s : State) : Nat := (s.req.copies.map (·.cycle)).getD s.net.count

/-- Words 0 to 3 of a function of the running forme in the steward's copies, and their cycle count (R15, R227). -/
def State.funcStatus (s : State) (id : Nat) (guard : Bool) : Option (List Byte) :=
  s.forme.bind (fun f => (f.funcNo id).bind (fun i =>
    if (f.funcs[i]?).any (fun r => decide (0x10 ≤ r.typ) == guard) then
      some ((List.range 4).flatMap (fun w => leBytes 2 (s.copiedX f (f.addr 0x13 i w))) ++ leBytes 4 s.copiedCycle)
    else none))

/-- The answer of `mot.status` and `grd.status`: an unknown identity is refused with reason 0x01 (R227). -/
def State.answerFunc (s : State) (o : Outstanding) (id : Nat) (guard : Bool) : State :=
  match s.funcStatus id guard with
  | some b => s.answer o .done 0 b
  | none => s.answer o .refused 0 (leBytes 1 1)

def execMotStatus (e : Entry) (s : State) : Host.Outcome State Fault Refusal :=
  .next (s.command 0x0A01 false true e (fun o s =>
    if Entry.size e 2 then s.answerFunc o (Entry.field e 0 2) false else s.badPayload o))

def execGrdStatus (e : Entry) (s : State) : Host.Outcome State Fault Refusal :=
  .next (s.command 0x0B01 false true e (fun o s =>
    if Entry.size e 2 then s.answerFunc o (Entry.field e 0 2) true else s.badPayload o))

end Sys2Proof.Machine
end

