-- ==== Sys2Proof/Machine/UpdateRows.lean ====
section
/-! DEFINITION. Image update and attestation (chapter 17): the checks of a colophon (R345, R348), the download (R350 to R352), the
verification (R353), activation, confirmation and abort (R354, R355, R359), and the attestation report (R362, R363). What the crypto
island finds (signatures, tags, the unwrap, the digest of the plaintext) comes with the commands (log 10). -/

namespace Sys2Proof.Machine

/-! ### The colophon (Table 17-2) -/

/-- The fields of a 512-byte colophon, with its two signatures as the crypto island sees them. -/
def colophonOf (b : List Byte) (helfinor approval : Sig) : Colophon :=
  { bytes := b, typ := fieldAt b 6 1, version := fieldAt b 8 4, rollback := fieldAt b 0xC 4, length := fieldAt b 0x14 4,
    chunks := fieldAt b 0x18 4, installation := fieldAt b 0x28 8, digest := digestAt b 0x30, format := fieldAt b 0x80 2,
    helfinor := helfinor, approval := approval }

/-- Largest chunk count of a type (Table 17-1). -/
def chunkLimit : Nat → Nat
  | 1 => 16288
  | 2 => 6128
  | 3 => 4072
  | 4 => 4072
  | _ => 0

/-- n bytes from an offset are 0. -/
def zeroAt (b : List Byte) (off n : Nat) : Bool := fieldAt b off n == 0

/-- ASCII "PSXC". -/
def colophonMagic : Nat := 0x43585350

/-- Part code: 0x3840, any variant or this one, and a hardware revision at least the lowest named (check 6). -/
def State.partFits (s : State) (b : List Byte) : Bool :=
  fieldAt b 0x10 2 == 0x3840 && (fieldAt b 0x12 1 == 0 || fieldAt b 0x12 1 == s.ident.variant.code) &&
  decide (fieldAt b 0x13 1 ≤ s.ident.hwRev)

/-- The configuration format that the running firmware's colophon names; without one that of the boot record. -/
def State.runningFormat (s : State) : Nat :=
  match (s.update.nandSlot 1 (nthD s.update.booted 0 0)).colophon with
  | some c => c.format
  | none => s.update.record.format

/-- Sizes, flags, reserved bytes and format (check 7). -/
def State.shapeFits (s : State) (b : List Byte) (c : Colophon) : Bool :=
  fieldAt b 0x1C 2 == 0x1000 && decide (1 ≤ c.length) && c.chunks == ceilDiv c.length 4096 && decide (c.chunks ≤ chunkLimit c.typ) &&
  fieldAt b 7 1 == (if c.typ = 2 then 1 else 0) && zeroAt b 0x1E 2 && zeroAt b 0x82 30 && zeroAt b 0x1F8 8 &&
  (c.typ != 3 || c.format == s.runningFormat)

/-- Key index of the credential that opened a session (R317). -/
def State.sourceOf (s : State) (o : Outstanding) : Nat :=
  ((s.host.sessions.find? (fun x => x.num == o.session)).map (·.key)).getD 0xFF

/-- Another source owns the update session (R349). -/
def State.foreign (s : State) (o : Outstanding) : Bool := s.update.session.any (fun q => q.source != s.sourceOf o)

/-- The first failing check of Table 17-3, as status and detail. -/
def State.colophonFail (s : State) (o : Outstanding) (b : List Byte) (c : Colophon) (unwraps : Bool) : Option (Status × Nat) :=
  if b.length ≠ 512 then some (.framing, 6)
  else if s.life.state = .retired ∨ (c.typ = 2 ∧ s.xchg.state ≠ .idle) then some (.state, 0)
  else if s.foreign o ∨ s.update.session.any (fun q => q.colophon.bytes != b) then some (.busy, 0)
  else if fieldAt b 0 4 ≠ colophonMagic ∨ fieldAt b 4 2 ≠ 1 then some (.refused, 1)
  else if c.typ = 0 ∨ 4 < c.typ then some (.refused, 2)
  else if !s.partFits b then some (.refused, 3)
  else if !s.shapeFits b c then some (.refused, 4)
  else if !s.verifies s.ident.rootKey c.helfinor then some (.auth, 5)
  else if c.typ = 2 ∧ !s.verifies s.life.authority c.approval then some (.auth, 6)
  else if (c.typ = 2 ∨ c.typ = 3) ∧ c.installation ≠ s.life.installation then some (.refused, 7)
  else if c.rollback < (s.update.record.entry c.typ).floor then some (.refused, 8)
  else if !unwraps ∨ s.power.cryptoDown then some (.auth, 9)
  else none

/-! ### The session -/

/-- First chunk index that is not held; 0xFFFFFFFF when none is missing. -/
def UpdSession.missing (q : UpdSession) : Nat :=
  ((List.range q.colophon.chunks).find? (fun i => !q.held.contains i)).getD 0xFFFFFFFF

/-- The answer of `upd.begin`: state, chunk count, chunks held, first missing chunk (log 16). -/
def State.beginAnswer (s : State) (q : UpdSession) : List Byte :=
  leBytes 1 s.update.state ++ leBytes 3 0 ++ leBytes 4 q.colophon.chunks ++ leBytes 4 q.held.length ++ leBytes 4 q.missing

/-- A colophon that passed creates the session, or resumes the one that has it. -/
def State.beginSession (s : State) (o : Outstanding) (c : Colophon) : State :=
  match s.update.session with
  | some q => ({ s with update := { s.update with idleS := 0 } } : State).answer o .done 0 (s.beginAnswer q)
  | none =>
    let q : UpdSession := { colophon := c, source := s.sourceOf o, held := [], stored := [] }
    let t : State := { s with update := { s.update with state := 1, session := some q, parts := [], idleS := 0 } }
    (t.answer o .done 0 (t.beginAnswer q)).raise evUpdBegun (leBytes 1 c.typ)

/-- A refused colophon: the answer, `ev.upd_refused` with the detail, and a count in the recorder. -/
def State.refuseColophon (s : State) (o : Outstanding) (p : Status × Nat) : State :=
  let s1 := s.answer o p.1 p.2 []
  s1.raiseWith evUpdRefused (leBytes 1 p.2) (recCount 0x0710 p.2 :: (if p.1 = .framing then [recCount 0x0700 p.2] else []))

def execUpdBegin (e : Entry) (helfinor approval : Sig) (unwraps : Bool) (s : State) : Host.Outcome State Fault Refusal :=
  .next (s.command 0x1201 true true e (fun o s =>
    let c := colophonOf (Entry.body e) helfinor approval
    match s.colophonFail o (Entry.body e) c unwraps with
    | some p => s.refuseColophon o p
    | none => s.beginSession o c))

/-- A command of the session's own source in a state that it matches: otherwise `BUSY` or `STATE`. -/
def State.withSession (s : State) (o : Outstanding) (states : List Nat) (run : UpdSession → State → State) : State :=
  match s.update.session with
  | none => s.answer o .state 0 []
  | some q =>
    if s.foreign o then s.answer o .busy 0 []
    else if !states.contains s.update.state then s.answer o .state 0 []
    else run q s

/-- An accepted update command sets the inactivity count to 0 (R352). -/
def Update.active (u : Update) : Update := { u with idleS := 0 }

/-! ### The download (R347, R350) -/

/-- Ciphertext length of chunk i. -/
def Colophon.chunkBytes (c : Colophon) (i : Nat) : Nat := min (4096 * (i + 1)) c.length - 4096 * i

/-- Data length of a part of chunk i. -/
def Colophon.partBytes (c : Colophon) (i part : Nat) : Nat :=
  let n := c.chunkBytes i
  if part = 0 then min 2048 n else n - min 2048 n + 16

/-- Parts of chunk i in the staging buffer. -/
def Update.partsOf (u : Update) (i : Nat) : List (Nat × Nat × List Byte) := u.parts.filter (fun p => p.1 == i)

/-- Chunks with a part in the buffer. -/
def Update.staged (u : Update) : Nat := ((u.parts.map (·.1)).eraseDups).length

/-- Both parts of a chunk are freed. -/
def Update.freeParts (u : Update) (i : Nat) : Update := { u with parts := u.parts.filter (fun p => p.1 != i) }

/-- A part in place of an earlier one of the same chunk. -/
def Update.putPart (u : Update) (i part : Nat) (data : List Byte) : Update :=
  { u with parts := u.parts.filter (fun p => !(p.1 == i && p.2.1 == part)) ++ [(i, part, data)] }

/-- A chunk as it is stored: ciphertext and tag with their CRC-64/XZ, least significant byte first (R35, R351). -/
def storedChunk (data : List Byte) : List Byte := data ++ leBytes 8 (crcOf 3 data)

/-- A chunk as it is read passes its CRC. -/
def chunkOk (l : List Byte) : Bool := decide (8 ≤ l.length) && crcOf 3 (l.take (l.length - 8)) == leNat (l.drop (l.length - 8))

/-- A chunk is written to staging and held. -/
def Update.hold (u : Update) (i : Nat) (data : List Byte) : Update :=
  { u with session := u.session.map (fun q => { q with held := sortBy (fun a b => decide (a ≤ b)) (insertOnce q.held i),
                                                       stored := kvSet q.stored i (storedChunk data) }) }

/-- Data of a chunk from its two parts. -/
def Update.chunkData (u : Update) (i : Nat) : List Byte :=
  ((sortBy (fun a b => decide (a.2.1 ≤ b.2.1)) (u.partsOf i)).map (·.2.2)).flatten

/-- Effective index and chunks held. -/
def State.chunkAnswer (s : State) (i : Nat) : List Byte :=
  leBytes 4 i ++ leBytes 4 ((s.update.session.map (fun q => q.held.length)).getD 0)

/-- Both parts of a chunk are present: the tag decides. -/
def State.chunkWhole (s : State) (o : Outstanding) (i : Nat) (tagOk : Bool) : State :=
  let u := s.update.freeParts i
  if tagOk ∧ !s.power.cryptoDown then
    let t : State := { s with update := u.hold i (s.update.chunkData i) }
    t.answer o .done 0 (t.chunkAnswer i)
  else ({ s with update := u } : State).answer o .refused 0x0A []

/-- A chunk part of the right length. -/
def State.chunkPart (s : State) (o : Outstanding) (q : UpdSession) (i part : Nat) (data : List Byte) (tagOk : Bool) : State :=
  let s1 : State := { s with update := s.update.active }
  if q.held.contains i then s1.answer o .done 0 (s1.chunkAnswer i)
  else if (s.update.partsOf i).isEmpty ∧ 32 ≤ s.update.staged then
    (s.answer o .busy 0 []).recordBatch [recCount 0x0108 6]
  else
    let t : State := { s1 with update := s1.update.putPart i part data }
    if (t.update.partsOf i).length = 2 then t.chunkWhole o i tagOk else t.answer o .done 0 (t.chunkAnswer i)

/-- `upd.chunk`: index clamped to the last chunk, part to 1; a wrong data length is `FRAMING` with detail 0x07. -/
def State.chunk (s : State) (o : Outstanding) (b : List Byte) (tagOk : Bool) (q : UpdSession) : State :=
  let i := min (fieldAt b 0 4) (q.colophon.chunks - 1)
  let part := min 1 (fieldAt b 4 1)
  let data := b.drop 8
  if data.length ≠ q.colophon.partBytes i part then (s.answer o .framing 7 []).recordBatch [recCount 0x0700 7]
  else s.chunkPart o q i part data tagOk

def execUpdChunk (e : Entry) (tagOk : Bool) (s : State) : Host.Outcome State Fault Refusal :=
  .next (s.command 0x1202 true true e (fun o s =>
    let b := Entry.body e
    if b.length < 8 then s.badPayload o else s.withSession o [1] (fun q s => s.chunk o b tagOk q)))

/-- Bitmap of the chunks held, bit i of byte i / 8 for chunk i. -/
def UpdSession.bitmap (q : UpdSession) : List Byte :=
  (List.range (ceilDiv q.colophon.chunks 8)).map (fun k =>
    BitVec.ofNat 8 (ofMembers ((List.range 8).map (fun j => q.held.contains (8 * k + j)))))

/-- Payload of `upd.status`. -/
def State.updReport (s : State) : List Byte :=
  leBytes 1 s.update.state ++ leBytes 3 0 ++
  (match s.update.session with
    | some q => leBytes 4 q.colophon.chunks ++ q.bitmap
    | none => leBytes 4 0)

/-- `upd.status` reads only; it is answered to any source (DESIGN CHOICE, log 36). -/
def execUpdStatus (e : Entry) (s : State) : Host.Outcome State Fault Refusal :=
  .next (s.command 0x1203 false true e (fun o s =>
    s.answer o .done 0 s.updReport))

/-! ### Verification (R353) -/

/-- The slot of a type that an update writes: the one that is not current (R344). -/
def Update.freeSlotOf (u : Update) (typ : Nat) : Nat := 1 - (u.record.entry typ).current

/-- `upd.verify`: every bit set; the free slot is being overwritten from here on. -/
def State.beginVerify (s : State) (o : Outstanding) (q : UpdSession) : State :=
  if q.held.length < q.colophon.chunks then s.answer o .state 0 []
  else
    let typ := q.colophon.typ
    let u := (s.update.active).setNand typ (s.update.freeSlotOf typ) .empty
    ({ s with update := { u with state := 2 } } : State).answer o .done 0 (leBytes 1 2)

def execUpdVerify (e : Entry) (s : State) : Host.Outcome State Fault Refusal :=
  .next (s.command 0x1204 true true e (fun o s =>
    s.withSession o [1] (fun q s => s.beginVerify o q)))

/-- The first chunk, in order of index, that reads with a failing CRC or decrypts with a failing tag. `reads` are the chunks that read
otherwise than they were stored (R351). -/
def UpdSession.badChunk (q : UpdSession) (reads : List (Nat × List Byte)) (badTag : Option Nat) : Option Nat :=
  (List.range q.colophon.chunks).find? (fun i => badTag == some i || !chunkOk ((kvGet reads i).getD (kvGetD q.stored i [])))

/-- The endings of R353. -/
def State.verified (s : State) (q : UpdSession) (digest : Digest) (reads : List (Nat × List Byte)) (badTag : Option Nat) : State :=
  let typ := q.colophon.typ
  match q.badChunk reads badTag with
  | some i =>
    let i := min i (q.colophon.chunks - 1)
    let u : Update := { s.update with state := 1, session := some { q with held := removeAll q.held i, stored := q.stored.filter (fun p => p.1 != i) } }
    ({ s with update := u } : State).raise evUpdVerifyFail (leBytes 4 i)
  | none =>
    if digest = q.colophon.digest then
      let u := s.update.setNand typ (s.update.freeSlotOf typ) { verified := true, colophon := some q.colophon, chunks := q.stored }
      ({ s with update := { u with state := 3 } } : State).raise evUpdVerified (leBytes 1 typ)
    else ({ s with update := s.update.endSession } : State).raise evUpdVerifyFail (leBytes 4 0xFFFFFFFF)

def execVerificationComplete (digest : Digest) (chunks : ChunkReads) (s : State) :
    Host.Outcome State Fault Refusal :=
  match s.update.session with
  | some q =>
    if s.power.running ∧ s.host.stewardUp ∧ s.update.state = 2 then .next (s.verified q digest chunks.reads chunks.badTag) else .next s
  | none => .next s

/-! ### Activation, confirmation, abort -/

/-- The recorder keeps an update happening: 1 activated, 2 confirmed, 3 aborted, 4 expired (log 14). -/
def updKeep (action typ seq : Nat) : RecUpd := recKeep 0x0711 0 (leBytes 1 action ++ leBytes 1 typ ++ leBytes 2 0 ++ leBytes 4 seq)

/-- Life-cycle states in which an image is activated (R355). -/
def State.mayActivate (s : State) : Bool :=
  s.life.state == .manufacture || s.life.state == .commissioning || s.life.state == .maintenance

/-- `upd.activate`: record and counter written, answered, and a cold restart (R355). -/
def State.activate (s : State) (o : Outstanding) (q : UpdSession) (f : StartFacts) : State :=
  let c := q.colophon
  if !s.mayActivate ∨ (c.typ = 2 ∧ s.xchg.state ≠ .idle) then s.answer o .state 0 []
  else
    let slot := s.update.freeSlotOf c.typ
    let u := s.update.active.writeRec (fun r => r.setEntry c.typ (fun x => { x with trial := some slot, trialVersion := c.version }))
    let seq := u.record.seq
    let t : State := { s with update := { u with trialSeq := seq, trialCount := 0, state := 4 } }
    let t := ((t.answer o .done 0 (leBytes 4 seq)).raiseWith evUpdActivated (leBytes 1 c.typ) [updKeep 1 c.typ seq]).stopVital
    ({ t with power := { t.power with coldAsked := true } } : State).start f 3 false

def execUpdActivate (e : Entry) (f : StartFacts) (s : State) : Host.Outcome State Fault Refusal :=
  .next (s.command 0x1205 true true e (fun o s =>
    s.withSession o [3] (fun q s => s.activate o q f)))

/-- The trial image is the one that runs. -/
def State.trialImageRuns (s : State) (q : UpdSession) : Bool :=
  let typ := q.colophon.typ
  match (s.update.record.entry typ).trial with
  | none => false
  | some k =>
    nthD s.update.booted (typ - 1) 0 == k && (typ != 2 || (s.lanesSlot == some k && s.formeDigest == q.colophon.digest))

/-- Step 1 of R359: the trial slot becomes current, with its version; the floor takes the rollback counter. A configuration image is then
the one in use (DEDUCED, log 28). -/
def BootRec.confirm (r : BootRec) (c : Colophon) : BootRec :=
  let r1 := r.setEntry c.typ (fun x =>
    { current := x.trial.getD x.current, trial := none, currentVersion := c.version, trialVersion := 0, floor := c.rollback })
  let r2 : BootRec := { r1 with cfgOld := none, oldFormat := 0 }
  if c.typ = 3 then { r2 with cfgSlot := (r1.entry 3).current, format := c.format } else r2

/-- `upd.confirm` under a token that passed. -/
def State.confirm (s : State) (o : Outstanding) (q : UpdSession) (t : List Byte) : State :=
  let c := q.colophon
  if !s.trialImageRuns q then s.answer o .state 0 []
  else if fieldAt (tokBody t) 0 1 ≠ c.typ ∨ digestAt (tokBody t) 4 ≠ c.digest then s.answer o .auth 0 []
  else
    let old := s.update.record.cfgOld
    let u := s.update.writeRec (fun r => r.confirm c)
    let u := match old with
      | some k => u.setNand 3 k .empty
      | none => u
    let seq := u.record.seq
    let s1 : State := { s with update := u.endSession }
    (s1.answer o .done 0 (leBytes 4 seq)).raiseWith evUpdConfirmed (leBytes 1 c.typ) [updKeep 2 c.typ seq]

def execUpdConfirm (e : Entry) (sig : Sig) (s : State) : Host.Outcome State Fault Refusal :=
  .next (s.command 0x1206 true true e (fun o s =>
    s.withToken o [0x08] (Entry.body e) sig (fun s => s.withSession o [4] (fun q s => s.confirm o q (Entry.body e)))))

/-- An abort that is accepted: staging freed, the free slot left unsealed (R354). -/
def State.abortUpdate (s : State) (o : Outstanding) (q : UpdSession) : State :=
  let typ := q.colophon.typ
  let u := s.update.setNand typ (s.update.freeSlotOf typ) .empty
  (({ s with update := u.endSession } : State).answer o .done 0 (leBytes 1 0)).recordBatch [updKeep 3 typ 0]

/-- `upd.abort` under a token that passed: from any session, for the type that the token names. -/
def State.abortToken (s : State) (o : Outstanding) (t : List Byte) : State :=
  match s.update.session with
  | none => s.answer o .state 0 []
  | some q =>
    if !([1, 2, 3] : List Nat).contains s.update.state then s.answer o .state 0 []
    else if fieldAt (tokBody t) 0 1 ≠ q.colophon.typ then s.answer o .auth 0 []
    else s.abortUpdate o q

def execUpdAbort (e : Entry) (sig : Sig) (s : State) : Host.Outcome State Fault Refusal :=
  .next (s.command 0x1207 true true e (fun o s =>
    if (Entry.body e).isEmpty then s.withSession o [1, 2, 3] (fun q s => s.abortUpdate o q)
    else s.withToken o [0x09] (Entry.body e) sig (fun s => s.abortToken o (Entry.body e))))

/-- 30 days without an accepted command: staging is freed and the state is 0; a trial does not expire (R352). -/
def execUpdExpired (s : State) : Host.Outcome State Fault Refusal :=
  match s.update.session with
  | some q =>
    if s.power.running ∧ s.host.stewardUp ∧ s.update.state ≠ 4 ∧ 2592000 ≤ s.update.idleS then
      .next (({ s with update := s.update.endSession } : State).raiseWith evUpdExpired (leBytes 1 q.colophon.typ)
        [updKeep 4 q.colophon.typ 0])
    else .next s
  | none => .next s

/-! ### Attestation (R362, R363) -/

/-- Slot whose image of a type runs: the lanes' slot for a forme, the booted slot otherwise. -/
def State.runningSlot (s : State) (typ : Nat) : Option Nat :=
  if typ = 2 then s.lanesSlot else some (nthD s.update.booted (typ - 1) 0)

/-- One entry of Table 17-9, for the image of a type that runs. -/
def State.attestEntry (s : State) (typ : Nat) : List Byte :=
  match s.runningSlot typ with
  | none => leBytes 80 0
  | some k =>
    match (s.update.nandSlot typ k).colophon with
    | none => leBytes 80 0
    | some c =>
      let r := s.update.record.entry typ
      let onTrial := r.trial == some k
      let digest := if typ = 2 then s.formeDigest else c.digest
      leBytes 4 c.version ++ leBytes 4 c.rollback ++ leBytes 4 r.floor ++ leBytes 1 (if onTrial then 2 else 1) ++ leBytes 1 k ++
      leBytes 1 (if onTrial then s.update.trialBoots else 0) ++ leBytes 1 0 ++ digestBytes digest

/-- The bytes 0x000 to 0x1BF of the report. -/
def State.attestReport (s : State) (nonce : List Byte) : List Byte :=
  leBytes 4 0x41585350 ++ leBytes 2 1 ++ leBytes 1 s.life.state.code ++
  leBytes 1 (ofMembers [s.trialRuns, s.update.session.isSome, s.platen.safe]) ++ leBytes 8 s.ident.serial ++
  leBytes 4 s.ident.part.toNat ++ leBytes 4 s.update.record.seq ++ nonce ++ leBytes 56 s.ident.x448Key.toNat ++
  [1, 2, 3, 4].flatMap s.attestEntry ++
  (if s.life.authority = 0 then leBytes 8 0 else (digestBytes (shake256 (leBytes 57 s.life.authority.toNat))).take 8) ++
  leBytes 8 s.life.installation

/-- `upd.attest`: the report is built, and signed meanwhile; a second one is `BUSY`. A failed crypto island signs nothing: `STATE`
(DESIGN CHOICE, log 36). -/
def State.attest (s : State) (o : Outstanding) (nonce : List Byte) : State :=
  if s.update.signing.isSome then s.answer o .busy 0 []
  else if s.power.cryptoDown then s.answer o .state 0 []
  else ({ s with update := { s.update with signing := some (o, s.attestReport nonce) } } : State).keep o

def execUpdAttest (e : Entry) (s : State) : Host.Outcome State Fault Refusal :=
  .next (s.command 0x1208 false true e (fun o s => if Entry.size e 32 then s.attest o ((Entry.body e).take 32) else s.badPayload o))

/-- The report goes out with its signature, and the next may be built. -/
def execReportSigned (s : State) : Host.Outcome State Fault Refusal :=
  match s.update.signing with
  | some p =>
    if s.power.running ∧ s.host.stewardUp ∧ !s.power.cryptoDown then
      .next (({ s with update := { s.update with signing := none } } : State).answerOut p.1 .done 0
        (p.2 ++ leBytes 114 (Config.signature p.2).toNat))
    else .next s
  | none => .next s

end Sys2Proof.Machine
end

