-- ==== Sys2Proof/Machine/RecorderRows.lean ====
section
/-! DEFINITION. The recorder as bytes (Tables 19-2, 19-3, R381 to R383) and its commands `rec.list`, `rec.read`, `rec.clear` and
`rec.status` (R387 to R391). -/

namespace Sys2Proof.Machine

/-! ### Items as bytes -/

def RecKind.kindCode : RecKind → Nat
  | .extreme _ _ => 2
  | _ => 1

/-- Histogram scheme, or value type of an extreme. -/
def RecKind.scheme : RecKind → Nat
  | .linear _ _ _ => 1
  | .log2 _ _ => 2
  | .category _ => 3
  | .extreme _ sgn => if sgn then 2 else 1

/-- Bins of a histogram or detail size of an extreme. -/
def RecKind.size : RecKind → Nat
  | .extreme d _ => d
  | k => k.bins

/-- Lower bound or exponent, and bin width. -/
def RecKind.scale : RecKind → Nat × Nat
  | .linear b w _ => (b, w)
  | .log2 b _ => (b, 0)
  | _ => (0, 0)

/-- Length of an item: 48 + 4n or 64 + 2d bytes. -/
def RecKind.itemBytes : RecKind → Nat
  | .extreme d _ => 64 + 2 * d
  | k => 48 + 4 * k.bins

/-- The item header with a seal. Table 19-2 names a source code for each item without giving the codes (log 2). -/
def recHeader (n : Nat) (sp : RecSpec) (seq : Nat) (seal' : Word32) : List Byte :=
  leBytes 2 n ++ leBytes 1 sp.kind.kindCode ++ leBytes 1 sp.kind.scheme ++ leBytes 2 sp.kind.size ++ leBytes 1 sp.unit ++
  leBytes 1 (if n = 0 then 1 else 0) ++ leBytes 4 (Config.recSource n).toNat ++ leBytes 4 sp.kind.scale.1 ++
  leBytes 4 sp.kind.scale.2 ++ leBytes 4 seal'.toNat ++ leBytes 8 seq

/-- A block of an extreme; an empty one has sequence 0. -/
def recBlockBytes (d : Nat) : Option (Int × Nat × List Byte) → List Byte
  | none => leBytes (16 + d) 0
  | some b => leBytes 8 (b.1 % 18446744073709551616).toNat ++ leBytes 8 b.2.1 ++ (b.2.2 ++ List.replicate d 0).take d

/-- The body of an item. -/
def RecItem.body (i : RecItem) : RecKind → List Byte
  | .extreme d _ => recBlockBytes d i.min ++ recBlockBytes d i.max
  | k => (List.range k.bins).flatMap (fun j => leBytes 4 (kvGetD i.bins j 0)) ++ leBytes 4 i.below ++ leBytes 4 i.above ++
      leBytes 8 i.total

/-- The seal: CRC-32C over the whole item with the seal field taken as 0. -/
def Recorder.sealOf (r : Recorder) (n : Nat) (sp : RecSpec) : Word32 :=
  crc32c (recHeader n sp (r.itemSeq n) 0 ++ (r.item n).body sp.kind)

/-- The header of an item, sealed. -/
def Recorder.headerBytes (r : Recorder) (n : Nat) (sp : RecSpec) : List Byte := recHeader n sp (r.itemSeq n) (r.sealOf n sp)

/-- A whole item. -/
def Recorder.itemBytes (r : Recorder) (n : Nat) : List Byte :=
  match recSpec n with
  | some sp => r.headerBytes n sp ++ (r.item n).body sp.kind
  | none => []

/-- Offset of an item: from 0x10000, one after the other (Table 19-1; DESIGN CHOICE, log 14). -/
def recOffset (n : Nat) : Nat :=
  ((recNumbers.filter (fun k => decide (k < n))).filterMap (fun k => (recSpec k).map (fun sp => sp.kind.itemBytes))).foldl (· + ·) 0x10000

/-! ### Reading -/

/-- Catalogue items of a range of numbers, the count clamped to the 15 360 item numbers (R390). -/
def recRange (first count : Nat) : List Nat :=
  recNumbers.filter (fun n => decide (first ≤ n) && decide (n < min (first + count) 15360))

/-- As many of the pieces as fit into so many bytes, none split. -/
def fitting : Nat → List (List Byte) → List (List Byte)
  | _, [] => []
  | room, b :: t => if b.length ≤ room then b :: fitting (room - b.length) t else []

/-- Number, offset and header of an item in `rec.list` (log 16). -/
def Recorder.listEntry (r : Recorder) (n : Nat) : List Byte :=
  match recSpec n with
  | some sp => leBytes 2 n ++ leBytes 2 0 ++ leBytes 4 (recOffset n) ++ r.headerBytes n sp
  | none => []

/-- The answer of `rec.list`: the number of entries, and the entries. -/
def Recorder.list (r : Recorder) (first count : Nat) : List Byte :=
  let l := fitting 4060 ((recRange first count).map r.listEntry)
  leBytes 2 l.length ++ leBytes 2 0 ++ l.flatten

def execRecList (e : Entry) (s : State) : Host.Outcome State Fault Refusal :=
  .next (s.command 0x1501 false true e (fun o s =>
    if Entry.size e 4 then s.answer o .done 0 (s.recorder.list (Entry.field e 0 2) (Entry.field e 2 2)) else s.badPayload o))

/-- The answer of `rec.read`: `REC.SEQ` before and after the copy, the number of items, the items as they stand after it. -/
def Recorder.readout (before after : Recorder) (first count : Nat) : List Byte :=
  let l := fitting 4060 ((recRange first count).map after.itemBytes)
  leBytes 8 before.seq ++ leBytes 8 after.seq ++ leBytes 2 l.length ++ leBytes 2 0 ++ l.flatten

/-- Batches that wait and are applied while the copy runs. -/
def State.applyBatches (s : State) : Nat → State
  | 0 => s
  | n + 1 => if s.recorder.clearing.isSome then s else s.applyBatch.applyBatches n

/-- `rec.read`, during whose copy so many of the waiting batches are applied (R387). -/
def execRecRead (e : Entry) (during : Nat) (s : State) : Host.Outcome State Fault Refusal :=
  .next (s.command 0x1502 false true e (fun o s =>
    if Entry.size e 4 then
      let t := s.applyBatches (min during s.recorder.pending.length)
      t.answer o .done 0 (s.recorder.readout t.recorder (Entry.field e 0 2) (Entry.field e 2 2))
    else s.badPayload o))

/-! ### Clearing (R388, R389) -/

/-- The window of R388. A clear under way counts as the last one (Table 19-6). -/
def Recorder.mayClear (r : Recorder) (s : Nat) : Bool :=
  let last := (r.clearing.map (·.c)).getD r.lastClear
  decide (last < s) && decide (s ≤ r.seq) && decide (r.seq - s < 1048576)

/-- `rec.clear` under a token that passed. -/
def State.recClear (s : State) (o : Outstanding) (t : List Byte) : State :=
  let at' := fieldAt (tokBody t) 0 8
  if s.recorder.mayClear at' then
    let c : RecClear := { c := s.recorder.seq + 1, s := at', tokenSeq := tokSeq t, key := tokIndex t, session := o.session, answer := o }
    ({ s with recorder := { s.recorder with clearing := some c } } : State).keep o
  else (s.answer o .state 0 []).raise evRecClearRefused (leBytes 8 at')

def execRecClear (e : Entry) (sig : Sig) (s : State) : Host.Outcome State Fault Refusal :=
  .next (s.command 0x1503 true true e (fun o s =>
    s.withToken o [0x0A] (Entry.body e) sig (fun s => s.recClear o (Entry.body e))))

/-- Every parameter of Table 19-8. -/
def execRecStatus (e : Entry) (s : State) : Host.Outcome State Fault Refusal :=
  .next (s.command 0x1504 false true e (fun o s =>
    s.answer o .done 0 (s.paramRange 0x1501 5)))

end Sys2Proof.Machine
end

