-- ==== Sys2Proof/Machine/PowerRows.lean ====
section
/-! DEFINITION. The power and reset supervisor (chapter 20): power-up and power failure (R392 to R396), reset (R397 to R399), the
always-on island (R394), faults of rails and clocks (R9, R401, R404), temperature and supply, `pwr.status` (R406), and the front
indicators (R411). -/

namespace Sys2Proof.Machine

def State.updPower (s : State) (f : Power → Power) : State := { s with power := f s.power }

/-! ### Power and reset -/

/-- Every die but the always-on island enters reset and its SRAM is lost; the off-time count runs (R39, R393, R398). -/
def State.diesReset (s : State) : State :=
  let t := s.stopAll
  { t with crc := [], power := { t.power with offCounting := true } }

/-- VS rises through 4.4 V: the start of every die, with cause 0x01 (R395, R396). -/
def State.powerUp (s : State) (f : StartFacts) : State :=
  (s.updPower (fun p => { p with powerups := sat32 p.powerups 1, vsMv := f.vsMv })).start f 0x01 true

/-- VS rises while the reset line is low: the sequence stops at step 1 and every other die stays in reset until the release (R405).
The island's contents are lost where it fell below its retention level (R394). -/
def State.powerUpHeld (s : State) (f : StartFacts) : State :=
  s.updPower (fun p => { p with powered := true, powerups := sat32 p.powerups 1, vsMv := f.vsMv, resets := sat32 p.resets 1,
                                laneHeld := .all false, islandValid := p.islandValid && f.islandValid,
                                resetStuck := p.resetStuck && f.islandValid })

def execPowerUp (f : StartFacts) (s : State) : Host.Outcome State Fault Refusal :=
  if s.power.powered then .next s
  else if s.power.resetHeld then .next (s.powerUpHeld f)
  else .next (s.powerUp f)

/-- PF: dies reset, supply gone. While reset is held the dies are in reset already, and the off time counts from its acceptance
(R405); the line stays low (log 39). -/
def State.powerFail (s : State) : State :=
  let t := if s.power.running then s.diesReset else s
  t.updPower (fun p => { p with powered := false, offCounting := true, pfs := sat32 p.pfs 1 })

def execPowerFail (s : State) : Host.Outcome State Fault Refusal :=
  if s.power.powered then .next s.powerFail else .next s

/-- An accepted reset (R397, R398): nothing masks it. -/
def State.acceptReset (s : State) : State :=
  s.diesReset.updPower (fun p => { p with resetHeld := true, laneHeld := .all false, resets := sat32 p.resets 1 })

/-- Without a supply the line is low all the same, and holds the next power-up (R405, log 39). -/
def execReset (s : State) : Host.Outcome State Fault Refusal :=
  if s.power.resetHeld then .next s
  else if s.power.powered then .next s.acceptReset
  else .next (s.updPower (fun p => { p with resetHeld := true }))

/-- Release: Table 20-2 from step 3, with cause 0x02, or 0x04 after a stuck reset (Table 20-8). -/
def execResetRelease (f : StartFacts) (s : State) : Host.Outcome State Fault Refusal :=
  if s.power.resetHeld then
    if s.power.powered then .next (s.start f (if s.power.resetStuck then 0x04 else 0x02) true)
    else .next (s.updPower (fun p => { p with resetHeld := false }))
  else .next s

/-- 20 s of continuous assertion set the latch; the module stays in reset (R399). -/
def execResetStuck (s : State) : Host.Outcome State Fault Refusal :=
  if s.power.powered ∧ s.power.resetHeld then .next (s.updPower (fun p => { p with resetStuck := true })) else .next s

/-! ### Supply, hold-up, temperature -/

/-- VS out of 4.5 to 40 V for 10 ms: an event, and the module runs on (R392). -/
def execVsRange (mv : Nat) (s : State) : Host.Outcome State Fault Refusal :=
  if s.power.running ∧ (mv < 4500 ∨ 40000 < mv) then
    .next ((s.updPower (fun p => { p with vsMv := mv })).raiseWith evVsRange (leBytes 4 mv) [recKeep 0x0A00 mv []])
  else .next s

/-- The supercapacitor holds the 30-minute capacity. -/
def execHoldupOk (mv : Nat) (s : State) : Host.Outcome State Fault Refusal :=
  if s.power.powered then .next (s.updPower (fun p => { p with holdupOk := true, holdupMv := mv })) else .next s

/-- `PWR.HOLDUP_OK` falls to 0. Lost while reset is held, the island's contents go with it: latch and off time (R405). -/
def State.holdupLow (s : State) (mv : Nat) : State :=
  let t := s.updPower (fun p => { p with holdupOk := false, holdupMv := mv })
  if s.power.resetHeld then t.updPower (fun p => { p with islandValid := false, resetStuck := false })
  else if s.power.running ∧ s.power.holdupOk then t.raiseWith evHoldupLow (leBytes 4 mv) [recKeep 0x0A01 mv []]
  else t

def execHoldupLow (mv : Nat) (s : State) : Host.Outcome State Fault Refusal :=
  if s.power.powered then .next (s.holdupLow mv) else .next s

/-- A die junction above 110 °C: an event and nothing else (R406). -/
def execTempHigh (die : Nat) (celsius : Nat) (s : State) : Host.Outcome State Fault Refusal :=
  if s.power.running ∧ 110 < celsius then
    .next ((s.updPower (fun p => { p with tempMax := celsius })).raiseWith evTempHigh (leBytes 1 die ++ leBytes 2 celsius)
      [recKeep 0x0A02 celsius []])
  else .next s

/-! ### Rails and clocks -/

/-- The supervisor holds one lane in reset; the platen finds its galley missing, and the other two lanes continue (R9, R401). While the module is in reset the lane stays
in reset after the release (R405). -/
def State.holdLane (s : State) (l : LaneId) : State :=
  if s.power.running then (s.updLane l LaneState.enterReset).laneLost
  else if s.power.resetHeld then s.updPower (fun p => { p with laneHeld := p.laneHeld.set l true })
  else s

def execLaneRailFault (l : LaneId) (s : State) : Host.Outcome State Fault Refusal := .next (s.holdLane l)

/-- The network die is held in reset and its ports are silent (R401); no strobe comes until its clock returns (R404). -/
def State.loseNetClock (s : State) : State :=
  { s with power := { s.power with netDown := true },
           net := { s.net with mode := .stopped, ports := s.net.ports.map Port.silence, txNext := none, copies := [] } }

/-- Cause of `ev.link_down` for a loss of code-group synchronisation (log 15). -/
def causeSync : Nat := 0

/-- A port whose recovered clock stops goes down (Table 12-3). -/
def State.rxClockLost (s : State) (p : PortId) : State :=
  match (s.net.ports.get p).mode with
  | .up => s.linkLost p causeSync
  | .down => s
  | _ => s.setPort p (fun q => { q with mode := .down })

/-- `ev.clock_fault` with the island code. -/
def State.clockEvent (s : State) (i : Island) : State := s.raise evClockFault (leBytes 1 i.code)

/-- The reaction of Table 20-5 while the module runs. -/
def State.clockFault (s : State) (i : Island) : State :=
  match i with
  | .alwaysOn => (s.updPower (fun p => { p with islandValid := false })).clockEvent i
  | .steward => s.stewardRestart.clockEvent i
  | .laneA => (s.holdLane .a).clockEvent i
  | .laneB => (s.holdLane .b).clockEvent i
  | .laneC => (s.holdLane .c).clockEvent i
  | .netTx => s.loseNetClock.clockEvent i
  | .rxXE => s.rxClockLost .xe
  | .rxXW => s.rxClockLost .xw
  | .rxYE => s.rxClockLost .ye
  | .rxYW => s.rxClockLost .yw
  | .pcie => (s.pcieReset false).clockEvent i
  | .maintEth => (({ s with host := { s.host with j1Up := false } } : State).closeSessions (·.udp)).clockEvent i
  | .fieldSide => (if s.fieldOn then s.loseField else s).clockEvent i
  | .crypto => (s.updPower (fun p => { p with cryptoDown := true })).clockEvent i

/-- What a fault of an island's clock does while the dies are in reset: lanes stay in reset, the always-on contents are lost. -/
def State.clockFaultHeld (s : State) (i : Island) : State :=
  match i with
  | .alwaysOn => s.updPower (fun p => { p with islandValid := false })
  | .laneA => s.holdLane .a
  | .laneB => s.holdLane .b
  | .laneC => s.holdLane .c
  | _ => s

def execClockFault (i : Island) (s : State) : Host.Outcome State Fault Refusal :=
  if s.power.running then .next (s.clockFault i) else .next (s.clockFaultHeld i)

/-- The network die leaves reset when its clock returns: it starts in links, with empty buffers. A safe state stays (R404). -/
def State.netClockBack (s : State) : State :=
  { s with
    power := { s.power with netDown := false },
    net := { s.net with
      mode := if s.net.engineBad then .stopped else .links, buffers := [], snapshot := [], copies := [], adopt := none, countKnown := false,
      netCycle := 0, minislot := 1, off := 0, rc := 0, dev := 0, prev := [], syncSeen := 0, good := 0, silent := 0, coldSent := 0,
      sinceRun := 0, sends := false, arrivals := [], waited := 0, tx := if s.platen.safe then s.restrictiveTx else [], txNext := none } }

def execNetworkClockReturn (s : State) : Host.Outcome State Fault Refusal :=
  if s.power.running ∧ s.power.netDown then .next s.netClockBack else .next s

/-! ### `pwr.status` -/

/-- Every parameter of Table 20-8. -/
def State.pwrReport (s : State) : List Byte := s.paramRange 0x1601 9 ++ s.paramRange 0x1610 14

def execPwrStatus (e : Entry) (s : State) : Host.Outcome State Fault Refusal :=
  .next (s.command 0x1601 false true e (fun o s =>
    s.answer o .done 0 s.pwrReport))

/-! ### Front indicators (Table 21-5) -/

inductive Colour where
  | green | amber | red
  deriving DecidableEq, Repr

/-- What an indicator shows: flashing is 2 Hz, slow flashing 0.5 Hz. -/
inductive Light where
  | off
  | steady (c : Colour)
  | flashing (c : Colour)
  | slow (c : Colour)
  deriving DecidableEq, Repr

def State.lightPwr (s : State) : Light :=
  if !s.power.powered then .off
  else if s.power.resetHeld then .steady .amber
  else if !s.power.holdupOk then .slow .green
  else if s.power.running then .steady .green
  else .off

def State.lightSafe (s : State) : Light := if s.safeLow then .steady .red else .off

def State.lightLane (s : State) (l : LaneId) : Light :=
  if !s.power.running then .off
  else match s.platen.lanes.get l with
    | .excluded => .steady .red
    | .isolated => .flashing .green
    | .inService _ => if s.unusable (1 + l.num) then .steady .red else .steady .green

/-- Every port is up. -/
def State.allUp (s : State) : Bool := PortId.all.all (fun p => (s.net.ports.get p).mode == .up)

def State.lightNet (s : State) : Light :=
  if !s.power.running then .off
  else match s.net.mode with
  | .stopped => if s.allUp then .off else .steady .amber
  | .running => if s.allUp then .steady .green else .steady .amber
  | _ => .flashing .amber

def State.lightMst (s : State) : Light :=
  if s.masterRunning then .steady .green else if s.power.running ∧ s.dupRole = 2 then .slow .green else .off

def State.lightLcs (s : State) : Light :=
  if !s.power.running then .off
  else match s.life.state with
  | .operation => .off
  | .commissioning => .steady .amber
  | .maintenance => .steady .amber
  | .manufacture => .flashing .amber
  | .retired => .steady .red

def State.lightUpd (s : State) : Light := if s.power.running ∧ (s.update.session.isSome ∨ s.trialRuns) then .flashing .amber else .off

end Sys2Proof.Machine
end

