-- ==== Sys2Proof/Machine/Dispatch.lean ====
section
/-! DEFINITION. One arm per command: the direct call of its meaning. -/

namespace Sys2Proof.Machine

open Sys2Proof

def exec (i : Instr) (s : State) : Host.Outcome State Fault Refusal :=
  match i with
  | .powerUp f => Sys2Proof.Machine.execPowerUp f s
  | .powerFail => Sys2Proof.Machine.execPowerFail s
  | .vsRange mv => Sys2Proof.Machine.execVsRange mv s
  | .reset => Sys2Proof.Machine.execReset s
  | .resetRelease f => Sys2Proof.Machine.execResetRelease f s
  | .resetStuck => Sys2Proof.Machine.execResetStuck s
  | .holdupOk mv => Sys2Proof.Machine.execHoldupOk mv s
  | .holdupLow mv => Sys2Proof.Machine.execHoldupLow mv s
  | .clockFault i0 => Sys2Proof.Machine.execClockFault i0 s
  | .laneRailFault l => Sys2Proof.Machine.execLaneRailFault l s
  | .tempHigh die celsius => Sys2Proof.Machine.execTempHigh die celsius s
  | .cdcTimeout i0 x => Sys2Proof.Machine.execCdcTimeout i0 x s
  | .strobeTimeout l => Sys2Proof.Machine.execStrobeTimeout l s
  | .cycleStrobe x => Sys2Proof.Machine.execCycleStrobe x s
  | .quoinScrubFault l row => Sys2Proof.Machine.execQuoinScrubFault l row s
  | .timerExpiry t => Sys2Proof.Machine.execTimerExpiry t s
  | .approachLockExpiry r => Sys2Proof.Machine.execApproachLockExpiry r s
  | .overlapReleaseExpiry o => Sys2Proof.Machine.execOverlapReleaseExpiry o s
  | .routeStalled r => Sys2Proof.Machine.execRouteStalled r s
  | .pointStroke p => Sys2Proof.Machine.execPointStroke p s
  | .pointLost p => Sys2Proof.Machine.execPointLost p s
  | .signalM0Restore g => Sys2Proof.Machine.execSignalM0Restore g s
  | .sweepTimeout n => Sys2Proof.Machine.execSweepTimeout n s
  | .warningTimeExpiry x => Sys2Proof.Machine.execWarningTimeExpiry x s
  | .crossingFail x => Sys2Proof.Machine.execCrossingFail x s
  | .crossingLightsRestored x => Sys2Proof.Machine.execCrossingLightsRestored x s
  | .openingLoweringExpiry x => Sys2Proof.Machine.execOpeningLoweringExpiry x s
  | .guardDiscrepancy f => Sys2Proof.Machine.execGuardDiscrepancy f s
  | .guardFeedback f => Sys2Proof.Machine.execGuardFeedback f s
  | .standstillProven f => Sys2Proof.Machine.execStandstillProven f s
  | .simultaneityExpiry f => Sys2Proof.Machine.execSimultaneityExpiry f s
  | .auxWindowExpiry authority => Sys2Proof.Machine.execAuxWindowExpiry authority s
  | .auxNotCounted authority => Sys2Proof.Machine.execAuxNotCounted authority s
  | .evaluationDeadline late => Sys2Proof.Machine.execEvaluationDeadline late s
  | .overrunLimit late => Sys2Proof.Machine.execOverrunLimit late s
  | .galleyReceived copy lane bad => Sys2Proof.Machine.execGalleyReceived copy lane bad s
  | .galleyWindowClose copy => Sys2Proof.Machine.execGalleyWindowClose copy s
  | .permitExpiry l item => Sys2Proof.Machine.execPermitExpiry l item s
  | .gateDriveLoss l => Sys2Proof.Machine.execGateDriveLoss l s
  | .cycleClose => Sys2Proof.Machine.execCycleClose s
  | .exchangeCycle x failed => Sys2Proof.Machine.execExchangeCycle x failed s
  | .inServiceProofRequest => Sys2Proof.Machine.execInServiceProofRequest s
  | .proofDeferred => Sys2Proof.Machine.execProofDeferred s
  | .laneIsolation => Sys2Proof.Machine.execLaneIsolation s
  | .proofComplete r => Sys2Proof.Machine.execProofComplete r s
  | .proofTimeout r => Sys2Proof.Machine.execProofTimeout r s
  | .laneRejoin x => Sys2Proof.Machine.execLaneRejoin x s
  | .darkTestOutput vo d => Sys2Proof.Machine.execDarkTestOutput vo d s
  | .darkTestBankPath bank path conducting => Sys2Proof.Machine.execDarkTestBankPath bank path conducting s
  | .externalEnergyProcedure bank => Sys2Proof.Machine.execExternalEnergyProcedure bank s
  | .axleSequence even p => Sys2Proof.Machine.execAxleSequence even p s
  | .wireBreak channel => Sys2Proof.Machine.execWireBreak channel s
  | .fieldSupplyOutOfRange bank mv => Sys2Proof.Machine.execFieldSupplyOutOfRange bank mv s
  | .fieldSupplyInRange bank mv => Sys2Proof.Machine.execFieldSupplyInRange bank mv s
  | .outputOverload vital channel => Sys2Proof.Machine.execOutputOverload vital channel s
  | .thermalRetry wholeBank n => Sys2Proof.Machine.execThermalRetry wholeBank n s
  | .bankOverload bank => Sys2Proof.Machine.execBankOverload bank s
  | .fieldLink => Sys2Proof.Machine.execFieldLink s
  | .linkSyncAcquired p => Sys2Proof.Machine.execLinkSyncAcquired p s
  | .autoNegotiation p page => Sys2Proof.Machine.execAutoNegotiation p page s
  | .linkQualification p q => Sys2Proof.Machine.execLinkQualification p q s
  | .linkDown p cause => Sys2Proof.Machine.execLinkDown p cause s
  | .linkRetry p => Sys2Proof.Machine.execLinkRetry p s
  | .staticSlotTransmit slot devs => Sys2Proof.Machine.execStaticSlotTransmit slot devs s
  | .minislot heard => Sys2Proof.Machine.execMinislot heard s
  | .frameReceive p f => Sys2Proof.Machine.execFrameReceive p f s
  | .receiveBufferUpdate entry => Sys2Proof.Machine.execReceiveBufferUpdate entry s
  | .networkCycleBoundary => Sys2Proof.Machine.execNetworkCycleBoundary s
  | .kern missed => Sys2Proof.Machine.execKern missed s
  | .noSync => Sys2Proof.Machine.execNoSync s
  | .guardianTrip p => Sys2Proof.Machine.execGuardianTrip p s
  | .listenTimeout => Sys2Proof.Machine.execListenTimeout s
  | .coldstart heard => Sys2Proof.Machine.execColdstart heard s
  | .backoffExpiry => Sys2Proof.Machine.execBackoffExpiry s
  | .integrationComplete => Sys2Proof.Machine.execIntegrationComplete s
  | .nodeLost entry => Sys2Proof.Machine.execNodeLost entry s
  | .endChange e => Sys2Proof.Machine.execEndChange e s
  | .stopFrame p f => Sys2Proof.Machine.execStopFrame p f s
  | .sweepSend => Sys2Proof.Machine.execSweepSend s
  | .sweepFrame p f => Sys2Proof.Machine.execSweepFrame p f s
  | .resultFrame p f => Sys2Proof.Machine.execResultFrame p f s
  | .noAgree => Sys2Proof.Machine.execNoAgree s
  | .inaugurationTimeout => Sys2Proof.Machine.execInaugurationTimeout s
  | .trainFailRetry => Sys2Proof.Machine.execTrainFailRetry s
  | .trainProofRequest => Sys2Proof.Machine.execTrainProofRequest s
  | .refereeDecide => Sys2Proof.Machine.execRefereeDecide s
  | .markAccepted => Sys2Proof.Machine.execMarkAccepted s
  | .dupColdTakeover f => Sys2Proof.Machine.execDupColdTakeover f s
  | .dupSwitchBackFail => Sys2Proof.Machine.execDupSwitchBackFail s
  | .ilkRouteSet e => Sys2Proof.Machine.execIlkRouteSet e s
  | .ilkRouteCancel e => Sys2Proof.Machine.execIlkRouteCancel e s
  | .ilkRouteReclear e => Sys2Proof.Machine.execIlkRouteReclear e s
  | .elmPointMove e => Sys2Proof.Machine.execElmPointMove e s
  | .elmBlockSet e => Sys2Proof.Machine.execElmBlockSet e s
  | .ilkAuxStage e => Sys2Proof.Machine.execIlkAuxStage e s
  | .ilkAuxWithdraw e => Sys2Proof.Machine.execIlkAuxWithdraw e s
  | .ilkAuxCounters e => Sys2Proof.Machine.execIlkAuxCounters e s
  | .ilkExchangePrepare e => Sys2Proof.Machine.execIlkExchangePrepare e s
  | .formeLoad image sigs faults => Sys2Proof.Machine.execFormeLoad image sigs faults s
  | .exchangePrepared => Sys2Proof.Machine.execExchangePrepared s
  | .ilkExchangeCommit e => Sys2Proof.Machine.execIlkExchangeCommit e s
  | .ilkExchangeAbort e => Sys2Proof.Machine.execIlkExchangeAbort e s
  | .ilkExchangeStatus e => Sys2Proof.Machine.execIlkExchangeStatus e s
  | .ilkForceSet e sig => Sys2Proof.Machine.execIlkForceSet e sig s
  | .ilkForceClear e => Sys2Proof.Machine.execIlkForceClear e s
  | .ilkForceList e => Sys2Proof.Machine.execIlkForceList e s
  | .fldBlockClear e sig => Sys2Proof.Machine.execFldBlockClear e sig s
  | .motStatus e => Sys2Proof.Machine.execMotStatus e s
  | .grdStatus e => Sys2Proof.Machine.execGrdStatus e s
  | .sysRestart e f => Sys2Proof.Machine.execSysRestart e f s
  | .sysParamGet e => Sys2Proof.Machine.execSysParamGet e s
  | .sysParamSet e => Sys2Proof.Machine.execSysParamSet e s
  | .sysIdentify e => Sys2Proof.Machine.execSysIdentify e s
  | .netStart e => Sys2Proof.Machine.execNetStart e s
  | .netStop e => Sys2Proof.Machine.execNetStop e s
  | .netStatus e => Sys2Proof.Machine.execNetStatus e s
  | .netCounters e => Sys2Proof.Machine.execNetCounters e s
  | .trnStatus e => Sys2Proof.Machine.execTrnStatus e s
  | .trnComposition e => Sys2Proof.Machine.execTrnComposition e s
  | .trnInaugurate e => Sys2Proof.Machine.execTrnInaugurate e s
  | .dupStatus e => Sys2Proof.Machine.execDupStatus e s
  | .dupSwitchBack e sig => Sys2Proof.Machine.execDupSwitchBack e sig s
  | .hstSessionOpen e => Sys2Proof.Machine.execHstSessionOpen e s
  | .hstSessionProve e sig => Sys2Proof.Machine.execHstSessionProve e sig s
  | .hstSessionClose e => Sys2Proof.Machine.execHstSessionClose e s
  | .hstSessionList e => Sys2Proof.Machine.execHstSessionList e s
  | .hstPortRestart e => Sys2Proof.Machine.execHstPortRestart e s
  | .pendingSessionExpiry session => Sys2Proof.Machine.execPendingSessionExpiry session s
  | .authLockoutEnd udp => Sys2Proof.Machine.execAuthLockoutEnd udp s
  | .sessionIdleExpiry session => Sys2Proof.Machine.execSessionIdleExpiry session s
  | .crcOpen e => Sys2Proof.Machine.execCrcOpen e s
  | .crcFeed e => Sys2Proof.Machine.execCrcFeed e s
  | .crcRead e => Sys2Proof.Machine.execCrcRead e s
  | .crcWrite e => Sys2Proof.Machine.execCrcWrite e s
  | .crcClose e => Sys2Proof.Machine.execCrcClose e s
  | .brgStart e => Sys2Proof.Machine.execBrgStart e s
  | .brgStop e => Sys2Proof.Machine.execBrgStop e s
  | .brgStatus e => Sys2Proof.Machine.execBrgStatus e s
  | .brgPollStatus e => Sys2Proof.Machine.execBrgPollStatus e s
  | .updBegin e helfinor approval unwraps => Sys2Proof.Machine.execUpdBegin e helfinor approval unwraps s
  | .updChunk e tagOk => Sys2Proof.Machine.execUpdChunk e tagOk s
  | .updStatus e => Sys2Proof.Machine.execUpdStatus e s
  | .updVerify e => Sys2Proof.Machine.execUpdVerify e s
  | .verificationComplete digest chunks => Sys2Proof.Machine.execVerificationComplete digest chunks s
  | .updActivate e f => Sys2Proof.Machine.execUpdActivate e f s
  | .updConfirm e sig => Sys2Proof.Machine.execUpdConfirm e sig s
  | .updAbort e sig => Sys2Proof.Machine.execUpdAbort e sig s
  | .updAttest e => Sys2Proof.Machine.execUpdAttest e s
  | .updExpired => Sys2Proof.Machine.execUpdExpired s
  | .lcsTransition e sig => Sys2Proof.Machine.execLcsTransition e sig s
  | .lcsKeyWrite e sig => Sys2Proof.Machine.execLcsKeyWrite e sig s
  | .lcsStatus e => Sys2Proof.Machine.execLcsStatus e s
  | .prfRun e => Sys2Proof.Machine.execPrfRun e s
  | .prfResult e => Sys2Proof.Machine.execPrfResult e s
  | .recList e => Sys2Proof.Machine.execRecList e s
  | .recRead e during => Sys2Proof.Machine.execRecRead e during s
  | .recClear e sig => Sys2Proof.Machine.execRecClear e sig s
  | .recStatus e => Sys2Proof.Machine.execRecStatus e s
  | .recorderBatch => Sys2Proof.Machine.execRecorderBatch s
  | .pwrStatus e => Sys2Proof.Machine.execPwrStatus e s
  | .queueStall e => Sys2Proof.Machine.execQueueStall e s
  | .qProdWrite queue v unknown => Sys2Proof.Machine.execQProdWrite queue v unknown s
  | .qConsWrite queue v => Sys2Proof.Machine.execQConsWrite queue v s
  | .qCfgWrite queue v => Sys2Proof.Machine.execQCfgWrite queue v s
  | .stewardCtrlRestart v backplane => Sys2Proof.Machine.execStewardCtrlRestart v backplane s
  | .cdcStatusClear v => Sys2Proof.Machine.execCdcStatusClear v s
  | .cycleCountRead stopped => Sys2Proof.Machine.execCycleCountRead stopped s
  | .registerWrite offset v enables high => Sys2Proof.Machine.execRegisterWrite offset v enables high s
  | .reservedAccess offset write wide => Sys2Proof.Machine.execReservedAccess offset write wide s
  | .msixVectorUnmask vector => Sys2Proof.Machine.execMsixVectorUnmask vector s
  | .pcieReset linkStays => Sys2Proof.Machine.execPcieReset linkStays s
  | .linkTraining partnerGen2 => Sys2Proof.Machine.execLinkTraining partnerGen2 s
  | .udpDatagram bytes opcode e => Sys2Proof.Machine.execUdpDatagram bytes opcode e s
  | .arpRequest target => Sys2Proof.Machine.execArpRequest target s
  | .icmpEcho target data => Sys2Proof.Machine.execIcmpEcho target data s
  | .ipReassemblyTimeout id => Sys2Proof.Machine.execIpReassemblyTimeout id s
  | .tunnelTransmitEntry channel e => Sys2Proof.Machine.execTunnelTransmitEntry channel e s
  | .tunnelSegment g => Sys2Proof.Machine.execTunnelSegment g s
  | .peerReset g => Sys2Proof.Machine.execPeerReset g s
  | .creditReport channel peer => Sys2Proof.Machine.execCreditReport channel peer s
  | .brgReasmTimeout channel peer => Sys2Proof.Machine.execBrgReasmTimeout channel peer s
  | .readTimeout tag => Sys2Proof.Machine.execReadTimeout tag s
  | .brgWriteError tag detail => Sys2Proof.Machine.execBrgWriteError tag detail s
  | .brgDiscard channel => Sys2Proof.Machine.execBrgDiscard channel s
  | .telegramReceive port t => Sys2Proof.Machine.execTelegramReceive port t s
  | .telegramGap port => Sys2Proof.Machine.execTelegramGap port s
  | .sideBandPoll slot block => Sys2Proof.Machine.execSideBandPoll slot block s
  | .busMasterEnableChange enabled d0 => Sys2Proof.Machine.execBusMasterEnableChange enabled d0 s
  | .networkClockReturn => Sys2Proof.Machine.execNetworkClockReturn s
  | .checkpointSeal l => Sys2Proof.Machine.execCheckpointSeal l s
  | .telegramSent port => Sys2Proof.Machine.execTelegramSent port s
  | .frequencyPulse channel pulse miss => Sys2Proof.Machine.execFrequencyPulse channel pulse miss s
  | .recorderClearComplete => Sys2Proof.Machine.execRecorderClearComplete s
  | .stewardBack => Sys2Proof.Machine.execStewardBack s
  | .reportSigned => Sys2Proof.Machine.execReportSigned s

end Sys2Proof.Machine
end

