-- ==== Sys2Proof/WellFormed.lean ====
section
/-! DEFINITION. Which commands can exist at all: numbers within the widths and counts that the spec gives them. Every command has its
effect whether it is well-formed or not; the check is for statements that need the widths. -/

namespace Sys2Proof

/-- n fits b bits. -/
def fits (b n : Nat) : Bool := decide (n < 2 ^ b)

/-- Table 15-10: field widths, and as many payload bytes as the length field says. -/
def Entry.wf (e : Entry) : Bool :=
  fits 4 e.queue && fits 16 e.tag && fits 16 e.length && fits 8 e.flags && fits 8 e.target && fits 16 e.session &&
  decide (e.length ≤ e.payload.length) && fits 32 e.srcAddr && fits 16 e.srcPort

/-- A forme image: cells in rising order inside its length, none of them zero. -/
def Image.wf (m : Image) : Bool :=
  m.cells.all (fun p => decide (p.1 < m.len) && p.2 != 0) && decide (m.cells.Pairwise (fun a b => a.1 < b.1))

/-- Table 18-6: block code and counts. -/
def ProofReading.wf (r : ProofReading) : Bool := fits 16 r.block && fits 32 r.applied && fits 32 r.expected && r.checks.all (fits 64)

/-- Table 20-2: five address pins, slots of the four image types. -/
def StartFacts.wf (f : StartFacts) : Bool :=
  fits 5 f.ga && f.failing.all ProofReading.wf && f.badSlots.all (fun p => decide (1 ≤ p.1) && decide (p.1 ≤ 4) && decide (p.2 < 2)) &&
  f.badHalves.all (fun p => decide (p.2 < 2)) && f.badItems.all (fits 16) && f.badBoot.all (fits 1) && f.badLife.all (fits 1) && Image.wf f.image

/-- Channels, outputs, banks and switches that exist on the larger variant (Table 10-1). -/
def Sample.wf (x : Sample) : Bool :=
  x.inputsOn.all (fits 5) && x.voOn.all (fits 4) && x.voMa.all (fun p => fits 4 p.1) &&
  x.railOn.all (fun b => b == 4 || b == 5) && x.lineUa.all (fun p => fits 4 p.1) &&
  x.stuckOpen.all (fun p => decide (p.1 < 18) && decide (p.2 < 6)) && x.corrupt.all (fun p => fits 18 p.2.1) &&
  x.mramWrites.all (fun w => decide (w.1 < 4) && fits 32 w.2.2) && x.wrong.all (fun p => fits 14 p.2.1) &&
  x.emitted.all (fun p => fits 14 p.2.1) && x.levels.all (fun p => fits 5 p.1) && x.supplyMv.all (fun p => decide (p.1 < 6) && fits 32 p.2) &&
  x.restarted.all (fits 16)

/-- Table 12-6. -/
def Frame.wf (f : Frame) : Bool :=
  fits 8 f.typ && fits 8 f.version && fits 8 f.flags && fits 16 f.slot && fits 16 f.sender && fits 8 f.length && fits 8 f.netCycle &&
  fits 32 f.count && fits 8 f.phase && fits 16 f.tag && decide (f.payload.length ≤ 1020)

def QualResult.wf (q : QualResult) : Bool :=
  q.stamps.all (fun x => fits 32 x.received && fits 32 x.echoed && fits 32 x.turnaround) && fits 2 q.partnerPort && fits 16 q.partnerNode && fits 16 q.bypass

/-- Table 16-1. -/
def TunnelEntry.wf (e : TunnelEntry) : Bool :=
  fits 16 e.typ && fits 16 e.tag && fits 16 e.length && fits 16 e.peer && fits 8 e.port && fits 32 e.addr &&
  decide (e.length ≤ e.payload.length)

/-- Table 16-3. -/
def Segment.wf (g : Segment) : Bool :=
  fits 16 g.sender && fits 8 g.kind && fits 3 g.channel && fits 16 g.dest && fits 16 g.tag && fits 1 g.index && fits 3 g.creditChannel &&
  fits 8 g.consumed && fits 8 g.detail && decide (g.data.length ≤ 1008)

def Telegram.wf (t : Telegram) : Bool := fits 8 t.address && fits 8 t.length && decide (t.data.length ≤ 255)

/-- A command within the widths of its operands. -/
def Instr.wf : Instr → Bool
  | .powerUp f => f.wf
  | .powerFail => true
  | .vsRange mv => fits 32 mv
  | .reset => true
  | .resetRelease f => f.wf
  | .resetStuck => true
  | .holdupOk mv => fits 32 mv
  | .holdupLow mv => fits 32 mv
  | .clockFault _ => true
  | .laneRailFault _ => true
  | .tempHigh die c => fits 8 die && fits 16 c
  | .cdcTimeout _ x => match x with
    | .value => true
    | .laneWord _ w => fits 18 w
    | .event n => fits 8 n
    | .doorbell q => fits 6 q
    | .guardian _ => true
  | .strobeTimeout _ => true
  | .cycleStrobe x => x.wf
  | .quoinScrubFault _ row => fits 16 row
  | .timerExpiry t => fits 15 t
  | .approachLockExpiry r => fits 15 r
  | .overlapReleaseExpiry o => fits 14 o
  | .routeStalled r => fits 15 r
  | .pointStroke p => fits 11 p
  | .pointLost p => fits 11 p
  | .signalM0Restore g => fits 12 g
  | .sweepTimeout n => fits 13 n
  | .warningTimeExpiry x => fits 8 x
  | .crossingFail x => fits 8 x
  | .crossingLightsRestored x => fits 8 x
  | .openingLoweringExpiry x => fits 8 x
  | .guardDiscrepancy f => fits 10 f
  | .guardFeedback f => fits 10 f
  | .standstillProven f => fits 10 f
  | .simultaneityExpiry f => fits 10 f
  | .auxWindowExpiry a => fits 3 a
  | .auxNotCounted a => fits 3 a
  | .evaluationDeadline late => decide (late.length ≤ 3)
  | .overrunLimit late => decide (late.length ≤ 3)
  | .galleyReceived _ _ bad => bad.all (fun p => fits 14 p.1)
  | .galleyWindowClose _ => true
  | .permitExpiry _ item => decide (item < 18)
  | .gateDriveLoss _ => true
  | .cycleClose => true
  | .exchangeCycle x failed => x.wf && decide (failed.length ≤ 3)
  | .inServiceProofRequest => true
  | .proofDeferred => true
  | .laneIsolation => true
  | .proofComplete r => r.wf
  | .proofTimeout r => r.wf
  | .laneRejoin x => x.wf
  | .darkTestOutput vo d => fits 4 vo && d.conducting.all (fun k => decide (k < 6)) && d.othersOff.all (fits 4)
  | .darkTestBankPath bank path c => (bank == 4 || bank == 5) && decide (path < 3) && c.all (fun k => decide (k < 6))
  | .externalEnergyProcedure bank => bank == 4 || bank == 5
  | .axleSequence even _ => fits 5 even && even % 2 == 0
  | .wireBreak ch => fits 4 ch
  | .fieldSupplyOutOfRange bank mv => decide (bank < 6) && fits 32 mv
  | .fieldSupplyInRange bank mv => decide (bank < 6) && fits 32 mv
  | .outputOverload vital ch => fits (if vital then 4 else 5) ch
  | .thermalRetry bank n => fits (if bank then 2 else 5) n
  | .bankOverload bank => decide (bank < 6)
  | .fieldLink => true
  | .linkSyncAcquired _ => true
  | .autoNegotiation _ page => fits 2 page.remoteFault && fits 2 page.pause
  | .linkQualification _ q => q.wf
  | .linkDown _ cause => fits 8 cause
  | .linkRetry _ => true
  | .staticSlotTransmit slot _ => fits 10 slot
  | .minislot heard => heard.all (fits 16)
  | .frameReceive _ f => f.wf
  | .receiveBufferUpdate entry => fits 13 entry
  | .networkCycleBoundary => true
  | .kern _ => true
  | .noSync => true
  | .guardianTrip _ => true
  | .listenTimeout => true
  | .coldstart heard => match heard with
    | .lowerIdentity node netCycle => fits 16 node && fits 8 netCycle
    | _ => true
  | .backoffExpiry => true
  | .integrationComplete => true
  | .nodeLost entry => fits 13 entry
  | .endChange e => e == 1 || e == 2
  | .stopFrame _ f => f.wf
  | .sweepSend => true
  | .sweepFrame _ f => f.wf
  | .resultFrame _ f => f.wf
  | .noAgree => true
  | .inaugurationTimeout => true
  | .trainFailRetry => true
  | .trainProofRequest => true
  | .refereeDecide => true
  | .markAccepted => true
  | .dupColdTakeover f => f.wf
  | .dupSwitchBackFail => true
  | .ilkRouteSet e => e.wf
  | .ilkRouteCancel e => e.wf
  | .ilkRouteReclear e => e.wf
  | .elmPointMove e => e.wf
  | .elmBlockSet e => e.wf
  | .ilkAuxStage e => e.wf
  | .ilkAuxWithdraw e => e.wf
  | .ilkAuxCounters e => e.wf
  | .ilkExchangePrepare e => e.wf
  | .formeLoad image _ _ => image.wf
  | .exchangePrepared => true
  | .ilkExchangeCommit e => e.wf
  | .ilkExchangeAbort e => e.wf
  | .ilkExchangeStatus e => e.wf
  | .ilkForceSet e _ => e.wf
  | .ilkForceClear e => e.wf
  | .ilkForceList e => e.wf
  | .fldBlockClear e _ => e.wf
  | .motStatus e => e.wf
  | .grdStatus e => e.wf
  | .sysRestart e f => e.wf && f.wf
  | .sysParamGet e => e.wf
  | .sysParamSet e => e.wf
  | .sysIdentify e => e.wf
  | .netStart e => e.wf
  | .netStop e => e.wf
  | .netStatus e => e.wf
  | .netCounters e => e.wf
  | .trnStatus e => e.wf
  | .trnComposition e => e.wf
  | .trnInaugurate e => e.wf
  | .dupStatus e => e.wf
  | .dupSwitchBack e _ => e.wf
  | .hstSessionOpen e => e.wf
  | .hstSessionProve e _ => e.wf
  | .hstSessionClose e => e.wf
  | .hstSessionList e => e.wf
  | .hstPortRestart e => e.wf
  | .pendingSessionExpiry n => fits 16 n
  | .authLockoutEnd _ => true
  | .sessionIdleExpiry n => fits 16 n
  | .crcOpen e => e.wf
  | .crcFeed e => e.wf
  | .crcRead e => e.wf
  | .crcWrite e => e.wf
  | .crcClose e => e.wf
  | .brgStart e => e.wf
  | .brgStop e => e.wf
  | .brgStatus e => e.wf
  | .brgPollStatus e => e.wf
  | .updBegin e _ _ _ => e.wf
  | .updChunk e _ => e.wf
  | .updStatus e => e.wf
  | .updVerify e => e.wf
  | .verificationComplete _ c => c.reads.all (fun p => fits 14 p.1 && decide (p.2.length ≤ 4120)) && c.badTag.all (fits 14)
  | .updActivate e f => e.wf && f.wf
  | .updConfirm e _ => e.wf
  | .updAbort e _ => e.wf
  | .updAttest e => e.wf
  | .updExpired => true
  | .lcsTransition e _ => e.wf
  | .lcsKeyWrite e _ => e.wf
  | .lcsStatus e => e.wf
  | .prfRun e => e.wf
  | .prfResult e => e.wf
  | .recList e => e.wf
  | .recRead e during => e.wf && decide (during ≤ 64)
  | .recClear e _ => e.wf
  | .recStatus e => e.wf
  | .recorderBatch => true
  | .pwrStatus e => e.wf
  | .queueStall e => e.wf
  | .qProdWrite q _ unknown => fits 6 q && unknown.all (fun p => fits 16 p.1 && p.2.wf)
  | .qConsWrite q _ => fits 6 q
  | .qCfgWrite q _ => fits 6 q
  | .stewardCtrlRestart _ _ => true
  | .cdcStatusClear _ => true
  | .cycleCountRead _ => true
  | .registerWrite off _ enables high => fits 16 off && off % 4 == 0 && fits (if high.isSome then 8 else 4) enables
  | .reservedAccess off _ _ => fits 16 off && off % 4 == 0
  | .msixVectorUnmask v => fits 5 v
  | .pcieReset _ => true
  | .linkTraining _ => true
  | .udpDatagram bytes op e => fits 16 bytes && fits 16 op && e.wf
  | .arpRequest t => fits 32 t
  | .icmpEcho t data => fits 32 t && decide (data.length ≤ 65507)
  | .ipReassemblyTimeout id => fits 16 id
  | .tunnelTransmitEntry ch e => fits 3 ch && e.wf
  | .tunnelSegment g => g.wf
  | .peerReset g => g.wf
  | .creditReport ch peer => fits 3 ch && fits 16 peer
  | .brgReasmTimeout ch peer => fits 3 ch && fits 16 peer
  | .readTimeout tag => fits 16 tag
  | .brgWriteError tag detail => fits 16 tag && fits 8 detail
  | .brgDiscard ch => fits 3 ch
  | .telegramReceive port t => fits 1 port && t.wf
  | .telegramGap port => fits 1 port
  | .sideBandPoll slot block => fits 6 slot && block.all (fun b => decide (b.length ≤ 64))
  | .busMasterEnableChange _ _ => true
  | .networkClockReturn => true
  | .checkpointSeal _ => true
  | .telegramSent port => fits 1 port
  | .frequencyPulse ch _ _ => fits 5 ch
  | .recorderClearComplete => true
  | .stewardBack => true
  | .reportSigned => true

end Sys2Proof
end

