-- ==== Sys2Proof/Safety.lean ====
section
/-! DEFINITION. The terms that statements use: which rows are mailbox commands and with which opcode (Table 15-15), which rows start the
module (Table 20-2), which rows come from the host's registers and transports, the limits of R36, R310 and R317, the order of the
recorder's numbers, and what an outputs-open module is. -/

namespace Sys2Proof

/-- Opcode, whether the command needs an open session over PCIe and over UDP (R310, R314), and the entry, of a mailbox command. -/
def Instr.mailbox : Instr → Option (Nat × Bool × Bool × Entry)
  | .ilkRouteSet e => some (0x0601, true, true, e)
  | .ilkRouteCancel e => some (0x0602, true, true, e)
  | .ilkRouteReclear e => some (0x0603, true, true, e)
  | .elmPointMove e => some (0x0801, true, true, e)
  | .elmBlockSet e => some (0x0802, true, true, e)
  | .ilkAuxStage e => some (0x0620, true, true, e)
  | .ilkAuxWithdraw e => some (0x0621, true, true, e)
  | .ilkAuxCounters e => some (0x0622, true, true, e)
  | .ilkExchangePrepare e => some (0x0610, true, true, e)
  | .ilkExchangeCommit e => some (0x0611, true, true, e)
  | .ilkExchangeAbort e => some (0x0612, true, true, e)
  | .ilkExchangeStatus e => some (0x0613, false, true, e)
  | .ilkForceSet e _ => some (0x0618, true, true, e)
  | .ilkForceClear e => some (0x0619, true, true, e)
  | .ilkForceList e => some (0x061A, false, true, e)
  | .fldBlockClear e _ => some (0x0901, true, true, e)
  | .motStatus e => some (0x0A01, false, true, e)
  | .grdStatus e => some (0x0B01, false, true, e)
  | .sysRestart e _ => some (0x0301, true, true, e)
  | .sysParamGet e => some (0x0302, false, true, e)
  | .sysParamSet e => some (0x0303, true, true, e)
  | .sysIdentify e => some (0x0304, false, true, e)
  | .netStart e => some (0x0C01, true, true, e)
  | .netStop e => some (0x0C02, true, true, e)
  | .netStatus e => some (0x0C03, false, true, e)
  | .netCounters e => some (0x0C04, false, true, e)
  | .trnStatus e => some (0x0D01, false, true, e)
  | .trnComposition e => some (0x0D02, false, true, e)
  | .trnInaugurate e => some (0x0D03, true, true, e)
  | .dupStatus e => some (0x0E01, false, true, e)
  | .dupSwitchBack e _ => some (0x0E02, true, true, e)
  | .hstSessionOpen e => some (0x0F01, false, false, e)
  | .hstSessionProve e _ => some (0x0F02, false, false, e)
  | .hstSessionClose e => some (0x0F03, true, true, e)
  | .hstSessionList e => some (0x0F04, false, true, e)
  | .hstPortRestart e => some (0x0F05, true, true, e)
  | .crcOpen e => some (0x1101, true, true, e)
  | .crcFeed e => some (0x1102, true, true, e)
  | .crcRead e => some (0x1103, false, true, e)
  | .crcWrite e => some (0x1104, true, true, e)
  | .crcClose e => some (0x1105, true, true, e)
  | .brgStart e => some (0x1001, true, true, e)
  | .brgStop e => some (0x1002, true, true, e)
  | .brgStatus e => some (0x1003, false, true, e)
  | .brgPollStatus e => some (0x1004, false, true, e)
  | .updBegin e _ _ _ => some (0x1201, true, true, e)
  | .updChunk e _ => some (0x1202, true, true, e)
  | .updStatus e => some (0x1203, false, true, e)
  | .updVerify e => some (0x1204, true, true, e)
  | .updActivate e _ => some (0x1205, true, true, e)
  | .updConfirm e _ => some (0x1206, true, true, e)
  | .updAbort e _ => some (0x1207, true, true, e)
  | .updAttest e => some (0x1208, false, true, e)
  | .lcsTransition e _ => some (0x1301, true, true, e)
  | .lcsKeyWrite e _ => some (0x1302, true, true, e)
  | .lcsStatus e => some (0x1303, false, true, e)
  | .prfRun e => some (0x1401, true, true, e)
  | .prfResult e => some (0x1402, false, true, e)
  | .recList e => some (0x1501, false, true, e)
  | .recRead e _ => some (0x1502, false, true, e)
  | .recClear e _ => some (0x1503, true, true, e)
  | .recStatus e => some (0x1504, false, true, e)
  | .pwrStatus e => some (0x1601, false, true, e)
  | .powerUp _ => none
  | .powerFail => none
  | .vsRange _ => none
  | .reset => none
  | .resetRelease _ => none
  | .resetStuck => none
  | .holdupOk _ => none
  | .holdupLow _ => none
  | .clockFault _ => none
  | .laneRailFault _ => none
  | .tempHigh _ _ => none
  | .cdcTimeout _ _ => none
  | .strobeTimeout _ => none
  | .cycleStrobe _ => none
  | .quoinScrubFault _ _ => none
  | .timerExpiry _ => none
  | .approachLockExpiry _ => none
  | .overlapReleaseExpiry _ => none
  | .routeStalled _ => none
  | .pointStroke _ => none
  | .pointLost _ => none
  | .signalM0Restore _ => none
  | .sweepTimeout _ => none
  | .warningTimeExpiry _ => none
  | .crossingFail _ => none
  | .crossingLightsRestored _ => none
  | .openingLoweringExpiry _ => none
  | .guardDiscrepancy _ => none
  | .guardFeedback _ => none
  | .standstillProven _ => none
  | .simultaneityExpiry _ => none
  | .auxWindowExpiry _ => none
  | .auxNotCounted _ => none
  | .evaluationDeadline _ => none
  | .overrunLimit _ => none
  | .galleyReceived _ _ _ => none
  | .galleyWindowClose _ => none
  | .permitExpiry _ _ => none
  | .gateDriveLoss _ => none
  | .cycleClose => none
  | .exchangeCycle _ _ => none
  | .inServiceProofRequest => none
  | .proofDeferred => none
  | .laneIsolation => none
  | .proofComplete _ => none
  | .proofTimeout _ => none
  | .laneRejoin _ => none
  | .darkTestOutput _ _ => none
  | .darkTestBankPath _ _ _ => none
  | .externalEnergyProcedure _ => none
  | .axleSequence _ _ => none
  | .wireBreak _ => none
  | .fieldSupplyOutOfRange _ _ => none
  | .fieldSupplyInRange _ _ => none
  | .outputOverload _ _ => none
  | .thermalRetry _ _ => none
  | .bankOverload _ => none
  | .fieldLink => none
  | .linkSyncAcquired _ => none
  | .autoNegotiation _ _ => none
  | .linkQualification _ _ => none
  | .linkDown _ _ => none
  | .linkRetry _ => none
  | .staticSlotTransmit _ _ => none
  | .minislot _ => none
  | .frameReceive _ _ => none
  | .receiveBufferUpdate _ => none
  | .networkCycleBoundary => none
  | .kern _ => none
  | .noSync => none
  | .guardianTrip _ => none
  | .listenTimeout => none
  | .coldstart _ => none
  | .backoffExpiry => none
  | .integrationComplete => none
  | .nodeLost _ => none
  | .endChange _ => none
  | .stopFrame _ _ => none
  | .sweepSend => none
  | .sweepFrame _ _ => none
  | .resultFrame _ _ => none
  | .noAgree => none
  | .inaugurationTimeout => none
  | .trainFailRetry => none
  | .trainProofRequest => none
  | .refereeDecide => none
  | .markAccepted => none
  | .dupColdTakeover _ => none
  | .dupSwitchBackFail => none
  | .formeLoad _ _ _ => none
  | .exchangePrepared => none
  | .pendingSessionExpiry _ => none
  | .authLockoutEnd _ => none
  | .sessionIdleExpiry _ => none
  | .verificationComplete _ _ => none
  | .updExpired => none
  | .recorderBatch => none
  | .queueStall _ => none
  | .qProdWrite _ _ _ => none
  | .qConsWrite _ _ => none
  | .qCfgWrite _ _ => none
  | .stewardCtrlRestart _ _ => none
  | .cdcStatusClear _ => none
  | .cycleCountRead _ => none
  | .registerWrite _ _ _ _ => none
  | .reservedAccess _ _ _ => none
  | .msixVectorUnmask _ => none
  | .pcieReset _ => none
  | .linkTraining _ => none
  | .udpDatagram _ _ _ => none
  | .arpRequest _ => none
  | .icmpEcho _ _ => none
  | .ipReassemblyTimeout _ => none
  | .tunnelTransmitEntry _ _ => none
  | .tunnelSegment _ => none
  | .peerReset _ => none
  | .creditReport _ _ => none
  | .brgReasmTimeout _ _ => none
  | .readTimeout _ => none
  | .brgWriteError _ _ => none
  | .brgDiscard _ => none
  | .telegramReceive _ _ => none
  | .telegramGap _ => none
  | .sideBandPoll _ _ => none
  | .busMasterEnableChange _ _ => none
  | .networkClockReturn => none
  | .checkpointSeal _ => none
  | .telegramSent _ => none
  | .frequencyPulse _ _ _ => none
  | .recorderClearComplete => none
  | .stewardBack => none
  | .reportSigned => none

/-- The rows that start the module (Table 20-2, R106, R296, R356): only these bring operation back. -/
def Instr.starts : Instr → Bool
  | .powerUp _ => true
  | .resetRelease _ => true
  | .sysRestart _ _ => true
  | .updActivate _ _ => true
  | .dupColdTakeover _ => true
  | _ => false

/-- Rows that come over BAR0, the PCIe function or the maintenance jack beneath the mailbox (R298 to R308, R319). -/
def Instr.hostAccess : Instr → Bool
  | .qProdWrite _ _ _ => true
  | .qConsWrite _ _ => true
  | .qCfgWrite _ _ => true
  | .stewardCtrlRestart _ _ => true
  | .cdcStatusClear _ => true
  | .cycleCountRead _ => true
  | .registerWrite _ _ _ _ => true
  | .reservedAccess _ _ _ => true
  | .msixVectorUnmask _ => true
  | .pcieReset _ => true
  | .linkTraining _ => true
  | .udpDatagram _ _ _ => true
  | .arpRequest _ => true
  | .icmpEcho _ _ => true
  | .ipReassemblyTimeout _ => true
  | .busMasterEnableChange _ _ => true
  | _ => false

end Sys2Proof

namespace Sys2Proof.Machine

/-- A mailbox command passes the checks of R310: `u` is the machine after the fetch, and `o` what its answer needs. -/
def State.accepts (s : State) (op : Nat) (needs needsUdp : Bool) (e : Entry) (u : State) (o : Outstanding) : Prop :=
  s.vet op needs needsUdp e = .accept ∧ u = s.dequeue e ∧ o = outstandingOf op e none

/-- Every output is open: no lane holds a permit and no universal output is on (R55). -/
def State.outputsOpen (s : State) : Bool := s.field.permits.isEmpty && s.field.uoOn.isEmpty

/-- The word store of every lane is canonical. -/
def State.storesWf (s : State) : Bool := s.lanes.toList.all (fun st => storeWf st.core.store)

/-- The tables of the host side hold no more than the spec gives them: 4 sessions open or pending (R317), 256 commands outstanding
(R310), and CRC contexts with the numbers 0 to 63, each of them once (R38). -/
def State.withinLimits (s : State) : Prop :=
  s.host.sessions.length ≤ 4 ∧ s.host.outstanding.length ≤ 256 ∧ (s.crc.map (·.num)).Nodup ∧ ∀ c ∈ s.crc, c.num < 64

/-- The recorder's numbers are in order: no item is newer than `REC.SEQ`, and a clear under way has taken a number that is not older
(R384, R389). -/
structure RecSound (r : Recorder) : Prop where
  items : ∀ i ∈ r.items, i.seq ≤ r.seq
  clear : ∀ c, r.clearing = some c → r.seq ≤ c.c

/-- Lanes in service with disagreement count 0. -/
def State.inServiceCount (s : State) : Nat := (LaneId.all.filter (fun l => s.platen.lanes.get l == .inService 0)).length

/-- What every start of the module leaves (R55, R86, R103, R367, R374, R395, R396). -/
structure Started (s t : State) (f : StartFacts) (cause : Nat) : Prop where
  running : t.power.running = true ∧ t.power.powered = true ∧ t.power.resetHeld = false
  report : t.power.startCause = cause ∧ t.power.ga = f.ga % 32 ∧ t.power.poweredS = 0
  outputs : t.outputsOpen = true ∧ t.field.safeN = true
  runs : t.platen.safe = false → t.life.state ≠ .manufacture ∧ t.life.state ≠ .retired ∧ 2 ≤ t.inServiceCount
  lanes : ∀ l, t.platen.lanes.get l = .inService 0 → (t.lanes.get l).held = false ∧ 1 + l.num ∉ t.proofs.failed
  restart : t.platen.safe = false →
    (t.req.restartKind = 1 ∧ t.req.restartCause = 0) ∨ (t.req.restartKind = 2 ∧ t.req.restartCause ∈ [1, 2, 3, 5, 6, 7])
  rest : t.pending = s.pending ∧ t.ident = s.ident

/-- An attempt of the inauguration unit has begun in t, with number and cause, and its STOP frame has left on the given ports that are up
(R265 to R267); a vehicle coupled at an end waits for its lists, a line of one goes on at once (R268). -/
structure AttemptBegun (s t : State) (a cause : Nat) (ports : List PortId) : Prop where
  attempt : t.train.attempt = a ∧ t.train.cause = cause
  stops : t.train.stops = ((ports.filter (fun p => (s.net.ports.get p).mode == .up)).map (fun p => (p, { cause := cause, attempt := a }))).reverse ++ s.train.stops
  frames : t.net.sent = ((ports.filter (fun p => (s.net.ports.get p).mode == .up)).map (fun p =>
    { port := p, bytes := frameBytes (inaugFrame p (stopBytes { cause := cause, attempt := a })), broken := false })).reverse ++ s.net.sent
  kept : t.lanes = s.lanes ∧ t.platen = s.platen ∧ t.field = s.field ∧ t.power = s.power
  waits : s.lineOfOne = false → t.net.mode = .inaugurating ∧ t.net.countKnown = false ∧ t.train.state = 1 ∧ t.train.number = 0 ∧
    t.train.results = [] ∧ t.train.sweeps = 0 ∧ t.train.sinceEntry = 0
  alone : s.lineOfOne = true → t.train.state = 4 ∨ (t.net.mode = .listen ∧ t.train.number = 1 ∧ t.train.count = 1)

/-- The pieces kept of a list are as many from its front as fit into the room, none of them split (R387). -/
def Fits (room : Nat) (all kept : List (List Byte)) : Prop :=
  kept <+: all ∧ kept.flatten.length ≤ room ∧ ∀ b, all[kept.length]? = some b → room < kept.flatten.length + b.length

/-- No half of any lane's checkpoint is sealed. -/
def State.unsealed (s : State) : Prop := ∀ l, (s.lanes.get l).half0.isSealed = false ∧ (s.lanes.get l).half1.isSealed = false

end Sys2Proof.Machine
end

