-- ==== Sys2Proof/Certificates/Slice0/Obligations.lean ====
section
/-! DEFINITION. The statements for the provers, in the order O1, O2, … of OBLIGATIONS.json. -/

open Sys2Proof Sys2Proof.Machine

/-- A step runs the command at the front of the queue, and on an empty queue the block idles (00_scope.md,
95_what_each_step_holds.md). For every command c and state s: step of s with c in front of its queue is exec of c on s with the
rest of the queue, and step on an empty queue answers the same state. That an empty queue idles is the model's choice (log 4). -/
def Obligations.StepRunsFrontCommand : Prop :=
  ∀ (c : Instr) (s : State),
    step { s with pending := c :: s.pending } = exec c s ∧ step { s with pending := [] } = .next { s with pending := [] }

/-- Every command of the table answers a next state (95_what_each_step_holds.md, R310). For every command and every state, exec
answers a next state, in which the queue and the identity of the module (variant, serial number, factory data) are what they
were. That a command in the wrong state changes nothing and does not stop is the model's reading (log 3). -/
def Obligations.CommandsAlwaysComplete : Prop :=
  ∀ (c : Instr) (s : State), ∃ t, exec c s = .next t ∧ t.pending = s.pending ∧ t.ident = s.ident

/-- The safe state is left only by the rows that start the module (R55). If a step with c at the front of the queue answers a next
state, the module was in the safe state, and c is none of POWER_UP, RESET_RELEASE, SYS_RESTART, UPD_ACTIVATE and
DUP_COLD_TAKEOVER, then the module is in the safe state after the step. The exits are those R55 lists. -/
def Obligations.SafeStateLeftOnlyByStarts : Prop :=
  ∀ (c : Instr) (s t : State), step { s with pending := c :: s.pending } = .next t → s.platen.safe = true → c.starts = false →
    t.platen.safe = true

/-- No command but a start takes the module out of Retired (R367). If exec of c answers a next state, the life-cycle state was
Retired, and c is none of the rows that start the module, then it is still Retired. -/
def Obligations.RetiredLeftOnlyByStarts : Prop :=
  ∀ (c : Instr) (s t : State), exec c s = .next t → s.life.state = .retired → c.starts = false → t.life.state = .retired

/-- No register or network access of the host changes lanes, votes, field side, network or life cycle (R5, R15, R11, R303). For the
rows that come over BAR0, the PCIe function or the maintenance jack beneath the mailbox, exec keeps the working core of every
lane (word store, quoins, routes, elements), the platen, the field side, the network die, the train unit, the duplex unit, the
life-cycle record and the proofs. -/
def Obligations.HostAccessKeepsVitalState : Prop :=
  ∀ (c : Instr) (s t : State), exec c s = .next t → c.hostAccess = true →
    (∀ l, (t.lanes.get l).core = (s.lanes.get l).core) ∧ t.platen = s.platen ∧ t.field = s.field ∧ t.net = s.net ∧
    t.train = s.train ∧ t.duplex = s.duplex ∧ t.life = s.life ∧ t.proofs = s.proofs

/-- The numbers of the recorder never fall, and no item is newer than REC.SEQ (R384, R389). From every state in which no recorder
item is newer than REC.SEQ and a clear under way has taken a number that is not older, every step that answers a next state
keeps that, and REC.SEQ is at least what it was. -/
def Obligations.RecorderNumbersNeverFall : Prop :=
  ∀ (s t : State), step s = .next t → RecSound s.recorder → RecSound t.recorder ∧ s.recorder.seq ≤ t.recorder.seq

/-- A mailbox command that fails a check of R310 has no effect but its answer (R308, R310, R312). For every mailbox row with its
opcode, session and transport needs: where the queue does not move, nothing happens; where the response queue has no room, the
queue stalls; where a check rejects, the entry is fetched and its answer carries the status and detail of the check, a framing
error being counted in the recorder as well; where 256 commands are outstanding, the answer is BUSY and is counted. -/
def Obligations.MailboxTurnedAway : Prop :=
  ∀ (c : Instr) (s : State) (op : Nat) (n u : Bool) (e : Entry), c.mailbox = some (op, n, u, e) →
    (s.vet op n u e = .none → exec c s = .next s) ∧
    (s.vet op n u e = .stall → exec c s = .next (s.stall e)) ∧
    (∀ st d, s.vet op n u e = .reject st d → st ≠ .framing →
      exec c s = .next ((s.dequeue e).answer (outstandingOf op e none) st d [])) ∧
    (∀ d, s.vet op n u e = .reject .framing d →
      exec c s = .next (((s.dequeue e).answer (outstandingOf op e none) .framing d []).recordBatch [recCount 0x0700 d])) ∧
    (s.vet op n u e = .busy → ∃ t, t = s.dequeue e ∧
      exec c s = .next ((({ t with host := { t.host with busyTotal := sat32 t.host.busyTotal 1 } } : State).answer
        (outstandingOf op e none) .busy 0 []).recordBatch [recCount 0x0108 1]))

/-- Every step keeps the limits on sessions, outstanding commands and CRC contexts (R317, R310, R38). From every state with at most
4 sessions open or pending, at most 256 commands outstanding, and CRC contexts with distinct numbers below 64, every step that
answers a next state gives a state with the same limits. -/
def Obligations.StepKeepsLimits : Prop :=
  ∀ s t : State, step s = .next t → s.withinLimits → t.withinLimits

/-- Reset meets the invariants, registers and parameters read as their tables say, and a parameter write stores the nearest legal
value (R38, R55, R259, R300, R304, R306, R310, R313, R315, R317, R384). At reset the limits, the recorder's order and the
canonical word stores hold, every output is open and no command waits. Every queue block reads base 0, configuration 0x46,
indices and status 0; EVT_SUMMARY, SCRATCH, CDC_STATUS and ABORT_LOG read 0; the privileged window reads 0; every event route is
0x10101010, every vector masked and none pending; the recorder's number is 1. Every writable parameter has its default as stored
and used value, which is legal; a parameter write stores a value within its range, the value itself where it is legal, and
leaves the value in use and every other parameter. That the vectors start masked is the model's (log 9). -/
def Obligations.ResetMeetsInvariants : Prop :=
  ∃ s : State, s = State.reset ∧ s.withinLimits ∧ RecSound s.recorder ∧ s.storesWf = true ∧ s.outputsOpen = true ∧ s.pending = [] ∧
    (∀ n, n < 64 → s.readRegister (0x40 * n) = 0 ∧ s.readRegister (0x40 * n + 0x04) = 0 ∧ s.readRegister (0x40 * n + 0x08) = 0x46 ∧
      s.readRegister (0x40 * n + 0x0C) = 0 ∧ s.readRegister (0x40 * n + 0x10) = 0 ∧ s.readRegister (0x40 * n + 0x14) = 0) ∧
    s.readRegister 0x1018 = 0 ∧ s.readRegister 0x101C = 0 ∧ s.readRegister 0x1020 = 0 ∧ s.readRegister 0x1024 = 0 ∧
    (∀ off, 0x8000 ≤ off → s.readRegister off = 0) ∧ (∀ i, i < 64 → nthD s.host.evtRoute i 0 = 0x10101010) ∧
    (∀ n, n < 32 → n ∈ s.host.masked) ∧ s.host.pba = [] ∧ s.recorder.seq = 1 ∧
    (∀ id lo hi d, writableParam id = some (lo, hi, d) → s.inUse id = d ∧ s.stored id = d ∧ lo ≤ d ∧ d ≤ hi ∧
      ∀ v, lo ≤ effectiveParam id v ∧ effectiveParam id v ≤ hi ∧
        ((id ≠ 0x0C01 ∨ v % 1000 = 0) → (id ≠ 0x1004 ∧ id ≠ 0x1005 ∨ v ∈ [9600, 19200, 38400, 57600, 115200]) → lo ≤ v → v ≤ hi → effectiveParam id v = v) ∧
        ∀ u : State, (u.store id v).stored id = effectiveParam id v ∧ (u.store id v).inUse id = u.inUse id ∧
          ∀ k, k ≠ id → (u.store id v).stored k = u.stored k ∧ (u.store id v).inUse k = u.inUse k)

/-- An entry of the module goes to the tail of one queue, and its vector fires or becomes pending (R307, R308, R323). Putting an
entry into queue n appends it to what the queue holds and advances its producer index modulo 65 536; every other queue is as it
was; with interrupts of the queue off no message is sent; with them on, an unmasked vector sends its message and a masked vector
sets its pending bit once. -/
def Obligations.EntrySendsMessage : Prop :=
  ∀ (s : State) (n : Nat) (e : OutEntry), n < s.host.queues.length →
    ∃ q t, q = s.host.queue n ∧ t = s.enqueue n e ∧
      t.host.queue n = { q with prod := (q.prod + 1) % 65536, held := q.held ++ [e] } ∧
      (∀ m, m ≠ n → t.host.queue m = s.host.queue m) ∧
      (q.irqEn = false → t.host.messages = s.host.messages ∧ t.host.pba = s.host.pba) ∧
      (q.irqEn = true → q.vector ∉ s.host.masked →
        t.host.messages = q.vector :: s.host.messages ∧ t.host.pba = s.host.pba) ∧
      (q.irqEn = true → q.vector ∈ s.host.masked → t.host.messages = s.host.messages ∧ q.vector ∈ t.host.pba ∧
        (q.vector ∈ s.host.pba → t.host.pba = s.host.pba))

/-- The answer to a command is one entry of its response queue, or is discarded and counted (R309, R311, R300, R313). With status
other than FRAMING and an existing target queue: a DONE answer to a command with flag bit 0 set writes nothing; any other
answer, where the queue moves and has room, is the last entry of the target queue with the command's opcode, tag, origin queue
and session, the status, detail, cycle count and payload, and no other queue changes; where the queue does not move or is full,
the answer is discarded and counted. -/
def Obligations.AnswerWritesOneEntry : Prop :=
  ∀ (s : State) (o : Outstanding) (st : Status) (d : Nat) (p : List Byte), o.queue < 15 → st ≠ .framing →
    o.target < s.host.queues.length →
    ∃ q t, q = s.host.queue o.target ∧ t = s.answer o st d p ∧
      ((st = .done ∧ o.flags % 2 = 1) → t = s) ∧
      (¬ (st = .done ∧ o.flags % 2 = 1) → s.host.moves o.target = true → 0 < q.free →
        t.host.queue o.target = { q with
          prod := (q.prod + 1) % 65536,
          held := q.held ++ [{ op := o.op, tag := o.tag, flags := 0, origin := o.queue, session := o.session, status := st, detail := d,
                               cycle := s.net.count, payload := p, crc := BitVec.ofNat 32 (crc32c p) }] } ∧
        (∀ n, n ≠ o.target → t.host.queue n = s.host.queue n)) ∧
      (¬ (st = .done ∧ o.flags % 2 = 1) → (s.host.moves o.target = false ∨ q.free = 0) →
        t = { s with host := { s.host with discards := sat32 s.host.discards 1 } })

/-- An event is counted, recorded and written to its event queue, or counted as overflow (R322, R320, R311). With the steward up and
the event routed to an enabled queue other than the unrouted marker: the event's counter saturates upwards by one and the
recorder takes its count item, with the advance that lost events of that source add; where the queue moves and has room, its
last entry is the event with the opcode 0xFF00 plus its number, the queue's sequence number as tag, the dropped flag, and a
payload that starts with the event count; where it does not, the overflow counter of the queue saturates upwards and the dropped
flag is set; no other queue changes. -/
def Obligations.RaiseWritesEventEntry : Prop :=
  ∀ (s : State) (num n : Nat) (p : List Byte), s.host.stewardUp = true → s.host.eventRoute num = some n → n ≠ 47 →
    n < s.host.queues.length → (s.host.queue n).enabled = true →
    ∃ c q t, c = sat32 (kvGetD s.host.evtCount num 0) 1 ∧ q = s.host.queue n ∧ t = s.raise num p ∧
      kvGet t.host.evtCount num = some c ∧
      t.recorder = { s.recorder with uncounted := kvDel s.recorder.uncounted num, pending := s.recorder.pending ++
        [[{ recCount 0x0F00 num with times := 1 + kvGetD s.recorder.uncounted num 0 }]] } ∧
      (∀ m, m ≠ n → t.host.queue m = s.host.queue m) ∧
      (s.host.moves n = true → q.free ≠ 0 → t.host.queue n = { q with
        prod := (q.prod + 1) % 65536, seq := (q.seq + 1) % 65536, dropped := false,
        held := q.held ++ [{ op := 0xFF00 + num, tag := q.seq % 65536, flags := if q.dropped then 1 else 0, origin := n, session := 0,
                             status := .done, detail := 0, cycle := s.net.count, payload := leBytes 4 c ++ p,
                             crc := BitVec.ofNat 32 (crc32c (leBytes 4 c ++ p)) }] }) ∧
      (s.host.moves n = false ∨ q.free = 0 → t.host.queue n = { q with overflow := sat16 q.overflow 1, dropped := true })

/-- A token is checked in five ordered steps; the first that fails is reported, and a good token is counted before it acts (R368,
R369). For every token of a right size: step 1 checks magic, version, kind and length, step 2 that the signer may sign the kind,
step 3 the serial number, step 4 the signature, step 5 that the sequence number exceeds the signer's counter. The first step
that fails is answered AUTH, with ev.token_refused and a recorder count carrying its number. A token that passes all five stores
its sequence number in the signer's counter, with the previous life-cycle record kept beside it, is recorded, and only then the
command runs. -/
def Obligations.TokenCheckedThenCounted : Prop :=
  ∀ (s : State) (o : Outstanding) (kinds : List Nat) (t : List Byte) (sig : Sig) (run : State → State), tokSized t = true →
    ∃ ok1 ok2 ok3 ok4 ok5 : Prop,
      (ok1 ↔ fieldAt t 0 4 = tokMagic ∧ fieldAt t 4 1 = 1 ∧ tokKind t ∈ kinds ∧ tokBodyLen t = tokBodySize (tokKind t)) ∧
      (ok2 ↔ s.maySign t = true) ∧ (ok3 ↔ fieldAt t 8 8 = s.ident.serial) ∧ (ok4 ↔ s.verifies (s.signerKey t) sig = true) ∧
      (ok5 ↔ nthD s.life.counters (tokCounter t) 0 < tokSeq t) ∧
      (∀ n, (n = 1 ∧ ¬ ok1) ∨ (n = 2 ∧ ok1 ∧ ¬ ok2) ∨ (n = 3 ∧ ok1 ∧ ok2 ∧ ¬ ok3) ∨ (n = 4 ∧ ok1 ∧ ok2 ∧ ok3 ∧ ¬ ok4) ∨
          (n = 5 ∧ ok1 ∧ ok2 ∧ ok3 ∧ ok4 ∧ ¬ ok5) →
        s.withToken o kinds t sig run =
          (s.answer o .auth 0 []).raiseWith evTokenRefused (leBytes 1 n) [recCount 0x0720 n]) ∧
      (ok1 ∧ ok2 ∧ ok3 ∧ ok4 ∧ ok5 → ∃ u, s.withToken o kinds t sig run = run u ∧
        u.life = { s.life with counters := setNth s.life.counters (tokCounter t) (tokSeq t), seq := s.life.seq + 1 } ∧
        u.lifeOlder = s.life ∧ u.host = s.host ∧ u.lanes = s.lanes ∧ u.req = s.req ∧ u.update = s.update ∧
        u.recorder.pending = s.recorder.pending ++ [[recKeep 0x0721 0 (leBytes 1 (tokKind t) ++ leBytes 1 (tokSigner t) ++
          leBytes 1 (tokIndex t) ++ leBytes 1 0 ++ leBytes 4 (tokSeq t))]])

/-- A token that has been counted never passes the checks again (R369, R370). If a token passes its checks and is counted, then in
every state whose life-cycle record is the one that the count left, the same token fails its checks whatever its signature and
whatever kinds the command takes. -/
def Obligations.TokenNeverPassesTwice : Prop :=
  ∀ (s t' : State) (kinds kinds' : List Nat) (t : List Byte) (sig sig' : Sig), s.tokenFail kinds t sig = 0 →
    tokCounter t < s.life.counters.length → t'.life = (s.countToken t).life → t'.tokenFail kinds' t sig' ≠ 0

/-- Decoding an encoded safety word gives its value back (R24, R25, R26). For every 16-bit value, valid identity, kind below 16,
code set and tag of this or the previous cycle: the encoder gives a word; the restrictive command word (kind 4, value 0) decodes
as restrictive under every kind; any other word decodes to the value, for a kind 3 provided the value is not above the declared
highest. -/
def Obligations.EncodedWordDecodesToItsValue : Prop :=
  ∀ (x id tag kind set now : Nat), x < 65536 → isIdentity id = true → kind < 16 → isCodeSet set = true →
    (tag % 256 = now % 256 ∨ tag % 256 = (now + 255) % 256) →
    ∃ w, encode x id tag kind set = some w ∧
      (kind = 4 ∧ x = 0 → ∀ k hi, decode w id k set now hi = .restrictive) ∧
      (¬ (kind = 4 ∧ x = 0) → ∀ hi, (kind = 3 → x ≤ hi) → decode w id kind set now hi = .valid x)

/-- A safety word with any one bit of its code value wrong does not decode (R24, R25, R26). For every encoded word with a fresh tag
and every one of its 32 code bits: the word with that bit inverted is rejected by the code check. -/
def Obligations.NoSingleCodeBitErrorPasses : Prop :=
  ∀ (x id tag kind set i k now hi : Nat) (w : Word64), encode x id tag kind set = some w → x < 65536 → kind < 16 → i < 32 →
    (tag % 256 = now % 256 ∨ tag % 256 = (now + 255) % 256) →
    decode (w ^^^ (1#64 <<< (32 + i))) id k set now hi = .invalid .code

/-- The vote in two-out-of-three mode is Table 3-2 (R45). Three equal values vote that value and name no lane. Two equal values
against a lane with another value, an invalid word or a late galley vote that value and name that lane, in each order of the
lanes. Where no two lanes have the same valid value there is no voted result and no lane is named. A copy votes every position
so, and its verdict has bit 3 set where a position has no voted result. With three lanes serving and two copies without
majority, the module enters the safe state. -/
def Obligations.VoteOfThreeLanes : Prop :=
  ∀ (l1 l2 l3 : LaneId) (x : Nat) (v v1 v2 v3 : Option Nat),
    voteValues [(l1, some x), (l2, some x), (l3, some x)] = (some x, []) ∧
    (v ≠ some x →
      voteValues [(l1, v), (l2, some x), (l3, some x)] = (some x, [l1]) ∧
      voteValues [(l1, some x), (l2, v), (l3, some x)] = (some x, [l2]) ∧
      voteValues [(l1, some x), (l2, some x), (l3, v)] = (some x, [l3])) ∧
    ((∀ y, ¬ (v1 = some y ∧ v2 = some y) ∧ ¬ (v1 = some y ∧ v3 = some y) ∧ ¬ (v2 = some y ∧ v3 = some y)) →
      voteValues [(l1, v1), (l2, v2), (l3, v3)] = (none, [])) ∧
    (∀ (c : Copy) (f : Forme) (now : Nat) (own : LaneId) (vs : List LaneId), ∃ xs, (c.vote f now own vs).voted = some xs ∧
      xs = (indexed f.galley).map (fun q => (voteValues (c.values f now own vs q.1 q.2)).1) ∧
      (none ∈ xs → member (c.vote f now own vs).verdict 3 = true)) ∧
    (∀ (s : State) (f : Forme), (lanesWhere s.serving).length = 3 → 2 ≤ s.verdicts 3 → s.platen.safe = false →
      (s.finishVote f).platen.safe = true ∧ (s.finishVote f).platen.safeCause = causeNoMajority)

/-- The vote in two-out-of-two mode is Table 3-3 (R46). Two equal values vote that value and name no lane. Where the two lanes do
not have the same valid value there is no voted result. A copy sees the words of the lanes it votes over, and of no other. With
two lanes serving and one copy without a voted result, the module enters the safe state. -/
def Obligations.VoteOfTwoLanes : Prop :=
  ∀ (l1 l2 : LaneId) (x : Nat) (v1 v2 : Option Nat),
    voteValues [(l1, some x), (l2, some x)] = (some x, []) ∧
    ((∀ y, ¬ (v1 = some y ∧ v2 = some y)) → (voteValues [(l1, v1), (l2, v2)]).1 = none) ∧
    (∀ (c : Copy) (f : Forme) (now i : Nat) (own : LaneId) (vs : List LaneId) (g : GalleyRec),
      (c.values f now own vs i g).map (·.1) = vs) ∧
    (∀ (s : State) (f : Forme), (lanesWhere s.serving).length = 2 → 1 ≤ s.verdicts 3 → s.platen.safe = false →
      (s.finishVote f).platen.safe = true ∧ (s.finishVote f).platen.safeCause = causeTwoLanes)

/-- A power failure and a reset stop the vital part, open every output and keep what is stored (R393, R398, R55, R367). With the
module running, POWER_FAIL takes the power away and counts, and RESET holds the reset and counts. Both stop operation, start the
off-time count, open every output, stop the network with every link down, hold every lane in reset with its gate drive off and
both checkpoint halves unchanged, close the CRC contexts and stop the steward and the jack, and keep parameters, life-cycle
records, update state, recorder, bridge, proofs, requests, exchange, train and duplex state and the free value counter. -/
def Obligations.DiesEnterReset : Prop :=
  ∀ (s : State), s.power.running = true → s.power.powered = true → s.power.resetHeld = false →
    (∃ t, exec .powerFail s = .next t ∧ t.power.powered = false ∧ t.power.pfs = sat32 s.power.pfs 1 ∧ t.power.resetHeld = false) ∧
    (∃ t, exec .reset s = .next t ∧ t.power.powered = true ∧ t.power.resets = sat32 s.power.resets 1 ∧ t.power.resetHeld = true) ∧
    (∀ c t, c = .powerFail ∨ c = .reset → exec c s = .next t →
      t.power.running = false ∧ t.power.offCounting = true ∧ t.outputsOpen = true ∧ t.net.mode = .stopped ∧
      (∀ p, (t.net.ports.get p).mode = .down) ∧
      (∀ l, (t.lanes.get l).held = true ∧ (t.lanes.get l).gate = false ∧ (t.lanes.get l).writing = none ∧
        (t.lanes.get l).half0 = (s.lanes.get l).half0 ∧ (t.lanes.get l).half1 = (s.lanes.get l).half1) ∧
      t.crc = [] ∧ t.host.stewardUp = false ∧ t.host.j1Up = false ∧
      t.params = s.params ∧ t.life = s.life ∧ t.lifeOlder = s.lifeOlder ∧ t.update = s.update ∧ t.recorder = s.recorder ∧
      t.bridge = s.bridge ∧ t.proofs = s.proofs ∧ t.req = s.req ∧ t.xchg = s.xchg ∧ t.train = s.train ∧ t.duplex = s.duplex ∧
      t.free = s.free)

/-- Supply, hold-up, temperature and stuck reset: what each reports and stores (R392, R394, R406, R399). With power: VS outside 4.5
V to 40 V is stored, raises ev.vs_range and is kept in the recorder; a die above 110 degrees raises ev.temp_high; HOLDUP_OK
stores the voltage and the flag; HOLDUP_LOW without a held reset clears the flag, raises ev.holdup_low and is recorded; with a
held reset it also ends the always-on island and clears the stuck mark; RESET_STUCK with a held reset sets the mark. -/
def Obligations.SupplyHoldupTemperature : Prop :=
  ∀ (s : State) (mv die c : Nat), s.power.powered = true →
    (s.power.running = true → (mv < 4500 ∨ 40000 < mv) → exec (.vsRange mv) s =
      .next (({ s with power := { s.power with vsMv := mv } } : State).raiseWith evVsRange (leBytes 4 mv) [recKeep 0x0A00 mv []])) ∧
    (s.power.running = true → 110 < c → exec (.tempHigh die c) s =
      .next (({ s with power := { s.power with tempMax := c } } : State).raiseWith evTempHigh (leBytes 1 die ++ leBytes 2 c)
        [recKeep 0x0A02 c []])) ∧
    exec (.holdupOk mv) s = .next { s with power := { s.power with holdupOk := true, holdupMv := mv } } ∧
    (s.power.running = true → s.power.resetHeld = false → s.power.holdupOk = true → exec (.holdupLow mv) s =
      .next (({ s with power := { s.power with holdupOk := false, holdupMv := mv } } : State).raiseWith evHoldupLow (leBytes 4 mv)
        [recKeep 0x0A01 mv []])) ∧
    (s.power.resetHeld = true → exec (.holdupLow mv) s = .next { s with power :=
      { s.power with holdupOk := false, holdupMv := mv, islandValid := false, resetStuck := false } }) ∧
    (s.power.resetHeld = true → exec .resetStuck s = .next { s with power := { s.power with resetStuck := true } })

/-- Power-up and the release of a reset start the module (R395, R396, R398, R399, R405, R103, R374). With a power supply facts
record whose proofs pass, POWER_UP of an unpowered module and RESET_RELEASE of a module held in reset give a state that Started
describes: it runs with all outputs open, samples GA0 to GA4, reports its start cause (stuck reset apart), serves lanes that
passed their proofs, and, unless in the safe state, made a warm or a cold restart with its cause; sessions, outstanding commands
and CRC contexts are gone. With no sealed checkpoint the restart is cold. -/
def Obligations.PowerUpAndReleaseStart : Prop :=
  ∀ (s : State) (f : StartFacts), startPasses f 0x40 = true →
    (s.power.powered = false → s.power.resetHeld = false → ∃ t, exec (.powerUp f) s = .next t ∧ Started s t f 0x01 ∧
      t.power.powerups = sat32 s.power.powerups 1 ∧ t.power.vsMv = f.vsMv ∧ t.host.sessions = [] ∧ t.host.outstanding = [] ∧
      t.crc = [] ∧ (s.unsealed → t.platen.safe = false → t.req.restartKind = 2)) ∧
    (s.power.powered = true → s.power.resetHeld = true → ∃ t, exec (.resetRelease f) s = .next t ∧
      Started s t f (if s.power.resetStuck then 0x04 else 0x02) ∧ t.host.sessions = [] ∧ t.host.outstanding = [] ∧
      t.crc = [] ∧ (s.unsealed → t.platen.safe = false → t.req.restartKind = 2))

/-- sys.restart is answered, stops the vital part and starts the module anew (R106, R55, R103). An accepted sys.restart is answered
DONE with the clamped profile; then every output is open and the module starts with cause 3, profile 2 asking for a cold
restart; with no sealed checkpoint the restart is cold. -/
def Obligations.SysRestartStartsAnew : Prop :=
  ∀ (s : State) (e : Entry) (f : StartFacts), s.vet 0x0301 true true e = .accept → 1 ≤ (Entry.body e).length → startPasses f 0x40 = true →
    ∃ profile u t, profile = (if Entry.field e 0 1 = 1 then 1 else 2) ∧
      u = ((s.dequeue e).answer (outstandingOf 0x0301 e none) .done 0 (leBytes 1 profile)).stopVital ∧
      t = (({ u with power := { u.power with coldAsked := profile == 2 } } : State).start f 3 false) ∧
      exec (.sysRestart e f) s = .next t ∧ u.outputsOpen = true ∧ Started s t f 0x03 ∧
      (s.unsealed → t.platen.safe = false → t.req.restartKind = 2)

/-- A clock fault stops exactly the unit of its island and raises ev.clock_fault (R401, R404, 20_power_reset_clocks.md Table 20-5).
With the module running: a fault of a lane's clock or rail puts that lane alone in reset with its gate drive off; where other
lanes serve and one of them has not voted, nothing else changes; where the copies that are left have all voted, the vote ends as
the rest of them make it; with no lane left the safe state is entered. A fault of the always-on island ends its validity, of the
crypto island marks it down, of the network transmit island stops the network with every port down and leaves lanes, votes and
field side; of the field side ends the field link, the permits, the universal outputs and the sealed words; of PCIe resets the
function, of the steward restarts it, of the maintenance Ethernet takes the jack down; of a receive island the link of its port
is lost. ev.clock_fault carries the island where Table 20-5 raises it. -/
def Obligations.ClockAndRailFaults : Prop :=
  ∀ (s : State) (l : LaneId) (p : PortId), s.power.running = true →
    (∃ x u : State, x = { s with lanes := s.lanes.set l (s.lanes.get l).enterReset } ∧
      (∀ i, (i = .laneA ∧ l = .a) ∨ (i = .laneB ∧ l = .b) ∨ (i = .laneC ∧ l = .c) → exec (.clockFault i) s =
        .next (u.raise evClockFault (leBytes 1 i.code))) ∧
      exec (.laneRailFault l) s = .next u ∧ x.laneIn l = false ∧ (x.lanes.get l).gate = false ∧
      (x.lanesIn ≠ [] → (s.platen.cycleOpen = false ∨ s.platen.complete = true ∨
        ∃ k, x.laneIn k = true ∧ (s.platen.copies.get k).voted = none) → u = x) ∧
      (∀ f, x.forme = some f → x.lanesIn ≠ [] → s.platen.cycleOpen = true → s.platen.complete = false →
        (∀ k, x.laneIn k = true → (s.platen.copies.get k).voted.isSome = true) → u = x.noteVoted.finishVote f) ∧
      (∀ f, x.forme = some f → x.lanesIn = [] → ∃ cause, u = x.enterSafe cause)) ∧
    exec (.clockFault .alwaysOn) s =
      .next (({ s with power := { s.power with islandValid := false } } : State).raise evClockFault [0x00]) ∧
    exec (.clockFault .crypto) s =
      .next (({ s with power := { s.power with cryptoDown := true } } : State).raise evClockFault [0x0D]) ∧
    (∃ t : State, exec (.clockFault .netTx) s = .next (t.raise evClockFault [0x05]) ∧ t.power = { s.power with netDown := true } ∧
      t.net.mode = .stopped ∧ (∀ q, (t.net.ports.get q).mode = .down) ∧ t.platen = s.platen ∧ t.lanes = s.lanes ∧ t.field = s.field) ∧
    (∃ t : State, exec (.clockFault .fieldSide) s = .next (t.raise evClockFault [0x0C]) ∧ t.lanes = s.lanes ∧ t.net = s.net ∧
      (s.field.link = true → t.field = { s.field with link := false, permits := [], uoOn := [], sealed := [] }) ∧
      (s.field.link = false → t = s)) ∧
    exec (.clockFault .pcie) s = .next ((s.pcieReset false).raise evClockFault [0x0A]) ∧
    exec (.clockFault .steward) s = .next (s.stewardRestart.raise evClockFault [0x01]) ∧
    (∃ t : State, exec (.clockFault .maintEth) s = .next (t.raise evClockFault [0x0B]) ∧ t.host.j1Up = false ∧ t.lanes = s.lanes ∧
      t.net = s.net) ∧
    (∀ i, (i = .rxXE ∧ p = .xe) ∨ (i = .rxXW ∧ p = .xw) ∨ (i = .rxYE ∧ p = .ye) ∨ (i = .rxYW ∧ p = .yw) →
      ((s.net.ports.get p).mode = .up → exec (.clockFault i) s = .next (s.linkLost p 0)) ∧
      ((s.net.ports.get p).mode = .down → exec (.clockFault i) s = .next s) ∧
      ((s.net.ports.get p).mode = .negotiating ∨ (s.net.ports.get p).mode = .qualifying →
        exec (.clockFault i) s = .next (s.setPort p (fun q => { q with mode := .down }))))

/-- The return of the network clock brings the links back; a crossing time-out is counted and reported once (R404, R403). When the
network clock returns, the network die starts its links (unless its engine failed) with no buffers and no known count, and
lanes, votes and field side are unchanged. A crossing time-out counts for its island, sets the CDC status with that island, and
raises ev.cdc_timeout; a lost lane word is remembered by that lane alone, a lost event stays counted for its source, and the
recorder owes that count. -/
def Obligations.NetworkClockAndCrossings : Prop :=
  ∀ (s : State) (i : Island) (l : LaneId) (w n : Nat), s.power.running = true →
    (s.power.netDown = true → ∃ t, exec .networkClockReturn s = .next t ∧ t.power = { s.power with netDown := false } ∧
      t.net.mode = (if s.net.engineBad then .stopped else .links) ∧ t.net.buffers = [] ∧ t.net.countKnown = false ∧
      t.net.ports = s.net.ports ∧ t.platen = s.platen ∧ t.lanes = s.lanes ∧ t.field = s.field) ∧
    (∀ x u, (x = .value ∧ u = s) ∨ (∃ q, x = .doorbell q ∧ u = s) ∨
        (x = .laneWord l w ∧ u = s.updLane l (fun st => { st with lostWords := insertOnce st.lostWords w })) ∨
        (x = .event n ∧
          u = { s with host := { s.host with evtCount := kvSet s.host.evtCount n (sat32 (kvGetD s.host.evtCount n 0) 1) },
                       recorder := { s.recorder with uncounted := kvSet s.recorder.uncounted n (kvGetD s.recorder.uncounted n 0 + 1) } }) →
      ∃ p h, p = { s.power with cdc := setNth s.power.cdc i.code (sat32 (nthD s.power.cdc i.code 0) 1) } ∧
        h = { u.host with cdcFlag := true, cdcIsland := i.code, cdcCount := sat16 s.host.cdcCount 1 } ∧
        exec (.cdcTimeout i x) s = .next (({ u with power := p, host := h } : State).raise evCdcTimeout (leBytes 1 i.code)))

/-- A steward restart touches the host side alone, and the steward delivers held events when it is back (R11, R300, R306). A write
of the steward control register with the restart bit and the key, with the window or the bridge open to it, restarts the
steward: sessions, CRC contexts, queues and a transfer in progress are gone; lanes, platen, field side, network, train, duplex,
parameters, life cycle, proofs and power are unchanged. When a sound steward is back it serves again and the events held for it
are delivered in order. -/
def Obligations.StewardRestartsAlone : Prop :=
  ∀ (s : State) (v : Word32) (b : Bool), s.power.running = true →
    (s.host.stewardUp = true → (s.host.window = true ∨ b = true) → v.getLsbD 0 = true → bits32 v 8 8 = 0xC3 →
      ∃ t, exec (.stewardCtrlRestart v b) s = .next t ∧ t.host.stewardUp = false ∧ t.host.sessions = [] ∧ t.crc = [] ∧
        t.host.queues = List.replicate 64 .reset ∧ t.update.parts = [] ∧
        t.lanes = s.lanes ∧ t.platen = s.platen ∧ t.field = s.field ∧ t.net = s.net ∧ t.train = s.train ∧ t.duplex = s.duplex ∧
        t.params = s.params ∧ t.life = s.life ∧ t.proofs = s.proofs ∧ t.power = s.power) ∧
    (s.host.stewardUp = false → 0x39 ∉ s.proofs.failed → ∃ t u, exec .stewardBack s = .next t ∧
      u = ({ s with host := { s.host with stewardUp := true, heldEvents := [] } } : State).resumeClear ∧
      t = s.host.heldEvents.foldl (fun s r => s.raiseNow r.num r.payload) u ∧
      t.lanes = s.lanes ∧ t.platen = s.platen ∧ t.field = s.field ∧ t.net = s.net ∧ t.power = s.power)

/-- The cycle strobe advances the count, snapshots the buffers, freezes the requests and evaluates every lane in service (R89, R93,
R157). With no exchange or rejoin due, the strobe freezes the waiting requests (outside a duplex pair), gives every lane in
service that has a forme and no memory fault its galley, and leaves the other lanes as they were without galley. With an
exchange due (the target of a commanding partner taken over first) it is the exchange cycle: requests are not frozen, and each
lane with both formes swaps its running slot, a lane that fails producing no galley. Both advance the cycle count by one modulo
2^32 from the second strobe on, start phase 0, snapshot the receive buffers, open the cycle with empty copies, take the supply
readings of the sample, and change nothing of parameters, life cycle, update and bridge. -/
def Obligations.StrobeOpensTheCycle : Prop :=
  ∀ (s w : State) (x : Sample) (failed : List LaneId), s.canStrobe = true → w = s.followTarget →
    (w.exchangeDue = false → s.rejoinDue = none → ∃ t, exec (.cycleStrobe x) s = .next t ∧
      t.platen.lengthened = false ∧ t.proofs = s.proofs ∧ t.host = s.host ∧
      (s.isDuplex = false → t.req.frozen = s.req.waiting ∧ t.req.waiting = []) ∧
      (∀ l, s.laneIn l = false → t.lanes.get l = { s.lanes.get l with galley := none }) ∧
      (∀ l, s.laneIn l = true → ∀ f, (s.lanes.get l).forme = some f → l ∉ x.sram → ∃ ws, (t.lanes.get l).galley = some ws)) ∧
    (w.exchangeDue = true → exec (.cycleStrobe x) s = exec (.exchangeCycle x []) s ∧
      ∃ t, exec (.exchangeCycle x failed) s = .next t ∧ t.platen.lengthened = true ∧
        t.req.frozen = [] ∧ t.req.waiting = s.req.waiting ∧ t.req.mirrored = s.req.mirrored ∧ t.host = s.host ∧
        (∀ l, s.laneIn l = true → (s.lanes.get l).forme.isSome = true → (s.lanes.get l).waitingForme.isSome = true →
          (t.lanes.get l).slot0 = (s.lanes.get l).swapRun.slot0 ∧ (t.lanes.get l).slot1 = (s.lanes.get l).swapRun.slot1 ∧
          (l ∈ failed → (t.lanes.get l).galley = none))) ∧
    (∀ c t, (c = .cycleStrobe x ∧ w.exchangeDue = false ∧ s.rejoinDue = none) ∨ (c = .exchangeCycle x failed ∧ w.exchangeDue = true) → exec c s = .next t →
      t.net.count = (if s.net.atStart then s.net.count else (s.net.count + 1) % 4294967296) ∧ t.net.atStart = false ∧
      t.net.phase = 0 ∧ t.net.snapshot = s.net.buffers ∧ t.net.ports = s.net.ports ∧ t.net.mode = s.net.mode ∧
      t.platen.cycleOpen = true ∧ t.platen.complete = false ∧ t.platen.stretched = false ∧ t.platen.copies = .all .empty ∧ t.platen.emitted = x.emitted ∧
      t.platen.safe = s.platen.safe ∧ t.power = { s.power with vsMv := x.vsMv.getD s.power.vsMv, holdupMv := x.holdupMv.getD s.power.holdupMv } ∧
      t.params = s.params ∧ t.life = s.life ∧ t.update = s.update ∧ t.bridge = s.bridge)

/-- The cycle close writes each lane's older checkpoint half, and the seal completes it (R18, R95). A cycle close drops the frozen
requests and clears the overrun run of a cycle that was not stretched; outside the safe state each lane in service starts to
write its core into the half that it did not seal last (or that it is writing), that half is unsealed and the other kept; in the
safe state, and for a lane out of service, both halves are kept. The lane's records and events of the cycle are handed over. The
seal makes that half sealed with the cycle, digest and mark of a clean write, and changes nothing else but which half is the
last. -/
def Obligations.CheckpointWrittenAndSealed : Prop :=
  ∀ (s : State) (l : LaneId), s.power.running = true →
    (s.platen.cycleOpen = true → ∃ t, exec .cycleClose s = .next t ∧
      t.platen = { s.platen with cycleOpen := false, overrunRun := if s.platen.stretched ∨ s.platen.safe then s.platen.overrunRun else 0 } ∧
      t.req.frozen = [] ∧
      (s.platen.safe = false → s.laneIn l = true → ∃ n, n = ((s.lanes.get l).writing.map (·.1)).getD (1 - (s.lanes.get l).lastHalf) ∧
        (t.lanes.get l).writing = some (n, (s.lanes.get l).core) ∧ ((t.lanes.get l).half n).isSealed = false ∧
        (n = 1 → (t.lanes.get l).half0 = (s.lanes.get l).half0) ∧ (n = 0 → (t.lanes.get l).half1 = (s.lanes.get l).half1)) ∧
      ((s.platen.safe = true ∨ s.laneIn l = false) →
        (t.lanes.get l).half0 = (s.lanes.get l).half0 ∧ (t.lanes.get l).half1 = (s.lanes.get l).half1 ∧ (t.lanes.get l).writing = (s.lanes.get l).writing) ∧
      (t.lanes.get l).records = [] ∧ (t.lanes.get l).events = [] ∧ (t.lanes.get l).core = (s.lanes.get l).core ∧
      t.field = s.field ∧ t.power = s.power ∧ t.params = s.params ∧ t.life = s.life) ∧
    (s.platen.safe = false → (s.lanes.get l).held = false →
      ((s.lanes.get l).writing = none → exec (.checkpointSeal l) s = .next s) ∧
      (∀ n core, (s.lanes.get l).writing = some (n, core) → ∃ t, exec (.checkpointSeal l) s = .next t ∧
        (t.lanes.get l).half n = { isSealed := true, count := core.cycle, digest := ((s.lanes.get l).runDigest).getD 0,
                                   clean := s.duplex.commanding || s.duplex.ready, core := core } ∧
        (t.lanes.get l).lastHalf = n ∧ (t.lanes.get l).writing = none ∧
        (n = 0 → (t.lanes.get l).half1 = (s.lanes.get l).half1) ∧ (n ≠ 0 → (t.lanes.get l).half0 = (s.lanes.get l).half0) ∧
        (∀ k, k ≠ l → t.lanes.get k = s.lanes.get k) ∧ (∃ ls, t = ({ s with lanes := ls } : State))))

/-- Stretches are granted as R96 says, the third overrun in a row and a missing strobe lead to the safe state (R96, R97, R404, R54).
With three lanes in service a stretch is granted when at least two are late, with two when either is. A granted stretch with a
run below 2 lengthens the cycle, counts the overrun and raises ev.overrun with the lanes that asked; with a run of 2 the module
enters the safe state; a deadline with no grant changes nothing. A lane that misses its strobe asks for the safe state: of three
lanes that work one alone only asks, two make it, and of fewer than three one does. Entering the safe state opens every output,
drives the safe words and the restrictive words to the network, and keeps the overrun run, the parameters, the life cycle, power
and the train unit. -/
def Obligations.OverrunsAndMissingStrobe : Prop :=
  ∀ (s : State) (late : List LaneId) (l : LaneId), s.power.running = true →
    (s.platen.cycleOpen = true → s.platen.stretched = false → s.platen.lengthened = false → s.platen.safe = false →
      (s.lanesIn.length = 3 ∧ (∀ k, s.serving k = s.laneIn k) → s.grants late = decide (2 ≤ (s.lanesIn.filter (fun k => late.contains k)).length)) ∧
      (s.lanesIn.length = 2 ∧ (∀ k, s.serving k = s.laneIn k) → s.grants late = decide (1 ≤ (s.lanesIn.filter (fun k => late.contains k)).length)) ∧
      (s.grants late = true → s.platen.overrunRun < 2 → ∃ t, exec (.evaluationDeadline late) s = .next t ∧
        t.platen = { s.platen with stretched := true, overrunRun := s.platen.overrunRun + 1, overruns := sat32 s.platen.overruns 1 } ∧
        t.net = s.net ∧ t.field = s.field ∧ t.lanes = s.lanes ∧ t.params = s.params ∧
        ∃ (u : State) (mask : Nat), u.host = s.host ∧ u.recorder = s.recorder ∧ mask = ofMembers (LaneId.all.map (fun k => s.laneIn k && late.contains k)) ∧
          t.host = (u.raise evOverrun (leBytes 1 mask ++ leBytes 1 (s.platen.overrunRun + 1))).host) ∧
      (s.grants late = true → 2 ≤ s.platen.overrunRun →
        exec (.evaluationDeadline late) s = .next (s.enterSafe causeOverruns) ∧
        exec (.overrunLimit late) s = .next (s.enterSafe causeOverruns)) ∧
      (s.grants late = false → exec (.evaluationDeadline late) s = .next s ∧ exec (.overrunLimit late) s = .next s)) ∧
    (s.laneIn l = true → ∃ asked u, asked = s.platen.safeAsked.set l true ∧ u = ({ s with platen := { s.platen with safeAsked := asked } } : State) ∧
      ((lanesWhere (fun k => s.serving k && asked.get k)).length = 1 ∧ (lanesWhere s.serving).length = 3 → exec (.strobeTimeout l) s = .next u) ∧
      (2 ≤ (lanesWhere (fun k => s.serving k && asked.get k)).length ∨ (lanesWhere s.serving).length ≠ 3 →
        exec (.strobeTimeout l) s = .next (u.enterSafe causeRequest))) ∧
    (∀ cause, s.platen.safe = false → (s.enterSafe cause).platen.safe = true ∧ (s.enterSafe cause).outputsOpen = true ∧
      (s.enterSafe cause).platen.overrunRun = s.platen.overrunRun ∧ (s.enterSafe cause).platen.out = s.safeOut ∧
      (s.enterSafe cause).net.tx = s.restrictiveTx ∧ (s.enterSafe cause).params = s.params ∧
      (s.enterSafe cause).train = s.train ∧ (s.enterSafe cause).life = s.life ∧ (s.enterSafe cause).power = s.power)

/-- A copy votes when its last galley arrives or its window closes (R42, R43, R49). A galley that arrives at an open copy is stored,
with the words the wire changed; if a galley of another lane that works is still missing nothing else happens, else the copy
votes. When the window closes the copy votes with what it has. A copy's vote is taken over the lanes that work, changes no other
copy, and changes nothing else of the module while another copy of a lane in service has not voted; with the last of them the
vote is ended over all copies. -/
def Obligations.GalleysMakeTheVote : Prop :=
  ∀ (s : State) (f : Forme) (copy lane : LaneId) (bad : List (Nat × Word64)) (ws : List Word64), s.forme = some f → s.copyOpen copy = true →
    (∀ u : State, u = ({ s with platen := { s.platen with copies := s.platen.copies.upd copy (fun k => { k with got := k.got.set lane (some (arrivedGalley ws bad)) }) } } : State) →
      (s.lanes.get lane).galley = some ws → s.laneIn lane = true →
      ((∃ k, s.serving k = true ∧ k ≠ lane ∧ (s.platen.copies.get copy).got.get k = none) →
        exec (.galleyReceived copy lane bad) s = .next u) ∧
      ((∀ k, s.serving k = true → k ≠ lane → ((s.platen.copies.get copy).got.get k).isSome = true) →
        exec (.galleyReceived copy lane bad) s = .next (u.copyVote f copy))) ∧
    exec (.galleyWindowClose copy) s = .next (s.copyVote f copy) ∧
    ((s.copyVote f copy).platen.copies.get copy) = (s.platen.copies.get copy).vote f s.net.count copy (lanesWhere s.serving) ∧
    (∀ k, k ≠ copy → (s.copyVote f copy).platen.copies.get k = s.platen.copies.get k) ∧
    ((∃ k, k ≠ copy ∧ s.laneIn k = true ∧ (s.platen.copies.get k).voted = none) → ∃ c, s.copyVote f copy = { s with platen := { s.platen with copies := c } }) ∧
    (s.platen.complete = false → (∀ k, k ≠ copy → s.laneIn k = true → (s.platen.copies.get k).voted.isSome = true) →
      ∃ c, c = s.platen.copies.upd copy (fun k => k.vote f s.net.count copy (lanesWhere s.serving)) ∧
        s.copyVote f copy = ({ s with platen := { s.platen with copies := c } } : State).noteVoted.finishVote f)

/-- A permit that expires goes alone, a lost gate drive opens its lane's switches, a quoin scrub fault unseats its row (R58, R59,
R111). PERMIT_EXPIRY removes exactly the permits of the lane and item. GATE_DRIVE_LOSS clears the lane's gate, so that no switch
of that lane is closed in any bridge. A scrub fault of a quoin row that the lane holds marks the row and the quoins of that lane
as unsound, is counted for the lane, and changes no other lane nor the core, field side, platen, network or host. -/
def Obligations.PermitsGatesAndScrub : Prop :=
  ∀ (s : State) (l : LaneId) (item row : Nat),
    (∃ t, exec (.permitExpiry l item) s = .next t ∧ t = ({ s with field := { s.field with permits := t.field.permits } } : State) ∧
      (∀ p, p ∈ t.field.permits ↔ p ∈ s.field.permits ∧ ¬(p.lane = l ∧ p.item = item))) ∧
    (∃ t, exec (.gateDriveLoss l) s = .next t ∧ t = ({ s with lanes := s.lanes.set l { s.lanes.get l with gate := false } } : State) ∧
      (∀ o sw, LaneId.ofNum (sw / 2) = l → t.switchClosed o sw = false)) ∧
    (s.power.running = true → s.laneIn l = true → (kvGet (s.lanes.get l).core.quoin row).isSome = true → row ∉ (s.lanes.get l).badRows →
      ∃ t, exec (.quoinScrubFault l row) s = .next t ∧ (t.lanes.get l).quoinSound = false ∧ row ∈ (t.lanes.get l).badRows ∧
        (t.lanes.get l).core = (s.lanes.get l).core ∧ (∀ k, k ≠ l → t.lanes.get k = s.lanes.get k) ∧
        t.req.scrubFaults.get l = sat32 (s.req.scrubFaults.get l) 1 ∧ t.field = s.field ∧ t.platen = s.platen ∧ t.net = s.net ∧
        t.host = s.host)

/-- Timer, approach lock, overlap, stalled route, point stroke and loss, and auxiliary windows: what each expiry does (R99, R117,
R120, R121, R130, R131, R186, R187). For a lane in service with a forme: each row gives the lane exactly the update of its rule.
A timer that has expired holds its words; an approach-locked route whose timer expired is freed; an overlap whose trigger
section is occupied, or that is released by an auxiliary use, is dropped with its rows when its timer expired; a route request
that stalls is ended with reason 4 and ev.route_stalled, the route keeping its state; a point that passes its stroke time stops
its drives, is failed and ends its movement and its request; a point lost for its filter time is failed, its m4 falling where a
machine reads trailed, and raises ev.point_lost; an offered auxiliary window ends with reason 0x10; a confirmed one that is not
counted within 3 cycles ends with reason 0x15. -/
def Obligations.RoutePointAndTimerExpiries : Prop :=
  ∀ (s : State) (l : LaneId) (f : Forme) (e : Env) (v : Ev) (i : Nat), s.power.running = true → s.laneIn l = true →
    (s.lanes.get l).forme = some f → e = s.envOf l f → v = Ev.start (s.lanes.get l).core →
    ∃ after : Ev → LaneState, after = (s.lanes.get l).take ∧
    (v.timerExpired e i = true → ∃ t : State, exec (.timerExpiry i) s = .next t ∧ t.lanes.get l =
      after (((v.wr e 0x0F i 0 (v.rd e 0x0F i 0)).wr e 0x0F i 1 (v.rd e 0x0F i 1)).wr e 0x0F i 2 (v.rd e 0x0F i 2))) ∧
    (∀ rt n, f.routes[i]? = some rt → f.timerNo rt.entry rt.timer = some n → v.rd e 0x0B i 0 = 5 → v.timerExpired e n = true →
      ∃ t : State, exec (.approachLockExpiry i) s = .next t ∧ t.lanes.get l =
        after (((if (v.route i).auxMark then v.routeEvent e evRouteReleased i (v.route i) 0x06 else v).freeRoute e i true).applyFrees e)) ∧
    (∀ o n, f.overlaps[i]? = some o → f.timerNo o.start o.timer = some n → v.rowsOwned e (ownerOverlap i) ≠ [] → v.timerExpired e n = true →
      (occupied (v.sectionState e o.trigger) = true ∨ i ∈ v.core.ovlAux) →
      ∃ t : State, exec (.overlapReleaseExpiry i) s = .next t ∧ ∃ u, u = (v.dropOverlap i).freeOwned e (ownerOverlap i) none ∧
        t.lanes.get l = after { u with core := { u.core with ovlAux := removeAll u.core.ovlAux i } }) ∧
    (v.rd e 0x0B i 0 ≠ 0 → (v.route i).slot.isSome = true → (v.route i).timeout = 0 →
      ∃ t : State, exec (.routeStalled i) s = .next t ∧ t.lanes.get l = after
        ((((v.endRequest e i (v.route i) 0x04 0).routeEvent e evRouteStalled i (v.route i) 0x04).setRoute i
          { v.route i with slot := none, withdrawn := true, clearReq := false }).setState e i (v.rd e 0x0B i 0))) ∧
    (∀ p m, f.points[i]? = some p → m = v.pointMem i → m.drive ≠ 0 → member (v.rd e 0x06 i 1) 3 = true → v.detection e p ≠ m.drive →
      f.floorCycles p.stroke ≤ v.rd e 0x06 i 2 → ∃ (t : State) (u w : Ev), exec (.pointStroke i) s = .next t ∧
        u = v.raise evPointStroke (leBytes 2 p.id) ∧ (m.slot = none → w = u) ∧
        (∀ k, m.slot = some k → w = u.hand (outRec false p.id (some k) 0x03 0x05 e.now)) ∧
        t.lanes.get l = after (((((w.setPointMem i { m with drive := 0, goal := 0, slot := none, asked := 0, byRequest := false }).wr e 0x06 i 0 5).wr
          e 0x06 i 1 (setMember (setMember (v.rd e 0x06 i 1) 3 false) 0 false)).wr e 0x06 i 2 0).stopDrives e p)) ∧
    (∀ p m sec out b, f.points[i]? = some p → m = v.pointMem i → (∀ j, f.sectionNo p.sec = some j → sec = v.rd e 0x08 j 0) →
      (f.sectionNo p.sec = none → sec = 0) → out = lossStep (f.floorCycles p.filter) (v.detection e p) (p.typ == 3) (sec == 1 || sec == 2) m →
      m.drive = 0 → m.goal = 0 → out.2.2 = true →
      b = (if (v.machineReadings e p).any (· == 3) then setMember (v.rd e 0x06 i 1) 4 false else v.rd e 0x06 i 1) →
      ∃ t : State, exec (.pointLost i) s = .next t ∧ t.lanes.get l = after ((((v.raise evPointLost (leBytes 2 p.id)).setPointMem i
        { m with loss := out.1, failed := true }).wr e 0x06 i 0 5).wr e 0x06 i 1 (setMember b 0 false))) ∧
    (∀ a g n, f.authorities[i]? = some a → kvGet v.core.stagings i = some g → f.timerNo a.offer a.timer = some n → v.timerExpired e n = true →
      ∃ t : State, exec (.auxWindowExpiry i) s = .next t ∧ t.lanes.get l = after (((v.endStaging e i g 0x0A 0x10).stopWindow e a).offers e [] i a)) ∧
    (∀ p j, v.core.stagings = [p] → p.2.confirmed = some j → p.1 % 8 = i → j + 3 ≤ s.net.count →
      ∃ t : State, exec (.auxNotCounted i) s = .next t ∧ t.lanes.get l = after ((v.stagingRecord e i p.2 0x03 0x15).setStagings []))

/-- Signal proving, section sweep and crossing expiries: what each does (R138, R144, R146, R147, R148). For a lane in service with a
forme: three proofs of the stop aspect restore m0; a sweep whose time has run out (counted beyond a word) disturbs the section
and raises ev.section_disturbed; a warning time that ends moves the crossing to state 3, or to 5 for a type 1 crossing proved;
dark lights or a late lowering fail the crossing with cause 1 or 2 and ev.crossing_fail; restored lights resume it; an opening
crossing whose lowering time ends is open. -/
def Obligations.SignalSectionAndCrossingExpiries : Prop :=
  ∀ (s : State) (l : LaneId) (f : Forme) (e : Env) (v : Ev) (i : Nat), s.power.running = true → s.laneIn l = true →
    (s.lanes.get l).forme = some f → e = s.envOf l f → v = Ev.start (s.lanes.get l).core →
    ∃ after : Ev → LaneState, after = (s.lanes.get l).take ∧
    ((kvGetD v.core.signals i .empty).cmd = 0 → 3 ≤ (kvGetD v.core.signals i .empty).stops →
      ∃ t : State, exec (.signalM0Restore i) s = .next t ∧ t.lanes.get l = after (v.wr e 0x07 i 2 (setMember (v.rd e 0x07 i 2) 0 true))) ∧
    (∀ r, f.sections[i]? = some r → v.rd e 0x08 i 0 = 1 → f.floorCycles (r.sweep * 1000) ≤ v.sweepCount e i →
      ∃ (t : State) (u : Ev), exec (.sweepTimeout i) s = .next t ∧ u = v.raise evSectionDisturbed (leBytes 2 r.id) ∧
        t.lanes.get l = after ((({ u with core := { u.core with swept := removeAll u.core.swept i, sweeps := kvDel u.core.sweeps i } } : Ev).wr e 0x08 i 0 0).wr e 0x08 i 3 0)) ∧
    (∀ x m, f.crossings[i]? = some x → m = kvGetD v.core.crossings i .empty →
      (v.rd e 0x0A i 0 = 2 → f.ceilCycles x.warning ≤ v.rd e 0x0A i 1 → x.typ ≠ 1 →
        ∃ t : State, exec (.warningTimeExpiry i) s = .next t ∧ t.lanes.get l = after (v.putCrossing e i x 3 0)) ∧
      (v.rd e 0x0A i 0 = 2 → f.ceilCycles x.warning ≤ v.rd e 0x0A i 1 → x.typ = 1 → v.input e x.proving = true →
        ∃ t : State, exec (.warningTimeExpiry i) s = .next t ∧ t.lanes.get l = after (v.putCrossing e i x 5 0)) ∧
      (∀ late cause u, (late = true ↔ v.rd e 0x0A i 0 = 3 ∧ x.typ ≠ 1 ∧ (∃ r ∈ x.downs, refNone r = false ∧ v.input e r = false) ∧
          f.floorCycles x.lowering ≤ v.rd e 0x0A i 1) →
        v.rd e 0x0A i 0 ≠ 0 → (late = true ∨ 2 ≤ m.dark) → cause = (if late then 2 else 1) →
        u = v.raise evCrossingFail (leBytes 2 x.id ++ leBytes 1 cause) →
        ∃ (t : State) (w : LaneCore), exec (.crossingFail i) s = .next t ∧
          w = { u.core with crossings := kvSet u.core.crossings i { cause := cause, dark := 0, lit := 0, again := false, back := false } } ∧
          t.lanes.get l = after (({ u with core := w } : Ev).putCrossing e i x 0 0)) ∧
      (v.rd e 0x0A i 0 = 0 → m.cause = 1 → 3 ≤ m.lit → ∃ (t : State) (w : LaneCore) (u : Ev), exec (.crossingLightsRestored i) s = .next t ∧
          w = { v.core with crossings := kvSet v.core.crossings i { cause := 0, dark := 0, lit := m.lit, again := false, back := false } } ∧
          u = { v with core := w } ∧ t.lanes.get l = after (u.putCrossing e i x (resumeState x.typ (u.crossingView e i x)) 0)) ∧
      (v.rd e 0x0A i 0 = 6 → (v.crossingView e i x).trigger = false → f.ceilCycles x.lowering ≤ v.rd e 0x0A i 1 →
        ∃ t : State, exec (.openingLoweringExpiry i) s = .next t ∧ t.lanes.get l = after (v.putCrossing e i x 1 0)))

/-- Discrepancy, feedback, standstill and simultaneity of the machine guard functions (R216, R218, R220, R221). For a lane in
service with a forme and a function record: a discrepancy time reached latches its channel, clears m0 and m1 and raises
ev.guard_discrepancy; a feedback time reached clears m0 and m2 and raises ev.guard_feedback; a standstill that lasts its time
with a history that has been sound for the whole window sets m0, m3 and m9; a second hand that comes too late withdraws the
grant. -/
def Obligations.GuardFunctionExpiries : Prop :=
  ∀ (s : State) (l : LaneId) (f : Forme) (e : Env) (v : Ev) (i : Nat) (g : FuncRec) (b : FuncBits), s.power.running = true → s.laneIn l = true →
    (s.lanes.get l).forme = some f → e = s.envOf l f → v = Ev.start (s.lanes.get l).core → f.funcs[i]? = some g →
    b = FuncBits.ofX (v.rd e 0x13 i 0) →
    ∃ (after : Ev → LaneState) (m : FuncMem), after = (s.lanes.get l).take ∧ m = v.funcMem i ∧
    (∀ one two : Bool, (one = true ↔ f.floorCycles g.disc ≤ v.rd e 0x13 i 3) → (two = true ↔ g.typ = 0x12 ∧ f.floorCycles g.disc ≤ m.disc2) →
      0x10 ≤ g.typ → b.m1 = true → (one = true ∨ two = true) → ∃ t : State, exec (.guardDiscrepancy i) s = .next t ∧ t.lanes.get l =
        after (((v.raise evGuardDiscrepancy (leBytes 2 g.id)).setFuncMem i { m with latch1 := m.latch1 || one, latch2 := m.latch2 || two }).wr e 0x13 i 0
          (FuncBits.x { b with m0 := false, m1 := false, m3 := b.m3 && decide (g.resetMode ≠ 2) }))) ∧
    (refNone g.feedback = false → b.m2 = true → f.floorCycles g.fbDelay ≤ (if g.typ < 0x10 then m.fb else v.rd e 0x13 i 4) →
      ∃ t : State, exec (.guardFeedback i) s = .next t ∧ t.lanes.get l =
        after ((v.raise evGuardFeedback (leBytes 2 g.id)).wr e 0x13 i 0 (FuncBits.x { b with m0 := false, m2 := false }))) ∧
    (g.typ = 3 → b.m1 = true → b.m2 = true → b.m4 = true → (refNone g.feedback = true ∨ v.monitoredOn e g = true ∨ v.input e g.feedback = true) →
      m.sound = g.window + 1 → f.ceilCycles g.still ≤ v.rd e 0x13 i 3 → ∃ t : State, exec (.standstillProven i) s = .next t ∧ t.lanes.get l =
        after (v.wr e 0x13 i 0 (FuncBits.x { b with m0 := true, m3 := true, m9 := true }))) ∧
    (g.typ = 0x12 → m.awaiting = true → f.floorCycles g.simul ≤ v.rd e 0x13 i 6 → ∃ t : State, exec (.simultaneityExpiry i) s = .next t ∧
      t.lanes.get l = after ((v.setFuncMem i { m with awaiting := false, granted := false }).wr e 0x13 i 0 (FuncBits.x { b with m0 := false })))

/-- The expiries of the lanes' engines change nothing but the lanes in service (R10, R11, 95_what_each_step_holds.md). For the 19
rows of routes, points, signals, sections, crossings, guard functions, auxiliary windows and the external energy procedure: the
next state differs in the lanes alone; a lane out of service, without a forme or of a module that does not run is unchanged; and
in every lane the reset and gate state, the forme slots, the checkpoint halves and the galley are unchanged and its events and
records only grow at their end. -/
def Obligations.ExpiriesActOnLanesAlone : Prop :=
  ∀ (s : State) (i : Nat) (c : Instr), c ∈ [.timerExpiry i, .approachLockExpiry i, .overlapReleaseExpiry i, .routeStalled i, .pointStroke i,
      .pointLost i, .signalM0Restore i, .sweepTimeout i, .warningTimeExpiry i, .crossingFail i, .crossingLightsRestored i,
      .openingLoweringExpiry i, .guardDiscrepancy i, .guardFeedback i, .standstillProven i, .simultaneityExpiry i, .auxWindowExpiry i,
      .auxNotCounted i, .externalEnergyProcedure i] →
    ∃ ls, exec c s = .next { s with lanes := ls } ∧
      (∀ l, s.laneIn l = false ∨ (s.lanes.get l).forme = none ∨ s.power.running = false → ls.get l = s.lanes.get l) ∧
      (∀ l, (ls.get l).held = (s.lanes.get l).held ∧ (ls.get l).gate = (s.lanes.get l).gate ∧ (ls.get l).slot0 = (s.lanes.get l).slot0 ∧
        (ls.get l).slot1 = (s.lanes.get l).slot1 ∧ (ls.get l).half0 = (s.lanes.get l).half0 ∧ (ls.get l).half1 = (s.lanes.get l).half1 ∧
        (ls.get l).galley = (s.lanes.get l).galley ∧ (s.lanes.get l).events <+: (ls.get l).events ∧
        (s.lanes.get l).records <+: (ls.get l).records ∧ (s.lanes.get l).recs <+: (ls.get l).recs)

/-- The in-service proof is requested, isolates a lane, and its verdict decides whether the lane comes back (R372, R373, R375,
R376). In Operation after 86 400 s the next lane's proof is requested; a deferral raises ev.proof_deferred; the lane is isolated
only between cycles, with three healthy lanes, no overrun, no exchange and no safe state, its gate drive off and its checkpoint
writing ended, and ev.proof_started is raised. A proof that ends, in time or not, stores its record, whose verdict is 0 exactly
when signature, count and end seal are right, a CRC engine under proof gives the check values of Table 2-7, and it was in time;
an isolated lane with verdict 0 is due to rejoin, with another verdict it is excluded with its gate off. -/
def Obligations.ProofsRunAndAreJudged : Prop :=
  ∀ (s : State), s.power.running = true →
    (s.host.stewardUp = true → s.life.state = .operation → 86400 ≤ s.life.inServiceS → s.proofs.busy = false →
      ∃ t : State, exec .inServiceProofRequest s = .next t ∧ t.proofs = { s.proofs with requested := some (s.proofs.nextLane, 2) } ∧
        t = { s with proofs := t.proofs }) ∧
    (∀ l, s.proofs.requested = some (l, 2) → exec .proofDeferred s = .next (s.raise evProofDeferred (leBytes 1 l.num))) ∧
    (∀ l k, s.proofs.requested = some (l, k) →
      (s.isolationOk = true ↔ s.platen.cycleOpen = false ∧ s.forme.isSome = true ∧ s.platen.safe = false ∧ s.xchg.state = .idle ∧
        s.platen.overrunRun = 0 ∧ ∀ m, s.platen.lanes.get m = .inService 0 ∧ (s.lanes.get m).held = false) ∧
      (s.isolationOk = false → exec .laneIsolation s = .next s) ∧
      (s.isolationOk = true → ∃ u t : State, exec .laneIsolation s = .next t ∧ t = u.raise evProofStarted (leBytes 2 (1 + l.num) ++ leBytes 1 k) ∧
        (u.lanes.get l).gate = false ∧ (u.lanes.get l).writing = none ∧ (u.lanes.get l).core = (s.lanes.get l).core ∧
        (∀ m, m ≠ l → u.lanes.get m = s.lanes.get m) ∧
        u.platen = { s.platen with lanes := s.platen.lanes.set l .isolated } ∧ u.proofs.running = some (1 + l.num, k) ∧ u.proofs.requested = none ∧
        (k = 2 → u.life = { s.life with inServiceS := 0 } ∧ u.proofs.nextLane = nextLane l) ∧
        (k ≠ 2 → u.life = s.life ∧ u.proofs.nextLane = s.proofs.nextLane) ∧ u.field = s.field ∧ u.net = s.net ∧ u.host = s.host)) ∧
    (∀ r k, s.proofs.running = some (r.block, k) → ∀ late c, (late = false ∧ c = .proofComplete r) ∨ (late = true ∧ c = .proofTimeout r) →
      ∃ (t : State) (x : ProofRec), exec c s = .next t ∧ t.proofs.running = none ∧ x ∈ t.proofs.results ∧ x.block = r.block ∧ x.kind = k ∧
        (x.verdict = 0 ↔ r.signature = r.wanted ∧
          (0x30 ≤ r.block → r.block ≤ 0x37 → r.checks = [0xE3069283, 0xCBF43926, 0x29B1, 0x995DC9BBDF1939FA]) ∧ r.applied = r.expected ∧
          r.endSeal.toNat = crc32c (leBytes 2 r.block ++ leBytes 4 r.applied ++ leBytes 8 r.signature.toNat) ∧ late = false) ∧
        (x.verdict = ofMembers [r.signature != r.wanted || !engineOk r, r.applied != r.expected, proofSeal r.block r.applied r.signature != r.endSeal.toNat, late]) ∧
        (∀ l, blockLane r.block = some l → s.platen.lanes.get l = .isolated →
          (x.verdict = 0 → t.proofs.rejoin = some l ∧ t.platen = s.platen) ∧
          (x.verdict ≠ 0 → t.platen.lanes.get l = .excluded ∧ (t.lanes.get l).gate = false)))

/-- A proved lane rejoins from the two others; prf.run and prf.result answer as R378 says (R377, R378). At a strobe with a rejoin
due, the lane takes a common core of the two serving lanes and is in service, or is excluded if they do not agree; both
checkpoint halves are kept. prf.run is refused with STATE in Operation and Retired, with BUSY during a proof, and with STATE for
the blocks that need a module without forme; it requests the proof of a lane, or runs the block, a bank under proof being
blocked and a port under proof held down. prf.result answers the stored records of its block. -/
def Obligations.UserProofsAndRejoin : Prop :=
  ∀ (s : State) (e : Entry) (x : Sample),
    (∀ l p q f, s.canStrobe = true → s.rejoinDue = some l → s.lanesIn = [p, q] → s.forme = some f →
      ∃ t : State, exec (.laneRejoin x) s = .next t ∧ t.platen.lengthened = true ∧ t.platen.cycleOpen = true ∧ t.net.count = s.net.strobeCount ∧
        t.proofs.rejoin = none ∧ (t.lanes.get l).half0 = (s.lanes.get l).half0 ∧ (t.lanes.get l).half1 = (s.lanes.get l).half1 ∧
        ((rejoinCore l p q (s.lanes.get p).core (s.lanes.get q).core s.net.strobeCount).isSome = true → t.platen.lanes.get l = .inService 0 ∧
          (t.lanes.get l).held = false ∧ (t.lanes.get l).gate = true) ∧
        (rejoinCore l p q (s.lanes.get p).core (s.lanes.get q).core s.net.strobeCount = none → t.platen.lanes.get l = .excluded ∧ (t.lanes.get l).held = true)) ∧
    (∀ u o b, s.accepts 0x1401 true true e u o → Entry.size e 4 = true → b = Entry.field e 0 2 →
      (s.life.state = .operation ∨ s.life.state = .retired → exec (.prfRun e) s = .next (u.answer o .state 0 [])) ∧
      (s.life.state ≠ .operation → s.life.state ≠ .retired → isBlock b = true →
        (s.proofs.busy = true → exec (.prfRun e) s = .next (u.answer o .busy 0 [])) ∧
        (s.proofs.busy = false → s.forme.isSome = true → b ∈ [0x18, 0x24, 0x39, 0x40] → exec (.prfRun e) s = .next (u.answer o .state 0 [])) ∧
        (s.proofs.busy = false → s.forme.isSome = true → ∀ l, blockLane b = some l → ∃ p, p = { s.proofs with requested := some (l, 3) } ∧
          exec (.prfRun e) s = .next (({ u with proofs := p } : State).answer o .done 0 (leBytes 2 b))) ∧
        (s.proofs.busy = false → (s.forme = none ∨ (blockLane b = none ∧ b ∉ [0x18, 0x24, 0x39, 0x40])) →
          ∃ t : State, exec (.prfRun e) s = .next (t.answer o .done 0 (leBytes 2 b)) ∧ t.proofs.running = some (b, 3) ∧
            (s.forme = none → t.field = s.field ∧ t.lanes = s.lanes ∧ t.net = s.net) ∧
            (∀ k, s.forme.isSome = true → blockBank b = some k → t.bankBlocked k = true) ∧
            (∀ p, s.forme.isSome = true → blockPort b = some p → (t.net.ports.get p).heldDown = true ∧ (t.net.ports.get p).mode = .down)))) ∧
    (∀ u o b, s.accepts 0x1402 false true e u o → Entry.size e 4 = true → b = Entry.field e 0 2 → isBlock b = true →
      exec (.prfResult e) s = .next (u.answer o .done 0 (s.proofs.recordsOf b)))

/-- Dark tests, axle sequences, frequency pulses, wire breaks and the external energy procedure (R61, R62, R195, R196, R197, R205).
On the variant and channel that the row needs: a dark test stores what it found at its output or bank path, stuck switches among
it; the axle sequence of a head counts in or out by the order of its systems in each of its two counters, one of which may miss
it; a pulse too short is no pulse, one beside a sound one is a lone pulse and clears m2; gap and overlap are judged. A frequency
pulse too short marks its channel, else its period joins the record of each counter. A broken wire marks its channel. The
external energy procedure holds the bank; at the following strobes it blocks the output that still reads energised, and the bank
with it where its switch does not open or where three strobes have passed without a status. -/
def Obligations.FieldInputsAndDarkTests : Prop :=
  ∀ (s : State) (f : Forme), s.fieldOn = true → s.forme = some f →
    (∀ vo d, s.hasVital vo = true → s.platen.safe = false → ∃ t : State, exec (.darkTestOutput vo d) s = .next t ∧ t.lanes = s.lanes ∧
      t.platen = s.platen ∧ t.host = s.host ∧ t.field.permits = s.field.permits ∧
      (s.voEnergised vo = true → d.dip = true → t = s) ∧
      (s.voEnergised vo = true → d.dip = false → ∀ others, others = (d.othersOff.filter (fun o => o != vo && s.hasVital o && s.voEnergised o)) →
        ((vo ∉ t.field.voBad) ↔ d.readsOn = false ∧ (∀ n ∈ d.conducting, ¬ n < 6) ∧ others = []) ∧
        ∃ new, t.field.findings = s.field.findings ++ new ∧ ((1, vo) ∈ new ↔ d.readsOn = true) ∧
          ((3, vo) ∈ new ↔ ∃ n ∈ d.conducting, n < 6) ∧ (∀ o ∈ others, (2, vo + 16 * o) ∈ new)) ∧
      (s.voEnergised vo = false → t.field.findings = s.field.findings ∧
        ((vo ∉ t.field.voBad) ↔ d.readsOn = false ∧ ∀ n ∈ d.conducting, ¬ n < 6)) ∧
      (s.voEnergised vo = false ∨ d.dip = false → ∀ n, n < 6 → ((vo, n) ∈ t.field.stuckClosed ↔ n ∈ d.conducting))) ∧
    (∀ bank path c, 4 ≤ bank → s.hasBank bank = true → path < 3 → s.platen.safe = false →
      ∃ (t : State) (bad : Bool), exec (.darkTestBankPath bank path c) s = .next t ∧ (bad = true ↔ ∃ n ∈ pathSwitches path, n ∈ c) ∧
        t.field.permits = s.field.permits ∧ t.lanes = s.lanes ∧
        (s.itemOn (12 + bank) = false ∨ s.lanesIn.length = 3 → ((3 * bank + path) ∈ t.field.pathBad ↔ bad = true)) ∧
        (s.itemOn (12 + bank) = true → s.lanesIn.length = 3 → t.field.findings = s.field.findings ++ (if bad then [(4, bank)] else [])) ∧
        (s.itemOn (12 + bank) = true → s.lanesIn.length < 3 → t.field.skips = sat32 s.field.skips 1 ∧ t.field.pathBad = s.field.pathBad)) ∧
    (∀ even h p (first second : Bool), f.headOf even = some h → s.ident.variant = .f → f.hasFunc even 3 = true →
      (first = true ↔ h.minPulse ≤ p.pulseUs) → (second = true ↔ h.minPulse ≤ p.otherUs ∧ p.lone = false) →
      ∃ t : State, exec (.axleSequence even p) s = .next t ∧ t.lanes = s.lanes ∧
        (first = false → second = false → t = s) ∧
        (first = true → second = true → p.complete = true → h.overlap ≤ p.overlapUs → t.field.seqBad = s.field.seqBad ∧
          (∀ n, n = (if p.evenLeads then 1 else 65535) →
            (p.miss ≠ 1 → kvGetD t.field.counts even 0 = (kvGetD s.field.counts even 0 + n) % 65536) ∧
            (p.miss ≠ 2 → kvGetD t.field.counts2 even 0 = (kvGetD s.field.counts2 even 0 + n) % 65536)) ∧
          (p.miss = 1 → t.field.counts = s.field.counts) ∧ (p.miss = 2 → t.field.counts2 = s.field.counts2)) ∧
        (first = false ∨ second = false ∨ p.complete = false ∨ p.overlapUs < h.overlap →
          t.field.counts = s.field.counts ∧ t.field.counts2 = s.field.counts2) ∧
        (first ≠ second ∨ (first = true ∧ p.complete = true ∧ p.overlapUs < h.overlap) → even ∈ t.field.seqBad) ∧
        (first = true ∨ second = true → p.gapUs * h.maxFreq < 1000000 ∨ p.gapUs < 100 → even ∈ t.field.rateBad)) ∧
    (∀ ch pulse period since miss, s.ident.variant = .f → f.hasFunc ch 4 = true →
      ∃ (t : State) (entry : Int × Nat), exec (.frequencyPulse ch ⟨pulse, period, since⟩ miss) s = .next t ∧ entry = (-((1000 * since : Nat) : Int), period) ∧
      t.lanes = s.lanes ∧ (pulse < 40 → ch ∈ t.field.freqBad ∧ t.field.periods = s.field.periods ∧ t.field.periods2 = s.field.periods2) ∧
      (40 ≤ pulse → (miss ≠ 1 → kvGetD t.field.periods ch [] = entry :: kvGetD s.field.periods ch []) ∧
        (miss ≠ 2 → kvGetD t.field.periods2 ch [] = entry :: kvGetD s.field.periods2 ch []) ∧
        (miss = 1 → t.field.periods = s.field.periods) ∧ (miss = 2 → t.field.periods2 = s.field.periods2) ∧
        (period < 100 → ch ∈ t.field.freqBad) ∧ (100 ≤ period → t.field.freqBad = s.field.freqBad))) ∧
    (∀ ch, s.ident.variant = .l → f.hasFunc ch 5 = true → ∃ t : State, exec (.wireBreak ch) s = .next t ∧ t.lanes = s.lanes ∧
      t.field = { s.field with lineBad := insertOnce s.field.lineBad ch }) ∧
    (∀ l g e v bank (bad : Nat → Prop), s.laneIn l = true → (s.lanes.get l).forme = some g → e = s.envOf l g → v = Ev.start (s.lanes.get l).core →
      (∀ vo, bad vo ↔ vo < 16 ∧ bankOf vo = bank ∧ v.voOff e vo = true ∧ v.voReads e vo = true ∧ vo ∉ v.core.voBlocked) →
      ∃ t : State, exec (.externalEnergyProcedure bank) s = .next t ∧
        (s.platen.safe = true ∨ (∃ h ∈ v.core.holds, h.bank = bank) ∨ (∀ vo, ¬ bad vo) → t.lanes.get l = (s.lanes.get l).take v) ∧
        (∀ vo, s.platen.safe = false → (∀ h ∈ v.core.holds, h.bank ≠ bank) → bad vo → (∀ k, bad k → k = vo) →
          ∃ u : Ev, u = { v with core := { v.core with holds := v.core.holds ++ [{ bank := bank, vos := [vo], strobes := 0 }] } } ∧
            t.lanes.get l = (s.lanes.get l).take (u.extEnergised vo 0))) ∧
    (∀ (e : Env) (v u : Ev) bank vo n (h : BankHold), h = { bank := bank, vos := [vo], strobes := n } → v.core.holds = [h] →
      u = { v with core := { v.core with holds := [] } } →
      (∀ x, v.bankStatus e bank = some x → member x 11 = false → v.voReads e vo = true → v.judgeHold e h = (u.blockVo vo).extEnergised vo 1) ∧
      (∀ x, v.bankStatus e bank = some x → member x 11 = false → v.voReads e vo = false →
        v.judgeHold e h = ((u.blockVo vo).blockBank bank).extEnergised vo 2) ∧
      (v.bankStatus e bank = none ∨ (∃ x, v.bankStatus e bank = some x ∧ member x 11 = true) →
        (2 ≤ n → v.judgeHold e h = ((u.blockVo vo).blockBank bank).extEnergised vo 2) ∧
        (n < 2 → (v.judgeHold e h).core = { v.core with holds := [{ h with strobes := n + 1 }] })))

/-- Field supplies, overloads, thermal retries and the field link: permits, outputs and events (R198, R199, R202, R203). A supply
outside 17.5 V to 32 V marks its bank and withdraws its outputs with ev.field_supply 0, one between 19.2 V and 30 V clears the
mark with ev.field_supply 1 and gives no permit back; an overloaded vital output loses its permits until every lane has
commanded it off; an overloaded universal output is off; a bank overload switches the whole bank off; a thermal retry releases
its bank or channel; the loss of the field link withdraws every permit and universal output, loses the sealed words and raises
ev.field_link. -/
def Obligations.SuppliesAndOverloads : Prop :=
  ∀ (s : State), s.fieldOn = true →
    (∀ bank mv, s.hasBank bank = true → (mv < 17500 ∨ 32000 < mv) → bank ∉ s.field.outOfRange →
      ∃ t u : State, exec (.fieldSupplyOutOfRange bank mv) s = .next t ∧ bank ∈ t.field.outOfRange ∧
        (∀ p, p ∈ t.field.permits ↔ p ∈ s.field.permits ∧ ¬(p.item < 16 ∧ bankOf p.item = bank)) ∧ (∀ ch ∈ t.field.uoOn, channelBank ch ≠ bank) ∧
        u.host = s.host ∧ u.recorder = s.recorder ∧ t.host = (u.raise evFieldSupply (leBytes 1 bank ++ leBytes 1 0)).host ∧ t.lanes = s.lanes ∧ t.platen = s.platen) ∧
    (∀ bank mv, s.hasBank bank = true → 19200 ≤ mv → mv ≤ 30000 → bank ∈ s.field.outOfRange →
      ∃ t u : State, exec (.fieldSupplyInRange bank mv) s = .next t ∧ bank ∉ t.field.outOfRange ∧ t.field.permits = s.field.permits ∧
        t.field.uoOn = t.field.universalOn ∧ u.host = s.host ∧ t.host = (u.raise evFieldSupply (leBytes 1 bank ++ leBytes 1 1)).host ∧ t.lanes = s.lanes) ∧
    (∀ vo, s.hasVital vo = true → s.voEnergised vo = true → ∃ t u : State, exec (.outputOverload true vo) s = .next t ∧
      (∀ p, p ∈ t.field.permits ↔ p ∈ s.field.permits ∧ p.item ≠ vo) ∧ (∀ l, (l, vo) ∈ t.field.needOff) ∧ t.lanes = s.lanes ∧
      u.host = s.host ∧ t.host = (u.raise evOutputOverload (leBytes 1 (32 + vo))).host) ∧
    (∀ ch, s.hasUniversal ch = true → ch ∈ s.field.uoOn → ∃ t u : State, exec (.outputOverload false ch) s = .next t ∧ ch ∉ t.field.uoOn ∧
      t.field.permits = s.field.permits ∧ u.host = s.host ∧ t.host = (u.raise evOutputOverload (leBytes 1 ch)).host) ∧
    (∀ bank, s.bankLive bank = true → ∃ t u : State, exec (.bankOverload bank) s = .next t ∧ t.lanes = s.lanes ∧
      (bank < 4 → (∀ ch ∈ t.field.uoOn, channelBank ch ≠ bank) ∧ t.field.permits = s.field.permits) ∧
      (4 ≤ bank → bank ∈ t.field.overload ∧ (∀ p ∈ t.field.permits, bankOf p.item ≠ bank)) ∧
      u.host = s.host ∧ t.host = (u.raise evBankOverload (leBytes 1 bank)).host) ∧
    (∀ n, (∃ t : State, exec (.thermalRetry true n) s = .next t ∧ n ∉ t.field.ubankOff ∧ t.field.uoOn = t.field.universalOn ∧ t.field.permits = s.field.permits) ∧
      (channelBank n ∉ s.field.ubankOff → ∃ t : State, exec (.thermalRetry false n) s = .next t ∧ n ∉ t.field.uoThermal ∧
        t.field.uoOn = t.field.universalOn ∧ t.field.permits = s.field.permits)) ∧
    (∃ (t : State) (d : Field), d = { s.field with link := false, permits := [], uoOn := [], sealed := [] } ∧ exec .fieldLink s = .next t ∧
      t = ({ s with field := d } : State).raise evFieldLink [0x00] ∧ t.outputsOpen = true ∧ t.lanes = s.lanes)

/-- A port is negotiated, qualified and comes up, and a lost link is counted and reported (R229, R230, R231). With the network on,
for a port and the row of its mode: sync or retry starts negotiation with the module's own base page (full duplex, no pause, no
remote fault) unless the port is held down or the network is stopped; an accepted full-duplex page without remote fault starts
qualification, another takes the port down; qualification takes the largest latency that the frames' time stamps give, rounded
as R230 says, and brings the port up exactly when the neighbour, the code and PRBS errors together (against the NET.QUAL_ERR_MAX
then taken into use) and the latency pass, and it is not yet joined; a link that goes down from up is counted with ev.link_down,
from negotiation without. Other ports, lanes, votes and field side are unchanged. -/
def Obligations.LinksComeUpAndGoDown : Prop :=
  ∀ (s : State) (p : PortId) (page : BasePage) (q : QualResult) (cause : Nat) (m : LinkMode), s.netOn = true → (s.net.ports.get p).mode = m →
    (m = .down → s.net.mode ≠ .stopped → (s.net.ports.get p).heldDown = false →
      exec (.linkSyncAcquired p) s = .next (s.setPort p (fun x => { x with mode := .negotiating, page := some ownPage })) ∧
      exec (.linkRetry p) s = .next (s.setPort p (fun x => { x with mode := .negotiating, page := some ownPage })) ∧
      ownPage.fullDuplex = true ∧ ownPage.pause = 0 ∧ ownPage.remoteFault = 0) ∧
    (m = .negotiating → page.accepted = true ∧ page.fullDuplex = true ∧ page.remoteFault = 0 →
      exec (.autoNegotiation p page) s = .next (s.setPort p (fun x => { x with mode := .qualifying }))) ∧
    (m = .negotiating → page.accepted = false ∨ page.fullDuplex = false ∨ page.remoteFault ≠ 0 →
      exec (.autoNegotiation p page) s = .next (s.setPort p (fun x => { x with mode := .down }))) ∧
    (m = .qualifying → ∃ t : State, exec (.linkQualification p q) s = .next t ∧ (t.net.ports.get p).latency = (q.stamps.map stampLatency).foldl max 0 ∧
      (∀ r, r ≠ p → t.net.ports.get r = s.net.ports.get r) ∧ t.platen = s.platen ∧ t.lanes = s.lanes ∧ t.field = s.field ∧
      ((t.net.ports.get p).mode = .up ↔ s.neighbourOk p q = true ∧ q.codeErrors + q.prbsErrors ≤ s.takeQualMax.inUse 0x0C04 ∧ q.stamps ≠ [] ∧
        s.latencyOk ((q.stamps.map stampLatency).foldl max 0) = true) ∧
      ((t.net.ports.get p).mode ≠ .up → (t.net.ports.get p).mode = .down ∧ t.net.mode = s.net.mode) ∧
      ((t.net.ports.get p).mode = .up → (t.net.ports.get p).joined = false)) ∧
    (m = .up → ∃ u t : State, exec (.linkDown p cause) s = .next t ∧ u.host = s.host ∧
      u = s.setPort p (fun x => { x.count 6 with mode := .down, joined := false }) ∧ t = u.raise evLinkDown (leBytes 1 p.num ++ leBytes 1 cause)) ∧
    (m = .down → exec (.linkDown p cause) s = .next s) ∧
    (m = .negotiating ∨ m = .qualifying → exec (.linkDown p cause) s = .next (s.setPort p (fun x => { x with mode := .down })))

/-- Frames are sent in slots and minislots, checked, compared copy by copy, and buffers age at the boundary (R234, R237, R240, R245,
R246, R248, R256). From the cycle after the node began to run, a static slot that the forme uses sends the frame of the entry
the node owns on each port of its side, with header, count, phase, words and CRC, but on a port whose guardian cuts it, which
counts 7; while no count is known the words are 0. A minislot sends the segment picked for one of the node's identifiers where
it fits, beside a frame heard, and advances by what the frames fill, at least one. Frames are taken on a port that is up and
joined alone; a frame that fails a check is counted and changes nothing else; a valid one notes a sync frame's arrival and adds
at most its copy. A bypass node passes a frame on and does nothing else. In listen a frame that may be followed makes the node
integrate at its network cycle. Copies that differ leave the buffer and count a mismatch; copies that agree fill it. The
boundary ages the buffers, sets count and phase, clears copies and arrivals, joins the ports that are up and advances the
network cycle modulo 256. A node is lost once, with ev.node_lost. -/
def Obligations.FramesSentReceivedAndCompared : Prop :=
  ∀ (s : State) (p : PortId) (fr : Frame) (slot entry : Nat), s.netOn = true →
    (s.net.mode = .running → s.net.sends = true → ∀ f x devs, s.forme = some f → f.usesSlot slot = true → s.net.ownEntry slot = some x →
      ∃ (t : State) (g : Frame) (cut : PortId → Bool), exec (.staticSlotTransmit slot devs) s = .next t ∧
        g = s.ownFrame 1 x.2.slot (s.frameFlags x.2) ((s.entryWords f x.1 x.2).flatMap (fun w => beBytes 8 w.toNat)) ∧
        (s.net.countKnown = false → s.entryWords f x.1 x.2 = List.replicate 8 0) ∧
        (∀ q, cut q = (s.net.ports.get q).cuts (((devs.find? (fun y => y.1 == q)).map (·.2)).getD 0)) ∧
        t.net.sent = ((s.sendPorts.filter (fun q => !cut q)).map
          (fun q => ({ port := q, bytes := frameBytes { g with flags := g.flags + s.portFlags q }, broken := false } : TxFrame))).reverse ++ s.net.sent ∧
        (∀ q, t.net.ports.get q = if q ∈ s.sendPorts ∧ cut q = true then (s.net.ports.get q).count 7 else s.net.ports.get q) ∧
        t.net.buffers = s.net.buffers ∧ t.lanes = s.lanes ∧ t.platen = s.platen ∧ t.field = s.field) ∧
    (s.net.mode = .running → ∀ d heard other, d = (s.net.imp.map (·.minislots)).getD 0 → other = (heard.map minislotsOf).getD 0 →
      s.net.minislot ≤ d →
      (s.ownSegment d s.net.minislot = none → ∃ k, k = { s.net with minislot := s.net.minislot + max 1 other } ∧
        exec (.minislot heard) s = .next { s with net := k }) ∧
      (∀ g b, s.bridge.on = true → s.net.sends = true → s.net.minislot ∈ s.net.dynamicIds → s.bridge.pick = some (g, b) →
        (fitsSegment d s.net.minislot (Segment.words g) = true → ∃ (u v : State) (h : Segment) (k : Net), u = { s with bridge := b.send s.me g } ∧
          u.bridge.sent.head? = some h ∧ h.data = g.data ∧ h.kind = g.kind ∧ h.dest = g.dest ∧ h.sender = s.me ∧
          v = u.emitOwn (u.ownFrame 4 s.net.minislot u.nodeFlags (segmentBytes h)) [] ∧
          k = { v.net with minislot := s.net.minislot + max 1 (max other (minislotsOf (Segment.words g))) } ∧
          exec (.minislot heard) s = .next { v with net := k }) ∧
        (fitsSegment d s.net.minislot (Segment.words g) = false → s.ownSegment d s.net.minislot = none)) ∧
      ((s.bridge.on = false ∨ s.net.sends = false ∨ s.net.minislot ∉ s.net.dynamicIds ∨ s.bridge.pick = none) →
        s.ownSegment d s.net.minislot = none)) ∧
    ((s.net.ports.get p).mode = .up → (s.net.ports.get p).joined = true → s.net.mode = .integrate ∨ s.net.mode = .running →
      ∃ t : State, exec (.frameReceive p fr) s = .next t ∧ t.platen = s.platen ∧ t.lanes = s.lanes ∧ t.net.buffers = s.net.buffers ∧
        (∀ n, (s.forward p fr).frameFail p fr = some n → t = (s.forward p fr).setPort p (fun q => q.count n)) ∧
        ((s.forward p fr).frameFail p fr = none → (fr.typ = 1 → fr.flags.testBit 0 = true → ∃ a ∈ t.net.arrivals, a.1 = fr.sender) ∧
          (t.net.copies = s.net.copies ∨ t.net.copies = s.net.copies ++ [((s.net.entryAt (fr.typ == 4) fr.slot s.net.netCycle).map (·.1) |>.getD 0, p, fr.payload)]))) ∧
    ((s.net.ports.get p).mode = .up → (s.net.ports.get p).joined = true → s.isBypass = true → exec (.frameReceive p fr) s = .next (s.forward p fr)) ∧
    ((s.net.ports.get p).mode ≠ .up ∨ (s.net.ports.get p).joined = false → exec (.frameReceive p fr) s = .next s) ∧
    ((s.net.ports.get p).mode = .up → (s.net.ports.get p).joined = true → s.net.mode = .listen → ∃ t : State, exec (.frameReceive p fr) s = .next t ∧
      ((s.forward p fr).integrates fr = true → t.net.mode = .integrate ∧ t.net.netCycle = fr.netCycle ∧ t.net.good = 0) ∧
      ((s.forward p fr).integrates fr = false → t = s.forward p fr)) ∧
    (∃ t : State, exec (.receiveBufferUpdate entry) s = .next t ∧ (∀ c ∈ t.net.copies, c.1 ≠ entry) ∧ t.lanes = s.lanes ∧
      (s.usedCopies entry = [] → t.net.buffers = s.net.buffers) ∧
      (∀ c l, s.usedCopies entry = c :: l → (∃ d ∈ l, d.2 ≠ c.2) → t.net.buffers = s.net.buffers ∧ t.net.mismatches = sat32 s.net.mismatches 1) ∧
      (∀ c l, s.usedCopies entry = c :: l → (∀ d ∈ l, d.2 = c.2) →
        ∃ b ∈ t.net.buffers, b.entry = entry ∧ b.words = payloadWords 8 c.2 ∧ b.refreshed = true ∧ b.lost = false)) ∧
    (∃ t : State, exec .networkCycleBoundary s = .next t ∧
      t.net.buffers = s.net.buffers.map Buffer.atBoundary ∧ (t.net.count, t.net.phase) = s.nextPhase ∧ t.net.adopt = none ∧ t.net.copies = [] ∧ t.net.arrivals = [] ∧
      (t.net.sends = true ↔ s.net.mode = .running) ∧
      t.net.netCycle = (s.net.netCycle + 1) % 256 ∧ t.net.minislot = 1 ∧ t.net.tx = s.net.txNext.getD s.net.tx ∧ t.net.txNext = none ∧
      (∀ q, (t.net.ports.get q).joined = ((s.net.ports.get q).mode == .up) ∧ (t.net.ports.get q).shut = false) ∧ t.lanes = s.lanes ∧ t.platen = s.platen ∧ t.field = s.field ∧
      (s.isDuplex = false → t.host = s.host)) ∧
    (∀ e b, s.net.mode = .running → s.isMaster = true → s.readsEntry entry = true → s.net.entries[entry]? = some e →
      b = (s.net.buffer entry).getD (Buffer.fresh entry) →
      (s.lostDue e b = true → b.lost = false → ∃ n, n = s.net.setBuffer { b with lost := true } ∧
        exec (.nodeLost entry) s = .next (({ s with net := n } : State).raise evNodeLost (leBytes 2 e.owner))) ∧
      (s.lostDue e b = false ∨ b.lost = true → exec (.nodeLost entry) s = .next s))

/-- Clock correction, silence, coldstart, backoff and integration of the network (R249, R250, R251, R252, R253, R255). With the
network on: the correction is applied with the rate bounded; a deviation above 116 in running silences the node and counts it; a
cycle with no sync frame counts as silent, and after two a node that is no sync node listens; a guardian trip marks its port, is
counted, raises ev.guardian_trip and integrates anew. A node of the coldstart role that has listened its time becomes
coldstarter and is counted; a coldstarter gives way to a lower identity; a collision sends its frame, is counted and backs off
for its identity modulo 16 plus 1 cycles; where nothing lower is heard it sends its coldstart frame (type 2, words of 0, on each
port of its side), runs after the third, sending from the next cycle on. Integration runs after two good cycles, keeps the
network cycle it followed and clears the trips. -/
def Obligations.ClusterStartsAndStaysInTime : Prop :=
  ∀ (s : State) (p : PortId) (missed : List PortId), s.netOn = true →
    (s.net.mode = .running ∨ s.net.mode = .integrate →
      (∀ n, s.net.kern missed = some n → ∃ t : State, exec (.kern missed) s = .next t ∧ t.net.off = n.off ∧ t.net.rc = n.rc ∧ t.net.dev = n.dev ∧ t.lanes = s.lanes ∧
        (s.net.mode = .running ∧ 116 < n.dev → t.net.mode = .integrate ∧ t.net.selfSilence = sat32 s.net.selfSilence 1) ∧
        (s.net.mode = .integrate ∨ n.dev ≤ 116 → t.net = n ∧ n.mode = s.net.mode) ∧ (n.dev ≤ 116 → n.good = s.net.good + 1) ∧
        -s.net.rcMax ≤ n.rc ∧ n.rc ≤ s.net.rcMax) ∧
      (s.net.kern missed = none → ∃ k, k = { s.net with silent := s.net.silent + 1, syncSeen := 0, prev := [], good := 0 } ∧
        exec (.kern missed) s = .next { s with net := k }) ∧
      (2 ≤ s.net.silent → s.net.isSync s.net.self = false → ∃ k, k = { s.net with mode := .listen, silent := 0, good := 0, waited := 0 } ∧
        exec .noSync s = .next { s with net := k }) ∧
      (s.net.silent < 2 ∨ s.net.isSync s.net.self = true → exec .noSync s = .next s) ∧
      ((s.net.ports.get p).tripped = false → ∃ t u : State, exec (.guardianTrip p) s = .next t ∧ t = u.raise evGuardianTrip (leBytes 1 p.num) ∧
        u.net.mode = .integrate ∧ u.net.trips = sat32 s.net.trips 1 ∧ (u.net.ports.get p).tripped = true ∧ u.host = s.host ∧
        (∀ q, q ≠ p → u.net.ports.get q = s.net.ports.get q))) ∧
    (s.net.mode = .listen → s.net.roles.testBit 1 = true → s.listenCycles ≤ s.net.waited → ∃ k, k = { s.net with mode := .coldstart, coldSent := 0, coldstarts := sat32 s.net.coldstarts 1 } ∧
      exec .listenTimeout s = .next { s with net := k }) ∧
    (s.net.mode = .coldstart →
      (∀ id c, id < s.net.self → ∃ t : State, exec (.coldstart (.lowerIdentity id c)) s = .next t ∧ t.net.mode = .integrate) ∧
      (∃ (t : State) (k : Net), t = s.sendColdstart ∧ k = { t.net with mode := .backoff, waited := 0, coldstarts := sat32 s.net.coldstarts 1 } ∧
        exec (.coldstart .collision) s = .next { t with net := k }) ∧
      (∀ r, s.net.entries.find? (fun r => r.owner == s.net.self && r.flags % 2 == 0 && r.flags.testBit 2 && r.k == 1) = some r → ∃ g,
        g = s.ownFrame 2 r.slot (s.frameFlags r) (List.replicate 64 0) ∧ s.sendColdstart.net.sent = (s.sendPorts.map
          (fun q => ({ port := q, bytes := frameBytes { g with flags := g.flags + s.portFlags q }, broken := false } : TxFrame))).reverse ++ s.net.sent) ∧
      (∀ h, h = .nothing ∨ (∃ id c, s.net.self ≤ id ∧ h = .lowerIdentity id c) → s.net.coldSent < 3 → ∃ (t : State) (k : Net), t = s.sendColdstart ∧
        k = { t.net with coldSent := s.net.coldSent + 1 } ∧ exec (.coldstart h) s = .next { t with net := k }) ∧
      (3 ≤ s.net.coldSent → ∃ t : State, exec (.coldstart .nothing) s = .next t ∧ t.net.mode = .running ∧ t.net.netCycle = 0 ∧
        t.net.sends = false ∧
        (t.net.countKnown = true ↔ s.net.countKnown = true ∨ s.isMaster = true))) ∧
    (s.net.mode = .backoff → s.net.self % 16 + 1 ≤ s.net.waited → ∃ k, k = { s.net with mode := .listen, waited := 0 } ∧ exec .backoffExpiry s = .next { s with net := k }) ∧
    (s.net.mode = .integrate → 2 ≤ s.net.good → ∃ t : State, exec .integrationComplete s = .next t ∧ t.net.mode = .running ∧
      t.net.netCycle = s.net.netCycle ∧ t.net.sends = false ∧ (∀ q, (t.net.ports.get q).tripped = false) ∧ (t.net.countKnown = true ↔ s.net.countKnown = true ∨ s.isMaster = true)) ∧
    (s.net.mode = .integrate → s.net.good < 2 → exec .integrationComplete s = .next s)

/-- net.start, net.stop, net.status and net.counters answer as R258 says (R258). Accepted net.start is refused with STATE unless the
network is stopped; from there, with a sound engine, it stores the profile (1 for an unknown one), starts the network with no
count known and answers with what it started, lanes and votes unchanged. net.stop is refused with STATE outside Commissioning,
Maintenance and the safe state or during an exchange, else it stops the network, which sends no more. net.status and
net.counters answer their reports. -/
def Obligations.NetworkCommandsAnswer : Prop :=
  ∀ (s u : State) (e : Entry) (o : Outstanding),
    (s.accepts 0x0C01 true true e u o → Entry.size e 1 = true → ∀ profile, profile = (if Entry.field e 0 1 ≤ 3 then Entry.field e 0 1 else 1) →
      (s.net.mode ≠ .stopped → exec (.netStart e) s = .next (u.answer o .state 0 [])) ∧
      (s.net.mode = .stopped → s.net.engineBad = false → s.power.netDown = false →
        ∃ v w : State, v = (match profileCycle profile with | some ns => (u.store 0x0C01 ns).store 0x0C04 0 | none => u) ∧ w = v.startNet ∧
          exec (.netStart e) s = .next (w.answer o .done 0 (w.netStarted profile)) ∧ w.net.countKnown = false ∧ w.lanes = s.lanes ∧ w.platen = s.platen)) ∧
    (s.accepts 0x0C02 true true e u o →
      (s.netStops = true ↔ (s.life.state = .commissioning ∨ s.life.state = .maintenance ∨ s.platen.safe = true) ∧ s.xchg.state = .idle) ∧
      (s.netStops = false → exec (.netStop e) s = .next (u.answer o .state 0 [])) ∧
      (s.netStops = true → ∃ k, k = { s.net with mode := .stopped, adopt := none, copies := [], arrivals := [], sends := false, good := 0, silent := 0, countKnown := false } ∧
        exec (.netStop e) s = .next (({ u with net := k } : State).answer o .done 0 [0x00]))) ∧
    (s.accepts 0x0C03 false true e u o → exec (.netStatus e) s = .next (u.answer o .done 0 u.netReport)) ∧
    (s.accepts 0x0C04 false true e u o →
      exec (.netCounters e) s = .next (u.answer o .done 0 (u.paramRange 0x0C20 32 ++ u.paramRange 0x0C40 5)))

/-- An inauguration attempt begins by an end change, a stop frame, a retry, a time-out or the command, and fails with its cause
(R265, R266, R267, R272, R273, R279). On a train variant in service: a failed attempt leaves state 4, its cause, one more
failure, no number and ev.train_fail. A coupled end that changed, a STOP frame of a newer attempt (by difference modulo 65 536),
the time-out, the retry of a failed attempt and trn.inaugurate each begin an attempt with the next (or the heard) number and
their cause, its STOP frame leaving on the ports that are up, but the one it came in by; a STOP frame that fails its checks is
counted at its port and does nothing else; a time-out is counted first unless the vehicle is a line of one; an older STOP frame
and an unchanged end change nothing; disagreeing lists fail it. trn.inaugurate is refused with STATE while an attempt runs. -/
def Obligations.AttemptsBeginAndFail : Prop :=
  ∀ (s u : State) (o : Outstanding) (en : Entry), 
    (s.inaugurates = true → (∀ cause x, x = { s.train with state := 4, failCause := cause, fails := sat32 s.train.fails 1, number := 0, orient := 0, count := 0 } →
        s.failAttempt cause = ({ s with train := x } : State).raise evTrainFail (leBytes 1 cause)) ∧
      (∀ e, e = 1 ∨ e = 2 → (s.coupledEnd e ≠ s.train.seen e → ∃ t : State, exec (.endChange e) s = .next t ∧
          AttemptBegun s t (nextAttempt s.train.attempt) 1 PortId.all ∧ t.train.proofFails = 0) ∧
        (s.coupledEnd e = s.train.seen e → exec (.endChange e) s = .next s)) ∧
      (∀ p fr m a, (s.net.ports.get p).mode = .up → s.train.attempt < 65536 → stopOf fr.payload = some m →
        a = (m.attempt + 65536 - s.train.attempt) % 65536 →
        (∀ n, s.inaugFail p fr true = some n → exec (.stopFrame p fr) s = .next (s.setPort p (fun q => q.count n))) ∧
        (s.inaugFail p fr true = none → ∃ w : State, w = s.setPort p (fun q => q.count 0) ∧
          (1 ≤ a ∧ a ≤ 32767 → ∃ t : State, exec (.stopFrame p fr) s = .next t ∧
            AttemptBegun w t m.attempt m.cause (PortId.all.filter (· != p))) ∧
          (a = 0 ∨ 32767 < a → exec (.stopFrame p fr) s = .next w))) ∧
      (s.net.mode = .inaugurating → s.train.state = 1 → s.train.lists = none → exec .noAgree s = .next (s.failAttempt causeNoAgree)) ∧
      (s.train.state = 1 → s.net.mode ≠ .running → s.net.mode ≠ .links → ∃ t : State, exec .inaugurationTimeout s = .next t ∧
        AttemptBegun s t (nextAttempt s.train.attempt) 5 PortId.all ∧
        (s.lineOfOne = false → t.train.failCause = causeTimeout ∧ t.train.fails = sat32 s.train.fails 1)) ∧
      (s.train.state = 4 → s.train.failCause ≠ causeProof → s.lineOfOne = true ∨ s.lineEnd.isSome = true →
        ∃ t : State, exec .trainFailRetry s = .next t ∧ AttemptBegun s t (nextAttempt s.train.attempt) 5 PortId.all)) ∧
    (s.accepts 0x0D03 true true en u o →
      (s.serves = true ∧ s.inaugurates = true ∧ s.train.state ≠ 1 → ∃ v : State, AttemptBegun s v (nextAttempt s.train.attempt) 4 PortId.all ∧
        v.train.proofFails = 0 ∧ exec (.trnInaugurate en) s = .next (v.answer o .done 0 (leBytes 2 v.train.attempt))) ∧
      (s.serves = false ∨ s.inaugurates = false ∨ s.train.state = 1 → exec (.trnInaugurate en) s = .next (u.answer o .state 0 [])))

/-- Sweeps collect the vehicles, both lists settle the line, and the proof is requested (R268, R269, R275, R279). An end vehicle
sends a sweep of its own entry over the ports that are up, at most three times. A sweep or result that fails the checks of its
frame is counted at its port. A sweep is passed on with the own entry appended (or marked as overflow at 65) while the far side
is coupled; at the far end it becomes a result and goes back; each leaves as a frame of type 5 whose code byte is 0x02 or 0x03.
With both lists in, a refused line fails the attempt with its cause; an accepted one sets number, orientation and count and
listens with the derived imposition, lanes unchanged. The proof request is set in each lane whose claim is due. trn.status and
trn.composition answer their reports or STATE. -/
def Obligations.SweepsMakeTheLine : Prop :=
  ∀ (s u : State) (o : Outstanding) (en : Entry) (p : PortId) (fr : Frame) (m : SweepMsg),
    (∀ e w g, s.lineEnd = some e → s.discovering = true → s.train.sweeps < 3 →
      w = { overflow := false, attempt := s.train.attempt, entries := [s.ownEntryFor (3 - e)] : SweepMsg } →
      g = (endPorts e).filter (fun p => (s.net.ports.get p).mode == .up) →
      ∃ x n, x = { s.train with sweeps := s.train.sweeps + 1, sent := (g.map (fun p => (p, 2, w))).reverse ++ s.train.sent } ∧
        n = { s.net with sent := (g.map (fun p => { port := p, bytes := frameBytes (inaugFrame p (sweepBytes 2 w)), broken := false : TxFrame })).reverse ++ s.net.sent } ∧
        exec .sweepSend s = .next { s with train := x, net := n }) ∧
    (s.inaugurates = true → (s.net.ports.get p).mode = .up →
      (∀ n, s.inaugFail p fr false = some n → exec (.sweepFrame p fr) s = .next (s.setPort p (fun q => q.count n)) ∧
        exec (.resultFrame p fr) s = .next (s.setPort p (fun q => q.count n))) ∧
      (∀ w far, s.inaugFail p fr false = none → s.train.state = 1 → m.attempt = s.train.attempt → w = s.setPort p (fun q => q.count 0) →
        far = p.opposite →
        (∀ n, sweepOf 2 fr.payload = some m →
          n = (if 65 ≤ m.entries.length then { m with overflow := true } else { m with entries := m.entries ++ [s.ownEntryFor (portEnd p)] }) →
          (s.coupledEnd (3 - portEnd p) = true → ∃ t : State, exec (.sweepFrame p fr) s = .next t ∧
            t = { w with train := { s.train with sent := t.train.sent }, net := { w.net with sent := t.net.sent } } ∧
            t.train.sent = (if (s.net.ports.get far).mode = .up then (far, 2, n) :: s.train.sent else s.train.sent) ∧
            t.net.sent = (if (s.net.ports.get far).mode = .up then
              { port := far, bytes := frameBytes (inaugFrame far (sweepBytes 2 n)), broken := false } :: s.net.sent else s.net.sent)) ∧
          (s.coupledEnd (3 - portEnd p) = false → ∃ v : State, exec (.sweepFrame p fr) s = .next v.settleLists ∧
            v = { w with train := { s.train with sent := v.train.sent, results := v.train.results }, net := { w.net with sent := v.net.sent } } ∧
            (portRing p, n) ∈ v.train.results ∧ v.train.sent = (p, 3, n) :: s.train.sent ∧
            v.net.sent = { port := p, bytes := frameBytes (inaugFrame p (sweepBytes 3 n)), broken := false } :: s.net.sent)) ∧
        (sweepOf 3 fr.payload = some m → ∃ v : State, exec (.resultFrame p fr) s = .next v.settleLists ∧
          v = { w with train := { s.train with sent := v.train.sent, results := v.train.results }, net := { w.net with sent := v.net.sent } } ∧
          (portRing p, m) ∈ v.train.results ∧
          v.train.sent = (if (s.net.ports.get far).mode = .up then (far, 3, m) :: s.train.sent else s.train.sent) ∧
          v.net.sent = (if (s.net.ports.get far).mode = .up then
            { port := far, bytes := frameBytes (inaugFrame far (sweepBytes 3 m)), broken := false } :: s.net.sent else s.net.sent)))) ∧
    (s.train.lists = none → s.settleLists = s) ∧
    (∀ l, s.train.lists = some l → (∀ c, propose l = .fail c → s.settleLists = s.failAttempt c) ∧
      (∀ r f i a, propose l = .line r f → lineNumber r f s.vehicle = some (i, a) → (derivedImposition r.length).timingOk 1000000 = true →
        (derivedImposition r.length).rulesOk (derivedNodes r.length) [0] = true → ∃ t : State, s.settleLists = t ∧ t.train.number = i ∧
          t.train.orient = a ∧ t.train.count = r.length ∧ t.net.mode = .listen ∧ t.net.self = 0x7F00 + i ∧ t.net.nodes = derivedNodes r.length ∧
          t.net.imp = some (derivedImposition r.length) ∧ t.net.buffers = [] ∧ t.lanes = s.lanes)) ∧
    (s.power.running = true → ∃ t : State, exec .trainProofRequest s = .next t ∧ t = { s with lanes := t.lanes } ∧
      ∀ l f w, s.laneIn l = true → (s.lanes.get l).forme = some f → w = (s.lanes.get l).core →
        (f.header.personality = 2 → w.train.claim.isSome = true → trainRequest w.train.everPassed w.train.fails = true →
          (t.lanes.get l).core.train = { w.train with request := true })) ∧
    (s.accepts 0x0D01 false true en u o → exec (.trnStatus en) s =
      .next (if s.isTrain then u.answer o .done 0 (u.paramRange 0x0D01 8) else u.answer o .state 0 [])) ∧
    (s.accepts 0x0D02 false true en u o → exec (.trnComposition en) s =
      .next (if s.isTrain then u.answer o .done 0 u.composition else u.answer o .state 0 []))

/-- The referee names the holder of the mark; a standby takes over cold; the switch-back needs its token (R284, R285, R294, R295,
R297). The referee keeps a holder that is heard, member and does not yield (or whose partner is not fit), gives the mark to a
fit partner with the next number when it misses three beats, is no member or yields, to a fit member when none holds it (1
before 2), else to none. A member takes the mark it heard. After 20 cycles with no holder a standby starts cold and raises
ev.dup_cold_takeover. A switch-back not taken within 100 cycles is given up with its event; dup.switch_back is refused with
STATE or AUTH or starts the yielding, kept in the recorder. dup.status answers its report or STATE. -/
def Obligations.DuplexMarkAndTakeOver : Prop :=
  ∀ (s u : State) (o : Outstanding) (en : Entry) (sig : Sig) (f : StartFacts) (h : Nat),
    (∀ d, s.netOn = true → s.net.mode = .running → s.net.roles.testBit 3 = true → d = s.duplex.note (s.heartbeat 0) (s.heartbeat 1) →
      ∃ r : Duplex, exec .refereeDecide s = .next { s with duplex := r } ∧ r = { d with holder := r.holder, seq := r.seq } ∧
        (d.holder ≠ 0 → d.miss d.holder < 3 → member (d.hb d.holder) 0 = true → member (d.hb d.holder) 3 = false ∨ d.fit (3 - d.holder) = false →
          r.holder = d.holder ∧ r.seq = d.seq) ∧
        (h = 1 ∨ h = 2 → d.holder = 3 - h → (3 ≤ d.miss d.holder ∨ member (d.hb d.holder) 0 = false ∨ member (d.hb d.holder) 3 = true) →
          d.fit h = true → r.holder = h ∧ r.seq = (d.seq + 1) % 65536) ∧
        (h = 1 ∨ h = 2 → d.holder = 3 - h → (3 ≤ d.miss d.holder ∨ member (d.hb d.holder) 0 = false) → d.fit h = false → r.holder = 0 ∧ r.seq = d.seq) ∧
        (d.holder = 0 → d.fit 1 = true → r.holder = 1 ∧ r.seq = (d.seq + 1) % 65536) ∧
        (d.holder = 0 → d.fit 1 = false → d.fit 2 = true → r.holder = 2 ∧ r.seq = (d.seq + 1) % 65536) ∧
        (d.holder = 0 → d.fit 1 = false → d.fit 2 = false → r.holder = 0 ∧ r.seq = d.seq)) ∧
    (∀ m, s.netOn = true → s.isDuplex = true → s.markHeard = some m → ∃ d, d = { s.duplex with named := some m, mark := m.1, markSeq := m.2 } ∧
      exec .markAccepted s = .next { s with duplex := d }) ∧
    (s.netOn = true → s.isDuplex = true → s.duplex.ready = false → s.duplex.commanding = false →
      (s.duplex.noHolder < 20 → exec (.dupColdTakeover f) s = .next s) ∧
      (20 ≤ s.duplex.noHolder → startPasses f 0x40 = true → ∃ v w : State, v = s.stopVital ∧ v.outputsOpen = true ∧
        w = ({ v with power := { v.power with coldAsked := true } } : State).start f 3 false ∧ Started s w f 3 ∧
        exec (.dupColdTakeover f) s = .next (w.raise evDupColdTakeover (leBytes 1 s.memberNo)))) ∧
    (∀ n, s.netOn = true → s.duplex.yielding = some n → (100 ≤ n → ∃ d, d = { s.duplex with yielding := none } ∧
        exec .dupSwitchBackFail s = .next (({ s with duplex := d } : State).raise evDupSwitchBack (leBytes 1 0))) ∧
      (n < 100 → exec .dupSwitchBackFail s = .next s)) ∧
    (s.accepts 0x0E01 false true en u o → exec (.dupStatus en) s =
      .next (if s.isDuplex then u.answer o .done 0 (u.paramRange 0x0E01 8) else u.answer o .state 0 [])) ∧
    (∀ b v, s.accepts 0x0E02 true true en u o → b = Entry.body en → tokSized b = true → u.tokenFail [0x07] b sig = 0 → v = u.countToken b →
      (s.maySwitchBack = false → exec (.dupSwitchBack en sig) s = .next (v.answer o .state 0 [])) ∧
      (s.maySwitchBack = true → fieldAt (tokBody b) 0 2 ≠ s.partnerId → exec (.dupSwitchBack en sig) s = .next (v.answer o .auth 0 [])) ∧
      (s.maySwitchBack = true → fieldAt (tokBody b) 0 2 = s.partnerId → ∃ w d, d = { s.duplex with yielding := some 0 } ∧
        w = (({ v with duplex := d } : State).recordBatch
          [recKeep 0x0630 0 (leBytes 4 (tokSeq b) ++ leBytes 2 s.partnerId ++ leBytes 2 o.session)]) ∧
        exec (.dupSwitchBack en sig) s = .next (w.answer o .done 0 (leBytes 2 s.partnerId))))

/-- An operator request takes the lowest free slot and waits for the strobe, or is answered STATE or BUSY (R122, R158, R175, R176,
R188). For the seven request rows: while requests are open (a life-cycle state that runs, a forme, not standing by, no safe
state, no exchange save for a cancel before it commits, no clash) an accepted command takes the lowest free of 256 slots, waits
as the last request with its origin, its command stays outstanding, and lanes, votes and field side are unchanged; with no slot
free it is BUSY and counted, while not open STATE. ilk.aux_counters answers the counters and their sum, or STATE. -/
def Obligations.OperatorRequestsTakeSlots : Prop :=
  ∀ (s u : State) (o : Outstanding) (e : Entry) (c : Instr) (op size : Nat) (k : ReqKind) (cancel : Bool), s.accepts op true true e u o →
    (Entry.size e size = true →
      (c = .ilkRouteSet e ∧ op = 0x0601 ∧ size = 2 ∧ k = .routeSet (Entry.field e 0 2) ∧ cancel = false) ∨
      (c = .ilkRouteCancel e ∧ op = 0x0602 ∧ size = 2 ∧ k = .routeCancel (Entry.field e 0 2) ∧ cancel = true) ∨
      (c = .ilkRouteReclear e ∧ op = 0x0603 ∧ size = 2 ∧ k = .reclear (Entry.field e 0 2) ∧ cancel = false) ∨
      (c = .elmPointMove e ∧ op = 0x0801 ∧ size = 3 ∧ k = .pointMove (Entry.field e 0 2) (if Entry.field e 2 1 = 2 then 2 else 1) ∧ cancel = false) ∨
      (c = .elmBlockSet e ∧ op = 0x0802 ∧ size = 2 ∧ k = .block (Entry.field e 0 2) ∧ cancel = false) ∨
      (c = .ilkAuxStage e ∧ op = 0x0620 ∧ size = 4 ∧ k = .auxStage (Entry.field e 0 2) (Entry.field e 2 1) (min 7 (Entry.field e 3 1)) ∧ cancel = false) ∨
      (c = .ilkAuxWithdraw e ∧ op = 0x0621 ∧ size = 2 ∧ k = .auxWithdraw (Entry.field e 0 2) ∧ cancel = false) →
      ∃ open' : Prop, (open' ↔ (s.life.state = .commissioning ∨ s.life.state = .operation ∨ s.life.state = .maintenance) ∧ s.forme.isSome = true ∧
          s.standsBy = false ∧ s.platen.safe = false ∧ (s.xchg.state = .idle ∨ (cancel = true ∧ s.xchg.state ≠ .committing)) ∧ s.req.clashes k = false) ∧
        (¬ open' → exec c s = .next (u.answer o .state 0 [])) ∧
        (open' → 256 ≤ s.req.taken → exec c s = .next ((u.answer o .busy 0 []).recordBatch [recCount 0x0108 0])) ∧
        (open' → s.req.taken < 256 → ∃ (n : Nat) (t : State), exec c s = .next t ∧ n < 256 ∧ kvGet s.req.slots n = none ∧
          (∀ m, m < n → (kvGet s.req.slots m).isSome = true) ∧ (∀ m, kvGet t.req.slots m = if m = n then some k else kvGet s.req.slots m) ∧
          t.req.waiting = s.req.waiting ++ [{ kind := k, slot := some n }] ∧ kvGet t.req.origins n = some (o.session, 0xFF, 0) ∧
          t.host.outstanding = u.host.outstanding ++ [{ o with slot := some n }] ∧ t.lanes = s.lanes ∧ t.platen = s.platen ∧ t.field = s.field)) ∧
    (op = 0x0622 → ∃ taken : Prop, (taken ↔ (s.life.state = .commissioning ∨ s.life.state = .operation ∨ s.life.state = .maintenance) ∧
        s.platen.safe = false ∧ s.xchg.state = .idle ∧ s.standsBy = false) ∧
      (taken → exec (.ilkAuxCounters e) s = .next (u.answer o .done 0 (s.req.auxCounts.flatMap (leBytes 4) ++ leBytes 8 (s.req.auxCounts.foldl (· + ·) 0)))) ∧
      (¬ taken → exec (.ilkAuxCounters e) s = .next (u.answer o .state 0 [])))

/-- An exchange loads, is prepared, committed at a clamped count, or aborted (R86, R151, R152, R153, R154, R174). Accepted
ilk.exchange_prepare begins the loading of a forme that waits under the digest and unseals the target slot, else is refused:
reason 0x27 for a digest that does not wait, BUSY while a load runs, STATE while another exchange is under way, while a train
node inaugurates, or while a proof has a lane isolated. A load that fails a check, or in which a lane works out another result
(reason 0x10), ends the exchange with its reason; one that passes is sealed into the other slot of each lane in service.
Preparation fails with its reason or raises ev.exchange_prepared and answers the report. The commit takes the count asked for,
held between the count plus 2 and plus 6000, modulo 2^32, and is refused with STATE when not prepared, when standing by, or
while the partner of a duplex pair is not prepared. Abort and status answer as R174 says. -/
def Obligations.ExchangePreparesAndCommits : Prop :=
  ∀ (s u : State) (o : Outstanding) (e : Entry) (image : Image) (h a : Sig) (faults : List (LaneId × Bool)),
    (s.accepts 0x0610 true true e u o → Entry.size e 64 = true → ∀ d, d = digestAt (Entry.body e) 0 →
      (s.serves = true → s.xchg.state = .loading → s.xchg.loading = true → exec (.ilkExchangePrepare e) s = .next (u.answer o .busy 0 [])) ∧
      (s.serves = false ∨ (s.xchg.state = .loading ∧ s.xchg.loading = false) ∨ s.xchg.state = .prepared ∨ s.xchg.state = .committing ∨
          (s.xchg.state = .idle ∧ (s.inaugurating = true ∨ s.proofs.running.map (·.2) = some 2 ∨ ∃ l, s.platen.lanes.get l = .isolated)) →
        exec (.ilkExchangePrepare e) s = .next (u.answer o .state 0 [])) ∧
      (s.serves = true → s.xchg.state = .idle → s.lanesSlot.isSome = true → s.inaugurating = false →
          s.proofs.running.map (·.2) ≠ some 2 → (∀ l, s.platen.lanes.get l ≠ .isolated) →
        (s.digestWaits d = false → ∃ x, x = { s.xchg with reason := 0x27 } ∧
          exec (.ilkExchangePrepare e) s = .next (({ u with xchg := x } : State).answer o .refused 0 (leBytes 1 0x27))) ∧
        (s.digestWaits d = true → ∃ x lanes, x = { s.xchg with state := .loading, loading := true, asked := some o, digest := d, target := 0 } ∧
          exec (.ilkExchangePrepare e) s = .next (({ u with xchg := x, lanes := lanes } : State).keep o) ∧
          (∀ l n, s.laneIn l = true → (s.lanes.get l).running = some n → lanes.get l = (s.lanes.get l).unseal (1 - n)) ∧
          (∀ l, s.laneIn l = false ∨ (s.lanes.get l).running = none → lanes.get l = s.lanes.get l)))) ∧
    (s.power.running = true → s.xchg.state = .loading → s.xchg.loading = true → ∀ n nand c, s.lanesSlot = some n → s.waitingNand = some nand →
      nand.colophon = some c → ∀ fail, fail = s.loadFail image c.digest c.installation h a s.net.cycleNs (some s.personality) →
      (fail = none → (∀ l, s.laneIn l = true → (l, true) ∉ faults) → (∃ l, s.laneIn l = true ∧ (l, false) ∈ faults) →
        ∃ t : State, exec (.formeLoad image (h, a) faults) s = .next t ∧ t.xchg.state = .idle ∧ t.xchg.reason = 0x10) ∧
      (∀ x, fail = some x → (∀ l, (l, true) ∉ faults) → ∃ t : State, exec (.formeLoad image (h, a) faults) s = .next t ∧ t.xchg.state = .idle ∧ t.xchg.reason = x.reason ∧
        t.xchg.asked = none ∧ t.lanes = s.lanes ∧ t.platen = s.platen ∧ t.field = s.field) ∧
      (fail = none → faults = [] → ∃ t : State, exec (.formeLoad image (h, a) faults) s = .next t ∧ t.xchg = { s.xchg with loading := false } ∧
        (∀ l, s.laneIn l = true → t.lanes.get l = (s.lanes.get l).sealLoaded (1 - n) (parseForme image) c) ∧
        (∀ l, s.laneIn l = false → t.lanes.get l = s.lanes.get l) ∧ t.host = s.host ∧ t.platen = s.platen ∧ t.field = s.field)) ∧
    (s.power.running = true → s.xchg.state = .loading → s.xchg.loading = false → ∀ old new, s.exchangePair = some (old, new) →
      (∀ x, old.exchangeFail new (s.exchangeBound old new) = some x → ∃ t : State, exec .exchangePrepared s = .next t ∧ t.xchg.state = .idle ∧
        t.xchg.reason = x.reason ∧ t.xchg.asked = none ∧ t.lanes = s.lanes ∧ t.platen = s.platen) ∧
      (old.exchangeFail new (s.exchangeBound old new) = none → ∃ t v : State, exec .exchangePrepared s = .next t ∧
        v = ({ s with xchg := { s.xchg with state := .prepared } } : State).raise evExchangePrepared (leBytes 4 (s.exchangeBound old new)) ∧
        t = v.answerPrepare .done 0 (old.prepareReport new (s.exchangeBound old new)) ∧ t.xchg.state = .prepared ∧ t.xchg.asked = none ∧
        t.lanes = s.lanes ∧ t.platen = s.platen)) ∧
    (s.accepts 0x0611 true true e u o → Entry.size e 4 = true → ∀ n, n = Entry.field e 0 4 →
      (s.serves = false ∨ s.xchg.state ≠ .prepared ∨ s.standsBy = true ∨ (s.isDuplex = true ∧ s.standbyPrepared = false) →
        exec (.ilkExchangeCommit e) s = .next (u.answer o .state 0 [])) ∧
      (s.serves = true → s.xchg.state = .prepared → s.standsBy = false → s.isDuplex = false ∨ s.standbyPrepared = true →
        ∃ t x, t = (if n < s.net.count + 2 then s.net.count + 2 else if s.net.count + 6000 < n then s.net.count + 6000 else n) % 4294967296 ∧
          x = { s.xchg with state := .committing, target := t } ∧
          exec (.ilkExchangeCommit e) s = .next (({ u with xchg := x } : State).answer o .done 0 (leBytes 4 t)))) ∧
    (s.accepts 0x0612 true true e u o →
      (s.serves = true ∧ s.xchg.state = .prepared → ∃ x, x = { s.xchg with state := .idle, target := 0 } ∧
        exec (.ilkExchangeAbort e) s = .next (({ u with xchg := x } : State).answer o .done 0 [0x00])) ∧
      (s.serves = false ∨ s.xchg.state ≠ .prepared → exec (.ilkExchangeAbort e) s = .next (u.answer o .state 0 []))) ∧
    (s.accepts 0x0613 false true e u o →
      (s.serves = true ∧ s.standsBy = false → exec (.ilkExchangeStatus e) s =
        .next (u.answer o .done 0 (leBytes 1 s.xchg.state.code ++ leBytes 1 s.xchg.reason ++ leBytes 2 0 ++ leBytes 4 s.xchg.target))) ∧
      (s.serves = false ∨ s.standsBy = true → exec (.ilkExchangeStatus e) s = .next (u.answer o .state 0 [])))

/-- Forces and block clears: when a token is asked for, and what each answer is; function status reports (R167, R168, R169, R172,
R206, R227). A force of a path that is not vital is filed without token; a vital one needs a token of its kind that names it and
is not taken in Operation; without a token AUTH, with the module not taking forces STATE. ilk.force_clear answers alike, and
ilk.force_list answers the list or STATE while standing by. fld.block_clear needs a token whose body names its bank or channel;
with it the request is filed, or STATE on a clash, or no slot. mot.status and grd.status answer the words of the function in the
galley copies last handed to the steward, with their cycle, zeros before the first, or REFUSED for a function the forme does not
have. -/
def Obligations.ForcesBlocksAndFunctions : Prop :=
  ∀ (s u : State) (o : Outstanding) (e : Entry) (sig : Sig) (b : List Byte) (f : Forme), b = Entry.body e → s.forme = some f →
    (s.takesForces = true ↔ s.serves = true ∧ s.xchg.state = .idle ∧ s.standsBy = false ∧ s.platen.safe = false) ∧
    (s.accepts 0x0618 true true e u o → 10 ≤ b.length → ∀ q, q = forceOfEntry b →
      (f.forceVital q.path q.id = false →
        (s.takesForces = true → exec (.ilkForceSet e sig) s = .next (u.file o (.forceSet q) 0xFF 0)) ∧
        (s.takesForces = false → exec (.ilkForceSet e sig) s = .next (u.answer o .state 0 []))) ∧
      (f.forceVital q.path q.id = true →
        (b.length = 10 → exec (.ilkForceSet e sig) s = .next (u.answer o .auth 0 [])) ∧
        (∀ t v, t = b.drop 10 → t ≠ [] → tokSized t = true → u.tokenFail [0x05] t sig = 0 → v = u.countToken t →
          (s.forceNamed b t = false → exec (.ilkForceSet e sig) s = .next (v.answer o .auth 0 [])) ∧
          (s.forceNamed b t = true → s.takesForces = true → s.life.state = .commissioning ∨ s.life.state = .maintenance →
            exec (.ilkForceSet e sig) s = .next (v.file o (.forceSet q) (tokIndex t) (tokSeq t))) ∧
          (s.forceNamed b t = true → s.takesForces = false ∨ s.life.state = .operation →
            exec (.ilkForceSet e sig) s = .next (v.answer o .state 0 []))))) ∧
    (s.accepts 0x0619 true true e u o → Entry.size e 2 = true → ∀ n, n = Entry.field e 0 2 →
      (s.takesForces = true → s.forceIsVital n = false ∨ s.life.state = .commissioning ∨ s.life.state = .maintenance →
        exec (.ilkForceClear e) s = .next (u.file o (.forceClear n) 0xFF 0)) ∧
      (s.takesForces = false ∨ (s.forceIsVital n = true ∧ s.life.state = .operation) → exec (.ilkForceClear e) s = .next (u.answer o .state 0 []))) ∧
    (s.accepts 0x061A false true e u o → exec (.ilkForceList e) s =
      .next (if s.standsBy then u.answer o .state 0 [] else u.answer o .done 0 u.forceList)) ∧
    (s.accepts 0x0901 true true e u o → 2 ≤ b.length → ∀ p, p = s.clearTarget b →
      (p.1 = 1 ∨ p.1 = 2) ∧ (p.1 = 1 → p.2 ≤ 15) ∧ (p.1 = 2 → p.2 = 4 ∨ p.2 = 5) ∧
      (b.length = 2 → exec (.fldBlockClear e sig) s = .next (u.answer o .auth 0 [])) ∧
      (∀ t v, t = b.drop 2 → t ≠ [] → tokSized t = true → u.tokenFail [0x06] t sig = 0 → v = u.countToken t →
        (fieldAt (tokBody t) 0 1 ≠ p.1 ∨ fieldAt (tokBody t) 1 1 ≠ p.2 → exec (.fldBlockClear e sig) s = .next (v.answer o .auth 0 [])) ∧
        (fieldAt (tokBody t) 0 1 = p.1 → fieldAt (tokBody t) 1 1 = p.2 →
          (s.takesForces = false ∨ s.req.clashes (.blockClear p.1 p.2) = true → exec (.fldBlockClear e sig) s = .next (v.answer o .state 0 [])) ∧
          (s.takesForces = true → s.req.clashes (.blockClear p.1 p.2) = false → 256 ≤ s.req.taken → exec (.fldBlockClear e sig) s = .next (v.noSlot o)) ∧
          (s.takesForces = true → s.req.clashes (.blockClear p.1 p.2) = false → s.req.taken < 256 →
            exec (.fldBlockClear e sig) s = .next (v.file o (.blockClear p.1 p.2) (tokIndex t) (tokSeq t)))))) ∧
    (∀ c op guard, (c = .motStatus e ∧ op = 0x0A01 ∧ guard = false) ∨ (c = .grdStatus e ∧ op = 0x0B01 ∧ guard = true) →
      s.accepts op false true e u o → Entry.size e 2 = true →
      (∀ i r, f.funcNo (Entry.field e 0 2) = some i → f.funcs[i]? = some r → (guard = true ↔ 0x10 ≤ r.typ) →
        (∀ k, s.req.copies = some k → exec c s = .next (u.answer o .done 0 ((List.range 4).flatMap (fun w =>
          leBytes 2 (readX f k.lane k.cycle k.store (f.addr 0x13 i w))) ++ leBytes 4 k.cycle))) ∧
        (s.req.copies = none → exec c s = .next (u.answer o .done 0 (List.replicate 8 0 ++ leBytes 4 s.net.count)))) ∧
      (f.funcNo (Entry.field e 0 2) = none ∨ (∃ i r, f.funcNo (Entry.field e 0 2) = some i ∧ f.funcs[i]? = some r ∧ ¬ (guard = true ↔ 0x10 ≤ r.typ)) →
        exec c s = .next (u.answer o .refused 0 [0x01])))

/-- Sessions open pending, are proved, close with their CRC contexts, and failures lock their transport (R317, R318, R39).
hst.session_open adds a pending session under a free number with the next nonce when the transport is not locked and fewer than
four exist, else LIMIT or an authentication failure. hst.session_prove opens it when the signature verifies (ending the run of
failures) and closes it otherwise. A failure is counted; the fifth in a row on a transport locks that transport alone, until the
lockout ends. Closing removes the session and its contexts. hst.session_close, hst.session_list, hst.port_restart and the
expiries act on the sessions they name. -/
def Obligations.SessionsOpenAndClose : Prop :=
  ∀ (s u : State) (o : Outstanding) (e : Entry) (sig : Sig) (udp : Bool) (x : Session), udp = Entry.udp e →
    (∃ h : HostLink, u.authFail o udp = (({ u with host := h } : State).answer o .auth 0 []).raiseWith evAuthFail (leBytes 1 (if udp then 2 else 1))
        [recCount 0x0701 (b2n udp)] ∧ h.authFails = sat32 u.host.authFails 1 ∧ h.sessions = u.host.sessions ∧
      (u.host.locked udp = false → h.authRun udp = u.host.authRun udp + 1 ∧ (h.locked udp = true ↔ 4 ≤ u.host.authRun udp)) ∧
      (u.host.locked udp = true → h.authRun udp = u.host.authRun udp ∧ h.locked udp = true) ∧
      h.authRun (!udp) = u.host.authRun (!udp) ∧ h.locked (!udp) = u.host.locked (!udp)) ∧
    (s.accepts 0x0F01 false false e u o → Entry.size e 4 = true →
      (u.host.locked udp = true ∨ u.power.cryptoDown = true → exec (.hstSessionOpen e) s = .next (u.authFail o udp)) ∧
      (u.host.locked udp = false → u.power.cryptoDown = false →
        (4 ≤ u.host.sessions.length → exec (.hstSessionOpen e) s = .next (u.answer o .limit 0 [])) ∧
        (u.host.sessions.length < 4 → ∃ (t v : State) (n : Nat), exec (.hstSessionOpen e) s = .next t ∧ 1 ≤ n ∧ n ≤ 0xFFFE ∧
          (∀ y ∈ u.host.sessions, y.num ≠ n) ∧ t = v.answer o .done 0 (openAnswer n u.host.nonces) ∧ v.lanes = s.lanes ∧ v.crc = s.crc ∧
          v.host.sessions = u.host.sessions ++ [{ num := n, udp := udp, key := min 7 (Entry.field e 0 1), opened := false, nonce := u.host.nonces,
                                                  srcAddr := e.srcAddr, srcPort := e.srcPort }] ∧
          v.host.nextSession = n % 0xFFFE + 1 ∧ v.host.nonces = u.host.nonces + 1))) ∧
    (s.accepts 0x0F02 false false e u o → Entry.size e 118 = true →
      (u.pendingFor e = none → exec (.hstSessionProve e sig) s = .next (u.authFail o udp)) ∧
      (u.pendingFor e = some x → x ∈ u.host.sessions ∧ x.opened = false ∧ x.num = Entry.field e 0 2 ∧ x.udp = udp ∧
        (udp = true → x.srcAddr = e.srcAddr ∧ x.srcPort = e.srcPort) ∧
        (u.verifies (nthD u.life.host x.key 0) sig = false → exec (.hstSessionProve e sig) s = .next ((u.closeSession x).authFail o udp)) ∧
        (u.verifies (nthD u.life.host x.key 0) sig = true → ∃ v : State, v = { u with host := v.host } ∧
          v.host.sessions = u.host.sessions.filter (fun y => y.num != x.num) ++ [{ x with opened := true }] ∧ v.host.authRun udp = 0 ∧
          v.host.locked udp = u.host.locked udp ∧ exec (.hstSessionProve e sig) s = .next ((v.answer o .done 0 (leBytes 2 x.num)).raise evSessionOpened
            (leBytes 2 x.num ++ leBytes 1 (if udp then 2 else 1) ++ leBytes 1 x.key))))) ∧
    (∃ v : State, u.closeSession x = (if x.opened then v.raise evSessionClosed (leBytes 2 x.num) else v) ∧ v.lanes = u.lanes ∧ v.req = u.req ∧
      v.host.outstanding = u.host.outstanding ∧ (∀ y, y ∈ v.host.sessions ↔ y ∈ u.host.sessions ∧ y.num ≠ x.num) ∧
      (∀ c, c ∈ v.crc ↔ c ∈ u.crc ∧ c.session ≠ x.num)) ∧
    (s.accepts 0x0F03 true true e u o → ∃ t : State, exec (.hstSessionClose e) s = .next t ∧
      (∀ y, y ∈ t.host.sessions ↔ y ∈ u.host.sessions ∧ y.num ≠ o.session) ∧ (∀ c ∈ t.crc, c ∈ u.crc) ∧
      ((∃ y ∈ u.host.sessions, y.num = o.session) → ∀ c ∈ t.crc, c.session ≠ o.session)) ∧
    (s.accepts 0x0F04 false true e u o → ∃ t : State, exec (.hstSessionList e) s = .next (t.answer o .done 0 u.sessionList) ∧
      t = { u with free := { next := s.free.next + (u.host.sessions.filter (·.opened)).length } }) ∧
    (s.accepts 0x0F05 true true e u o → ∃ t : State, exec (.hstPortRestart e) s = .next t ∧ (∀ y ∈ t.host.sessions, y ∈ u.host.sessions ∧ y.udp = false) ∧
      t.params = (u.applyParams isPortParam).params ∧ t.lanes = s.lanes) ∧
    (s.power.running = true → s.host.stewardUp = true → ∀ n,
      (∃ t : State, exec (.pendingSessionExpiry n) s = .next t ∧ (∀ y ∈ t.host.sessions, y ∈ s.host.sessions ∧ ¬ (y.num = n ∧ y.opened = false)) ∧
        (∀ y ∈ s.host.sessions, y.num ≠ n → y ∈ t.host.sessions)) ∧
      (∃ t : State, exec (.sessionIdleExpiry n) s = .next t ∧ (∀ y ∈ t.host.sessions, y ∈ s.host.sessions ∧ ¬ (y.num = n ∧ y.opened = true)) ∧
        (∀ y ∈ s.host.sessions, y.num ≠ n → y ∈ t.host.sessions))) ∧
    (∀ p, s.power.running = true → s.host.locked p = true → ∃ h : HostLink, exec (.authLockoutEnd p) s = .next { s with host := h } ∧ h.authRun p = 0 ∧
      h.locked p = false ∧ h.authRun (!p) = s.host.authRun (!p) ∧ h.locked (!p) = s.host.locked (!p) ∧ h.sessions = s.host.sessions)

/-- A CRC context is opened with the lowest free number, fed, read, written and closed by its own session (R37, R38, R39, R40,
02_safety_words.md Table 2-9). With fewer than 64 open, crc.open takes the lowest free number with the all-ones register of its
polynomial (0 for an unknown one). For a context of the session: crc.feed folds the bytes after the number in and counts them,
crc.read answers the register and the final value, crc.write sets the register (at most all ones), crc.close answers the final
value and removes it. A number that is not open to the session is answered STATE. Other contexts and the rest of the state are
unchanged but for the answer. -/
def Obligations.CrcContextsRunAndClose : Prop :=
  ∀ (s u : State) (o : Outstanding) (e : Entry) (n : Nat) (c : CrcContext), n = Entry.field e 0 1 →
    (s.accepts 0x1101 true true e u o → Entry.size e 1 = true → s.crc.length < 64 → ∃ (t : State) (k code : Nat), exec (.crcOpen e) s = .next (t.answer o .done 0
        (leBytes 1 k ++ leBytes 1 code)) ∧ k < 64 ∧ (∀ d ∈ s.crc, d.num ≠ k) ∧ (∀ j, j < k → ∃ d ∈ s.crc, d.num = j) ∧ code = (if n ≤ 3 then n else 0) ∧
      t = { u with crc := t.crc } ∧ (∀ d, d ∈ t.crc ↔ d ∈ s.crc ∨ d = { num := k, poly := code, raw := crcOnes code, bytes := 0, session := o.session })) ∧
    (∀ (m : Instr) (op : Nat), (m = .crcFeed e ∧ op = 0x1102 ∧ 2 ≤ (Entry.body e).length ∧ (Entry.body e).length ≤ 4073) ∨ (m = .crcWrite e ∧ op = 0x1104 ∧ Entry.size e 9 = true) ∨
        (m = .crcClose e ∧ op = 0x1105 ∧ Entry.size e 1 = true) → s.accepts op true true e u o →
      (∀ d ∈ s.crc, ¬ (d.num = n ∧ d.session = o.session)) → exec m s = .next (u.answer o .state 0 [])) ∧
    (s.accepts 0x1103 false true e u o → Entry.size e 1 = true →
      ((∀ d ∈ s.crc, ¬ (d.num = n ∧ d.session = o.session)) → exec (.crcRead e) s = .next (u.answer o .state 0 [])) ∧
      (s.context o n = some c → exec (.crcRead e) s = .next (u.answer o .done 0 (leBytes 8 c.raw ++ leBytes 8 (crcFinal c.poly c.raw))))) ∧
    (s.context o n = some c → c ∈ s.crc ∧ c.num = n ∧ c.session = o.session ∧
      (∀ b, s.accepts 0x1102 true true e u o → b = Entry.body e → 2 ≤ b.length → b.length ≤ 4073 → ∃ (t : State) (d : CrcContext),
        d = { c with raw := crcFold c.poly c.raw (b.drop 1), bytes := c.bytes + (b.length - 1) } ∧ exec (.crcFeed e) s = .next (t.answer o .done 0 (leBytes 8 d.bytes)) ∧
        t = { u with crc := t.crc } ∧ (∀ y, y ∈ t.crc ↔ y = d ∨ (y ∈ s.crc ∧ y.num ≠ n))) ∧
      (s.accepts 0x1104 true true e u o → Entry.size e 9 = true → ∃ (t : State) (d : CrcContext),
        d = { c with raw := if crcOnes c.poly < Entry.field e 1 8 then crcOnes c.poly else Entry.field e 1 8 } ∧
        exec (.crcWrite e) s = .next (t.answer o .done 0 (leBytes 8 d.raw)) ∧ t = { u with crc := t.crc } ∧ (∀ y, y ∈ t.crc ↔ y = d ∨ (y ∈ s.crc ∧ y.num ≠ n))) ∧
      (s.accepts 0x1105 true true e u o → Entry.size e 1 = true → ∃ t : State, exec (.crcClose e) s = .next (t.answer o .done 0 (leBytes 8 (crcFinal c.poly c.raw))) ∧
        t = { u with crc := t.crc } ∧ (∀ y, y ∈ t.crc ↔ y ∈ s.crc ∧ y.num ≠ n)))

/-- With all 64 CRC contexts open, crc.open is answered LIMIT (R38). When every number below 64 is open, an accepted crc.open is
answered LIMIT, no context changes, and the refusal is counted in the recorder batch that waits last. -/
def Obligations.SixtyFifthContextRefused : Prop :=
  ∀ (s u : State) (o : Outstanding) (e : Entry), s.accepts 0x1101 true true e u o → Entry.size e 1 = true → (∀ k, k < 64 → ∃ d ∈ s.crc, d.num = k) →
    exec (.crcOpen e) s = .next ((u.answer o .limit 0 []).recordBatch [recCount 0x0108 3]) ∧
    ((u.answer o .limit 0 []).recordBatch [recCount 0x0108 3]).crc = s.crc ∧
    ((u.answer o .limit 0 []).recordBatch [recCount 0x0108 3]).recorder.pending = s.recorder.pending ++ [[recCount 0x0108 3]]

/-- Index and configuration writes of the 64 queues: what each accepts, records or ignores, and which commands it fetches (R307,
R308, R310, R312). With the module running: a write of the index that the host owns is taken when it lies within the free (or
used) space, else ignored with error code 0x02, and no other queue changes; a write of the other index is ignored. A command
fetched with an opcode that is unknown is answered UNKNOWN. A configuration write to a disabled queue takes every field,
clamped, and with ENABLE starts the queue at index 0; to an enabled one it changes ENABLE alone. The port's queue blocks ignore
writes. A command whose response queue is full stalls its queue, with its event once, until there is room. A receive queue that
gets room takes the entries that wait for it. -/
def Obligations.QueueRegistersChecked : Prop :=
  ∀ (s : State) (n v : Nat) (w : Word32) (q : Queue) (e : Entry), s.power.running = true → q = s.host.queue n → v = w.toNat % 65536 →
    n < s.host.queues.length →
    (n < 64 → portQueue n = false → hostProducer n = true →
      exec (.qConsWrite n w) s = .next s ∧
      (∃ t : State, exec (.qProdWrite n w []) s = .next t ∧ t = { s with host := { s.host with queues := t.host.queues } } ∧
        (∀ m, m ≠ n → t.host.queue m = s.host.queue m) ∧
        t.host.queue n = (if (v + 65536 - q.prod % 65536) % 65536 ≤ q.depth - q.used then { q with prod := v } else { q with errCode := 0x02 })) ∧
      (∀ op u, e.queue = n → op ∉ knownOpcodes → exec (.qProdWrite n w []) s = .next u → u.vet op false false { e with session := 0 } = .accept →
        exec (.qProdWrite n w [(op, e)]) s = .next ((u.dequeue e).answer (outstandingOf op e none) .unknown 0 (leBytes 4 0)))) ∧
    (n < 64 → portQueue n = false → hostProducer n = false →
      exec (.qProdWrite n w []) s = .next s ∧
      (∀ k, k = (v + 65536 - q.cons % 65536) % 65536 → ∃ t : State, exec (.qConsWrite n w) s =
          .next (if 56 ≤ n ∧ k ≤ q.used then t.drainChannel (n - 56) t.bridge.reasm.length else t) ∧
        t = { s with host := { s.host with queues := t.host.queues } } ∧ (∀ m, m ≠ n → t.host.queue m = s.host.queue m) ∧
        t.host.queue n = (if k ≤ q.used then { q with cons := v, held := q.held.drop k } else { q with errCode := 0x02 }))) ∧
    (n < 64 → portQueue n = false → ∃ t : State, exec (.qCfgWrite n w) s =
        .next (if q.enabled = false ∧ w.getLsbD 31 = true ∧ 56 ≤ n then t.drainChannel (n - 56) t.bridge.reasm.length else t) ∧
      t = { s with host := { s.host with queues := t.host.queues } } ∧ (∀ m, m ≠ n → t.host.queue m = s.host.queue m) ∧
      ((t.host.queue n).enabled = true ↔ w.getLsbD 31 = true) ∧
      (q.enabled = true → ∃ c, t.host.queue n = { q with cfg := c } ∧ c.toNat % 2147483648 = q.cfg.toNat % 2147483648) ∧
      (q.enabled = false → (t.host.queue n).log2 = clamp 1 10 (bits32 w 0 4) ∧ (t.host.queue n).units = clamp 1 65 (bits32 w 4 7) ∧
        (t.host.queue n).vector = bits32 w 11 5 ∧ (t.host.queue n).irqEn = w.getLsbD 16 ∧ (t.host.queue n).attnEn = w.getLsbD 17 ∧
        (w.getLsbD 31 = true → (t.host.queue n).prod = 0 ∧ (t.host.queue n).cons = 0 ∧ (t.host.queue n).error = false ∧ (t.host.queue n).overflow = 0) ∧
        (w.getLsbD 31 = false → (t.host.queue n).prod = q.prod ∧ (t.host.queue n).cons = q.cons ∧ (t.host.queue n).errCode = q.errCode))) ∧
    (portQueue n = true → exec (.qProdWrite n w []) s = .next s ∧ exec (.qConsWrite n w) s = .next s ∧ exec (.qCfgWrite n w) s = .next s) ∧
    (Entry.udp e = false → s.fetchable 0 e = true → e.queue = n →
      (s.responseFull e = true → q.stalled = true → exec (.queueStall e) s = .next s) ∧
      (s.responseFull e = true → q.stalled = false → ∃ u : State, exec (.queueStall e) s = .next (u.raise evQueueStall (leBytes 1 n)) ∧
        u = { s with host := { s.host with queues := u.host.queues } } ∧ u.host.queue n = { q with stalled := true } ∧
        (∀ m, m ≠ n → u.host.queue m = s.host.queue m)) ∧
      (s.responseFull e = false → ∃ u : State, exec (.queueStall e) s = .next u ∧
        u = { s with host := { s.host with queues := u.host.queues } } ∧ u.host.queue n = { q with stalled := false } ∧
        (∀ m, m ≠ n → u.host.queue m = s.host.queue m)))

/-- BAR0 accesses, the clock crossing, link and bus state, MSI-X and the resets of the PCIe function (R299, R300, R302, R303, R305,
R306, R323). With the module running: in the closed window reads and writes have no effect; elsewhere an access to a reserved
place, a write with a byte enable missing and a 64-bit access that touches a reserved place write ABORT_LOG with reasons 1, 2
and 4 and nothing else; SCRATCH takes the word, EVT_ROUTE its legal bits, read-only registers nothing. CDC_STATUS clears by
writing one. A read of CYCLE_COUNT that waits in vain logs reason 3 and raises ev.cdc_timeout. Link speed, bus master and power
state are taken; without either no queue moves. An unmasked vector sends what is pending for it. A reset of the function
disables every queue, closes every PCIe session and its window, clears pending messages, and leaves the steward, the lanes, the
network and UDP sessions. -/
def Obligations.RegistersAndFunction : Prop :=
  ∀ (s : State) (off d en : Nat) (w x : Word32) (a : Nat → Bool → HostLink), s.power.running = true → d = off % 65536 / 4 * 4 →
    (∀ r p, a r p = { s.host with abortOff := d, abortReason := r, abortCount := min (s.host.abortCount + 1) 4095, aerAbort := s.host.aerAbort || p }) →
    (0x8000 ≤ d → s.host.window = false → ∀ hi wr wide, exec (.registerWrite off w en hi) s = .next s ∧ exec (.reservedAccess off wr wide) s = .next s) ∧
    (d < 0x8000 ∨ s.host.window = true →
      (implemented s.host.window d = false → exec (.registerWrite off w en none) s = .next { s with host := a 1 true } ∧
        ∀ wr, exec (.reservedAccess off wr false) s = .next { s with host := a 1 wr }) ∧
      (implemented s.host.window d = true → (∀ wr, exec (.reservedAccess off wr false) s = .next s) ∧
        (en % 16 ≠ 15 → exec (.registerWrite off w en none) s = .next { s with host := a 2 true }) ∧
        (en % 16 = 15 →
          (d = 0x101C → ∃ h, h = { s.host with scratch := w } ∧ exec (.registerWrite off w en none) s = .next { s with host := h }) ∧
          (0x1000 ≤ d → d < 0x2000 → d ≠ 0x101C → d ≠ 0x1020 → exec (.registerWrite off w en none) s = .next s) ∧
          (0x8400 ≤ d → d < 0x8500 → ∃ h, h = { s.host with evtRoute := setNth s.host.evtRoute ((d - 0x8400) / 4) (w &&& 0x1F1F1F1F) } ∧
            exec (.registerWrite off w en none) s = .next { s with host := h }) ∧
          (d < 0x1000 → d % 0x40 < 8 → portQueue (d / 0x40) = true ∨ (s.host.queue (d / 0x40)).enabled = true →
            exec (.registerWrite off w en none) s = .next s))) ∧
      ((implemented s.host.window d = false ∨ implemented s.host.window (d + 4) = false) →
        exec (.registerWrite off w en (some x)) s = .next { s with host := a 4 true } ∧
        ∀ wr, exec (.reservedAccess off wr true) s = .next { s with host := a 4 wr }) ∧
      (implemented s.host.window d = true → implemented s.host.window (d + 4) = true → en % 256 ≠ 255 →
        exec (.registerWrite off w en (some x)) s = .next { s with host := a 2 true })) ∧
    (∃ h, h = (if w.getLsbD 0 then { s.host with cdcFlag := false } else s.host) ∧ exec (.cdcStatusClear w) s = .next { s with host := h }) ∧
    (s.power.netDown = false → exec (.cycleCountRead false) s = .next s) ∧
    (∃ u : State, exec (.cycleCountRead true) s = .next (u.raise evCdcTimeout [0x0A]) ∧ u.host.abortOff = 0x1014 ∧ u.host.abortReason = 3 ∧
      u.host.cdcFlag = true ∧ u.host.cdcIsland = 0x0A ∧ u.host.cdcCount = sat16 s.host.cdcCount 1 ∧ u.lanes = s.lanes ∧ u.host.queues = s.host.queues) ∧
    (∀ b, ∃ h, h = { s.host with linkSpeed := if b then 2 else 1 } ∧ exec (.linkTraining b) s = .next { s with host := h }) ∧
    (∀ b d0, b = false ∨ d0 = false → ∃ h, h = { s.host with busMaster := b, inD0 := d0 } ∧
      exec (.busMasterEnableChange b d0) s = .next { s with host := h } ∧ ∀ n, h.moves n = false) ∧
    (∃ v : State, exec (.busMasterEnableChange true true) s = .next v ∧ v.host.busMaster = true ∧ v.host.inD0 = true ∧ v.lanes = s.lanes ∧ v.crc = s.crc ∧
      v.host.sessions = s.host.sessions) ∧
    (∀ n, n < 32 → ∃ h, exec (.msixVectorUnmask n) s = .next { s with host := h } ∧ n ∉ h.masked ∧ n ∉ h.pba ∧
      (h.messages = if n ∈ s.host.pba then n :: s.host.messages else s.host.messages) ∧
      (∀ m, m ≠ n → (m ∈ h.masked ↔ m ∈ s.host.masked) ∧ (m ∈ h.pba ↔ m ∈ s.host.pba)) ∧ h.queues = s.host.queues) ∧
    (∀ k, ∃ t : State, exec (.pcieReset k) s = .next t ∧ (∀ n, (t.host.queue n).enabled = false ∧ (t.host.queue n).prod = 0 ∧ (t.host.queue n).cons = 0) ∧
      (∀ y, y ∈ t.host.sessions ↔ y ∈ s.host.sessions ∧ y.udp = true ∧ ∀ z ∈ s.host.sessions, z.udp = false → z.num ≠ y.num) ∧
      t.host.window = false ∧ t.host.pba = [] ∧ t.host.scratch = 0 ∧
      t.host.busMaster = false ∧ t.host.inD0 = true ∧ t.host.stewardUp = s.host.stewardUp ∧ t.lanes = s.lanes ∧ t.net = s.net ∧
      (∀ o ∈ t.host.outstanding, 15 ≤ o.queue))

/-- Datagrams of the maintenance port, and sys.param_get, sys.param_set and sys.identify (R315, R316, R319, R320). A datagram whose
length is not its entry's is answered FRAMING with detail 4; a repeated tag of an open session is answered by the stored
response; else the entry waits in the port's queue, or an unknown opcode is answered UNKNOWN. ARP and echo requests to the
module's address are answered, others not; a reassembly that times out is dropped alone. sys.param_get answers the stored and
used values of every ID named, or UNKNOWN with the index of the first it does not know; sys.param_set stores the effective
values of all or of none; a body of the wrong size is malformed. sys.identify answers part, variant, serial, version, forme
digest and life-cycle state. -/
def Obligations.PortAndSystemCommands : Prop :=
  ∀ (s u : State) (o : Outstanding) (e f : Entry) (bytes op n : Nat) (data : List Byte), f = { e with queue := 15 } →
    (s.power.running = true → s.host.j1Up = true → s.host.stewardUp = true →
      (bytes ≠ e.length + 20 → exec (.udpDatagram bytes op e) s =
        .next ((s.answer (outstandingOf op f none) .framing 4 []).recordBatch [recCount 0x0700 4])) ∧
      (bytes = e.length + 20 →
        (∀ x, e.session ≠ 0 → s.host.sessionOk f = true → x ∈ s.host.udpSent → x.session = e.session → x.tag = e.tag →
          (∀ y ∈ s.host.udpSent, y.session = e.session → y.tag = e.tag → y = x) → ∃ h,
          h = { s.host with portOut := .datagram e.srcAddr e.srcPort x.entry :: s.host.portOut } ∧ exec (.udpDatagram bytes op e) s = .next { s with host := h }) ∧
        ((e.session = 0 ∨ s.host.sessionOk f = false ∨ ∀ y ∈ s.host.udpSent, ¬ (y.session = e.session ∧ y.tag = e.tag)) →
          (op ∈ knownOpcodes → ∃ h, h = { s.host with udpQueue := s.host.udpQueue ++ [(op, f)] } ∧ exec (.udpDatagram bytes op e) s = .next { s with host := h }) ∧
          (op ∉ knownOpcodes → e.length ≤ 4080 → Entry.crcOk f = true →
            exec (.udpDatagram bytes op e) s = .next (s.answer (outstandingOf op f none) .unknown 0 (leBytes 4 0))))) ∧
      (∃ h, h = { s.host with portOut := .arpReply :: s.host.portOut } ∧ exec (.arpRequest (s.inUse 0x0F10)) s = .next { s with host := h }) ∧
      (∃ h, h = { s.host with portOut := .echoReply data :: s.host.portOut } ∧ exec (.icmpEcho (s.inUse 0x0F10) data) s = .next { s with host := h }) ∧
      (∀ x, x ≠ s.inUse 0x0F10 → exec (.arpRequest x) s = .next s ∧ exec (.icmpEcho x data) s = .next s)) ∧
    (∃ h : HostLink, exec (.ipReassemblyTimeout n) s = .next { s with host := h } ∧ n ∉ h.reassemblies ∧
      (∀ m, m ≠ n → (m ∈ h.reassemblies ↔ m ∈ s.host.reassemblies)) ∧ h.udpQueue = s.host.udpQueue ∧ h.portOut = s.host.portOut) ∧
    (s.accepts 0x0302 false true e u o → n = Entry.field e 0 2 → 1 ≤ n → n ≤ 339 → (Entry.body e).length = 4 + 12 * n →
      ((∀ i, i < n → (u.param (paramId e i)).isSome = true) → exec (.sysParamGet e) s = .next (u.answer o .done 0 (u.paramAnswer e n))) ∧
      (∀ i, i < n → u.param (paramId e i) = none → (∀ j, j < i → (u.param (paramId e j)).isSome = true) →
        exec (.sysParamGet e) s = .next (u.answer o .unknown 0 (leBytes 4 i)))) ∧
    (s.accepts 0x0303 true true e u o → n = Entry.field e 0 2 → 1 ≤ n → n ≤ 339 → (Entry.body e).length = 4 + 12 * n →
      ((∀ i, i < n → (writableParam (paramId e i)).isSome = true) → ∃ v : State, exec (.sysParamSet e) s = .next (v.answer o .done 0 (v.paramAnswer e n)) ∧
        v = { u with params := v.params } ∧ (n = 1 → v = u.store (paramId e 0) (Entry.field e 8 4))) ∧
      (∀ i, i < n → writableParam (paramId e i) = none → (∀ j, j < i → (writableParam (paramId e j)).isSome = true) →
        exec (.sysParamSet e) s = .next (u.answer o .unknown 0 (leBytes 4 i)))) ∧
    (∀ m : Instr, (m = .sysParamGet e ∧ s.accepts 0x0302 false true e u o) ∨ (m = .sysParamSet e ∧ s.accepts 0x0303 true true e u o) →
      (Entry.field e 0 2 = 0 ∨ 339 < Entry.field e 0 2 ∨ (Entry.body e).length ≠ 4 + 12 * Entry.field e 0 2) → exec m s = .next (u.badPayload o)) ∧
    (s.accepts 0x0304 false true e u o → exec (.sysIdentify e) s = .next (u.answer o .done 0 (leBytes 2 0x3840 ++
      leBytes 1 (match s.ident.variant with | .l => 1 | .f => 2) ++ leBytes 8 s.ident.serial ++ leBytes 4 s.ident.fwVersion.toNat ++
      (digestBytes u.formeDigest).take 8 ++ leBytes 1 s.life.state.code)))

/-- brg.start, brg.stop, brg.status and brg.poll_status answer as R342 says; a tunnel entry is checked and sent on (R326, R329,
R330, R333, R335, R336, R337, R342). brg.start is refused with STATE without a dynamic identifier; else it takes the stored
parameters (the defaults for profile 1), and queues a reset segment to each listed peer and nothing else of its own making.
brg.stop ends transactions, frames and reassemblies that are not whole, and pauses the transmit queues that hold entries. The
status commands answer their bytes. A transmit entry whose first failing check gives detail k raises ev.brg_refused with it; one
that passes all of Table 16-4 is sent by its type: a frame, a telegram (to the own port, or to a peer), a read or a write, each
with its segment and, for the last two, a transaction; a read beyond 256 is answered BUSY, a write beyond 256 stalls the queue.
Taking an entry moves its own queue alone. -/
def Obligations.BridgeCommandsAndTransmitEntries : Prop :=
  ∀ (s u : State) (o : Outstanding) (e : Entry) (ch n : Nat) (t : TunnelEntry),
    (s.accepts 0x1001 true true e u o → Entry.size e 1 = true →
      (s.net.dynamicIds = [] → exec (.brgStart e) s = .next (u.answer o .state 0 [])) ∧
      (s.net.dynamicIds ≠ [] → ∀ p, p = (if Entry.field e 0 1 = 0 then 0 else 1) → ∃ (v : State) (b : Bridge),
        v = (if p = 1 then u.defaultParams isBridgeParam else u).applyParams isBridgeParam ∧
        exec (.brgStart e) s = .next (({ v with bridge := b } : State).answer o .done 0 (leBytes 1 p)) ∧
        b.on = true ∧ b.paused = [] ∧ b.credit = [] ∧ b.replies = [] ∧ b.seconds = [] ∧ b.tx = s.bridge.tx ∧ b.txns = s.bridge.txns ∧
        (∀ g ∈ b.credits, g.reset = true ∧ g.kind = 7 ∧ g.channel < 8 ∧ g.dest ∈ v.peers g.channel) ∧
        (∀ c p, c < 8 → p ∈ v.peers c → ∃ g ∈ b.credits, g.channel = c ∧ g.dest = p))) ∧
    (s.accepts 0x1002 true true e u o → ∃ v : State, exec (.brgStop e) s = .next (v.answer o .done 0 []) ∧ v.bridge.on = false ∧ v.bridge.txns = [] ∧
      v.bridge.tx = [] ∧ v.bridge.seconds = [] ∧ v.bridge.credits = [] ∧ (∀ r ∈ v.bridge.reasm, r.whole = true) ∧ v.lanes = s.lanes ∧
      (∀ c, c ∈ v.bridge.paused ↔ c < 8 ∧ (v.host.queue (48 + c)).used ≠ 0)) ∧
    (s.accepts 0x1003 false true e u o → exec (.brgStatus e) s = .next (u.answer o .done 0 (leBytes 1 (if s.bridge.on then 1 else 0) ++ leBytes 3 0 ++
      leBytes 4 (s.bridge.txns.filter (·.isRead)).length ++ leBytes 4 s.bridge.drops ++ s.bridge.txFrames.flatMap (leBytes 4) ++
      s.bridge.rxFrames.flatMap (leBytes 4)))) ∧
    (s.accepts 0x1004 false true e u o → Entry.size e 2 = true → n = Entry.field e 0 2 →
      (n = 0 ∨ (∀ k, k < 64 → s.inUse (0x2C00 + k) ≠ n) → exec (.brgPollStatus e) s = .next (u.answer o .state 0 [])) ∧
      (∀ k, n ≠ 0 → k < 64 → s.inUse (0x2C00 + k) = n → (∀ j, j < k → s.inUse (0x2C00 + j) ≠ n) → exec (.brgPollStatus e) s =
        .next (u.answer o .done 0 (leBytes 2 n ++ leBytes 2 (s.bridge.poll k).fails ++ leBytes 4 ((s.bridge.poll k).ageNs / 1000000) ++
          (s.bridge.poll k).block)))) ∧
    (s.tunnelFail ch t = 0 ↔ t.length ≤ 4080 ∧ t.length + 20 ≤ (s.host.queue (48 + ch)).entryBytes ∧ t.payload.length = t.length ∧
      crc32c t.payload = t.crc.toNat ∧ tunnelLength t.typ t.length = true ∧ 1 ≤ t.typ ∧ t.typ ≤ 4 ∧
      (t.peer ∈ s.peers ch ∨ (t.peer = 0xFFFF ∧ t.typ = 1)) ∧ s.bridge.on = true) ∧
    (s.netOn = true → ch < 8 → s.host.moves (48 + ch) = true → (s.host.queue (48 + ch)).used ≠ 0 →
      (s.bridge.on = false → ch ∈ s.bridge.paused → exec (.tunnelTransmitEntry ch t) s = .next s) ∧
      (∀ v, s.bridge.on = true ∨ ch ∉ s.bridge.paused → v = s.takeTunnel ch →
        (∀ k, s.tunnelFail ch t = k → k ≠ 0 → exec (.tunnelTransmitEntry ch t) s =
          .next (v.raise evBrgRefused (leBytes 2 t.tag ++ leBytes 1 ch ++ leBytes 1 k))) ∧
        (s.tunnelFail ch t = 0 →
          (t.typ = 1 → ∃ b, b = { v.bridge with tx := v.bridge.tx ++ [ethernetReq ch t.peer v.bridge.seq t.payload], seq := (v.bridge.seq + 1) % 65536 } ∧
            exec (.tunnelTransmitEntry ch t) s = .next { v with bridge := b }) ∧
          (∀ g, t.typ = 2 → g = telegramOf (t.addr % 256) t.payload →
            (t.peer = s.me → exec (.tunnelTransmitEntry ch t) s = .next (v.sendTelegram (min t.port 1) g)) ∧
            (t.peer ≠ s.me → ∃ r b, r = plainReq ch t.peer (segment 2 ch t.peer v.bridge.seq (min t.port 1) (Telegram.bytes g)) ∧
              b = { v.bridge with tx := v.bridge.tx ++ [r], seq := (v.bridge.seq + 1) % 65536 } ∧
              exec (.tunnelTransmitEntry ch t) s = .next { v with bridge := b })) ∧
          (t.typ = 3 → (256 ≤ s.bridge.reads.length → exec (.tunnelTransmitEntry ch t) s = .next ((v.deliverEntry ch t.peer false
              (v.tunnelEntry 0x0083 t.tag t.peer 0xFF .busy 5 [])).recordBatch [recCount 0x0108 2])) ∧
            (s.bridge.reads.length < 256 → ∃ r x b, r = plainReq ch t.peer (segment 3 ch t.peer t.tag 0 (beBytes 4 t.addr ++ beBytes 4 (readCount (leNat t.payload)))) ∧
              x = { tag := t.tag, channel := ch, peer := t.peer, addr := t.addr, isRead := true } ∧
              b = { v.bridge with tx := v.bridge.tx ++ [r], txns := v.bridge.txns ++ [x] } ∧ exec (.tunnelTransmitEntry ch t) s = .next { v with bridge := b })) ∧
          (t.typ = 4 → (256 ≤ s.bridge.writes.length → exec (.tunnelTransmitEntry ch t) s = .next (s.stallQueue (48 + ch))) ∧
            (s.bridge.writes.length < 256 → ∃ r x b, r = plainReq ch t.peer (segment 5 ch t.peer t.tag 0 (beBytes 4 t.addr ++ t.payload)) ∧
              x = { tag := t.tag, channel := ch, peer := t.peer, addr := t.addr, isRead := false } ∧
              b = { v.bridge with tx := v.bridge.tx ++ [r], txns := v.bridge.txns ++ [x] } ∧ exec (.tunnelTransmitEntry ch t) s = .next { v with bridge := b }))))) ∧
    (∃ q l, s.takeTunnel ch = { s with host := { s.host with queues := q }, bridge := { s.bridge with paused := l } } ∧ ch ∉ l ∧
      ∀ m, m ≠ 48 + ch → ∀ g, g = { s.host with queues := q } → g.queue m = s.host.queue m)

/-- Segments from the network, credits, reassembly, timeouts, telegrams of the serial ports and the polls of neighbours (R332, R333,
R335, R336, R338, R339, R340, R341). For a segment of a listed peer to this node: a frame starts a buffer or is dropped with
four in use, a whole one goes to its queue, a part without its beginning is ignored; a telegram goes out at its port; a read or
write of this node is answered with detail 2; a reply ends its transaction, or is dropped without one. A reset ends everything
with that peer and channel, zeroes both counts and raises ev.brg_peer_reset. A report that is due is queued once. A reassembly
that times out and an entry that found no room are dropped, counted and reported; a read that times out is answered STATE with
detail 1, a failed write raises ev.brg_write_error. A telegram is delivered to the host or sent to its peer by the mode of its
port, a bad one raises ev.brg_serial_error; a sent one makes room for the next. A poll that answers keeps its block and comes
back with ev.brg_poll_back; the third in a row without answer raises ev.brg_poll_lost. -/
def Obligations.SegmentsTelegramsAndPolls : Prop :=
  ∀ (s : State) (g : Segment) (ch peer tag d : Nat) (x : Txn) (r : Reassembly) (tel : Telegram),
    (s.bridgeOn = true → g.channel < 8 → g.sender ∈ s.peers g.channel → g.dest = s.me ∨ g.dest = 0xFFFF →
      (∀ w, w = ({ s with bridge := s.bridge.credited g } : State) → g.reset = false →
        (g.kind = 1 → g.index = 0 → 4 ≤ s.bridge.buffers g.channel g.sender → exec (.tunnelSegment g) s = .next { w with bridge := w.bridge.drop }) ∧
        (g.kind = 1 → g.index = 0 → s.bridge.buffers g.channel g.sender < 4 →
          (g.last = false → ∃ q b, q = { channel := g.channel, peer := g.sender, tag := g.tag, data := g.data, credited := g.dest != 0xFFFF, whole := false, entry := none } ∧
            b = { w.bridge with reasm := w.bridge.reasm ++ [q] } ∧ exec (.tunnelSegment g) s = .next { w with bridge := b }) ∧
          (g.last = true → exec (.tunnelSegment g) s = .next (w.ethernetIn g.channel g.sender g.tag (g.dest != 0xFFFF) g.data))) ∧
        (g.kind = 1 → g.index ≠ 0 → (∀ q ∈ s.bridge.reasm, ¬ (q.channel = g.channel ∧ q.peer = g.sender ∧ q.tag = g.tag ∧ q.whole = false)) →
          exec (.tunnelSegment g) s = .next w) ∧
        (g.kind = 2 → exec (.tunnelSegment g) s = .next (({ w with bridge := (w.bridge.consume g.channel g.sender).delivered g.channel } : State).telegramOut
          (min g.detail 1) (telegramIn g.data))) ∧
        (g.kind = 3 ∨ g.kind = 5 → ∃ b, b = { w.bridge.consume g.channel g.sender with
            replies := (w.bridge.consume g.channel g.sender).replies ++ [segment (g.kind + 1) g.channel g.sender g.tag 0x02 []] } ∧
          exec (.tunnelSegment g) s = .next { w with bridge := b }) ∧
        (g.kind = 4 → s.bridge.reads.find? (fun t => t.tag == g.tag && t.channel == g.channel && t.peer == g.sender) = some x →
          exec (.tunnelSegment g) s = .next (w.endRead x g.detail (if g.detail = 0 then g.data else []))) ∧
        (g.kind = 4 → s.bridge.reads.find? (fun t => t.tag == g.tag && t.channel == g.channel && t.peer == g.sender) = none →
          exec (.tunnelSegment g) s = .next { w with bridge := w.bridge.drop }) ∧
        (g.kind = 6 → s.bridge.writes.find? (fun t => t.tag == g.tag && t.channel == g.channel && t.peer == g.sender) = some x →
          exec (.tunnelSegment g) s = .next (w.endWrite x g.detail))) ∧
      (g.reset = true → ∃ v : State, exec (.peerReset g) s = .next (v.raise evBrgPeerReset (leBytes 1 g.channel ++ leBytes 2 g.sender)) ∧
        (∀ t ∈ v.bridge.txns, ¬ (t.channel = g.channel ∧ t.peer = g.sender)) ∧ v.bridge.creditOf g.channel g.sender = .fresh g.channel g.sender ∧ v.lanes = s.lanes)) ∧
    (s.bridgeOn = true → ch < 8 → peer ∈ s.peers ch → (∀ q ∈ s.bridge.credits, ¬ (q.channel = ch ∧ q.dest = peer)) → ∃ b,
      b = { s.bridge with credits := s.bridge.credits ++ [segment 7 ch peer 0 0 []] } ∧ exec (.creditReport ch peer) s = .next { s with bridge := b }) ∧
    (s.bridgeOn = true → s.bridge.reasm.find? (fun r => r.channel == ch && r.peer == peer && !r.whole) = some r → ∃ b,
      b = (if r.credited then Bridge.consume { s.bridge with reasm := s.bridge.reasm.erase r } ch peer else { s.bridge with reasm := s.bridge.reasm.erase r }).drop ∧
      exec (.brgReasmTimeout ch peer) s = .next (({ s with bridge := b } : State).raise evBrgReasmTimeout (leBytes 1 ch ++ leBytes 2 peer))) ∧
    (s.power.running = true →
      (s.bridge.reasm.find? (fun r => r.channel == ch && r.entry.isSome) = some r → ∃ b,
        b = (if r.credited then Bridge.consume { s.bridge with reasm := s.bridge.reasm.erase r } ch r.peer else { s.bridge with reasm := s.bridge.reasm.erase r }).drop ∧
        exec (.brgDiscard ch) s = .next (({ s with bridge := b } : State).raiseWith evBrgDiscard (leBytes 2 r.tag ++ leBytes 1 ch) [recCount 0x0750 0])) ∧
      (s.bridge.reads.find? (fun t => t.tag == tag) = some x → ∃ v : State, v = { s with bridge := { s.bridge with txns := s.bridge.txns.erase x } } ∧
        exec (.readTimeout tag) s = .next (v.deliverEntry x.channel x.peer false (v.tunnelEntry 0x0083 x.tag x.peer 0xFF .state 0x01 []))) ∧
      (s.bridge.writes.find? (fun t => t.tag == tag) = some x → d ≠ 0 → ∃ v : State, v = { s with bridge := { s.bridge with txns := s.bridge.txns.erase x } } ∧
        exec (.brgWriteError tag d) s = .next (v.raise evBrgWriteError
          (leBytes 1 x.channel ++ leBytes 1 d ++ leBytes 2 x.tag ++ leBytes 2 x.peer ++ leBytes 4 x.addr)))) ∧
    (∀ p, s.bridgeOn = true → p < 2 →
      (s.portMode p ≠ 0 → telegramBad tel = true → exec (.telegramReceive p tel) s = .next (s.raise evBrgSerialError (leBytes 1 p))) ∧
      (s.portMode p = 1 → telegramBad tel = false → exec (.telegramReceive p tel) s =
        .next (s.deliverEntry (6 + p) s.me false (s.tunnelEntry 0x0082 0 s.me p .done 0 tel.data))) ∧
      (∀ q, s.portMode p ≠ 0 → s.portMode p ≠ 1 → telegramBad tel = false → q = s.inUse (0x1008 + p) →
        (q ∈ s.peers (6 + p) → ∃ b, b = { s.bridge with seq := (s.bridge.seq + 1) % 65536, tx := s.bridge.tx ++
            [plainReq (6 + p) q (segment 2 (6 + p) q s.bridge.seq (s.inUse (0x100A + p)) (Telegram.bytes tel))] } ∧
          exec (.telegramReceive p tel) s = .next { s with bridge := b }) ∧
        (q ∉ s.peers (6 + p) → exec (.telegramReceive p tel) s = .next { s with bridge := s.bridge.drop })) ∧
      ((s.serial p).sending = true → ∃ y : Serial, exec (.telegramSent p) s = .next (s.setSerial p y) ∧
        (∀ a l, (s.serial p).waiting = a :: l → y = { sending := true, waiting := l, out := a :: (s.serial p).out }) ∧
        ((s.serial p).waiting = [] → y = { sending := false, waiting := [], out := (s.serial p).out }))) ∧
    (∀ p, exec (.telegramGap p) s = .next s) ∧
    (∀ k node w, s.bridgeOn = true → k < 64 → node = s.inUse (0x2C00 + k) → node ≠ 0 → w = s.bridge.poll k →
      (∀ blk, ∃ y v, y = { w with block := (blk ++ List.replicate 64 0).take 64, ageNs := 0, fails := 0, lost := false } ∧ v = { s with bridge := s.bridge.setPoll y } ∧
        exec (.sideBandPoll k (some blk)) s = .next (if w.lost then v.raise evBrgPollBack (leBytes 2 node) else v)) ∧
      (∃ y v, y = { w with fails := w.fails + 1, lost := w.lost || decide (2 ≤ w.fails) } ∧ v = { s with bridge := s.bridge.setPoll y } ∧
        exec (.sideBandPoll k none) s = .next (if w.lost = false ∧ 2 ≤ w.fails then v.raise evBrgPollLost (leBytes 2 node) else v)))

/-- An update session: the colophon's checks, the download in parts, verification and its three endings, abort and expiry (R345,
R348, R349, R350, R351, R352, R353, R354). upd.begin passes exactly when every check of Table 17-3 holds, which are listed; then
it creates the session, or resumes the one of this source, and answers state, chunk count, chunks held and the first missing
one; a failing colophon is answered with its status and detail and raises ev.upd_refused. Without a session a command of the
source is answered STATE, of another source BUSY, in another state STATE. A chunk part of a wrong length is FRAMING with detail
7; a held chunk is answered DONE; with the buffer full a new one is BUSY; both parts with a good tag are stored with their
CRC-64 and held, with a bad one freed with REFUSED and detail 0x0A. upd.verify needs every chunk and empties the free slot.
Verification ends with the first bad chunk given up, with a digest that differs and the session ended, or with the slot
verified. upd.abort, by the source or under a token of the type, and 30 days of silence free staging and end it; a trial does
not. -/
def Obligations.UpdateSessionRuns : Prop :=
  ∀ (s u : State) (o : Outstanding) (e : Entry) (b : List Byte) (q : UpdSession), b = Entry.body e →
    (∀ h a un c, c = colophonOf b h a → s.accepts 0x1201 true true e u o →
      (u.colophonFail o b c un = none ↔ b.length = 512 ∧ s.life.state ≠ .retired ∧ (c.typ = 2 → s.xchg.state = .idle) ∧
        (∀ q, s.update.session = some q → q.source = u.sourceOf o ∧ q.colophon.bytes = b) ∧ fieldAt b 0 4 = 0x43585350 ∧ fieldAt b 4 2 = 1 ∧
        1 ≤ c.typ ∧ c.typ ≤ 4 ∧ s.partFits b = true ∧ s.shapeFits b c = true ∧ s.verifies s.ident.rootKey h = true ∧
        (c.typ = 2 → s.verifies s.life.authority a = true) ∧ (c.typ = 2 ∨ c.typ = 3 → c.installation = s.life.installation) ∧
        (s.update.record.entry c.typ).floor ≤ c.rollback ∧ un = true ∧ s.power.cryptoDown = false) ∧
      (∀ st d, u.colophonFail o b c un = some (st, d) → exec (.updBegin e h a un) s = .next ((u.answer o st d []).raiseWith evUpdRefused (leBytes 1 d)
        (recCount 0x0710 d :: (if st = .framing then [recCount 0x0700 d] else [])))) ∧
      (u.colophonFail o b c un = none → s.update.session = none → ∃ x t, x = { s.update with
            state := 1, session := some { colophon := c, source := u.sourceOf o, held := [], stored := [] }, parts := [], idleS := 0 } ∧
          t = ({ u with update := x } : State) ∧ exec (.updBegin e h a un) s =
            .next ((t.answer o .done 0 (leBytes 1 1 ++ leBytes 3 0 ++ leBytes 4 c.chunks ++ leBytes 4 0 ++ leBytes 4 0)).raise evUpdBegun (leBytes 1 c.typ))) ∧
      (u.colophonFail o b c un = none → s.update.session = some q → ∃ x, x = { s.update with idleS := 0 } ∧ exec (.updBegin e h a un) s =
        .next (({ u with update := x } : State).answer o .done 0 (leBytes 1 s.update.state ++ leBytes 3 0 ++ leBytes 4 q.colophon.chunks ++
          leBytes 4 q.held.length ++ leBytes 4 (((List.range q.colophon.chunks).find? (fun i => !q.held.contains i)).getD 0xFFFFFFFF))))) ∧
    (s.accepts 0x1203 false true e u o → ∃ r, (s.update.session = none → r = leBytes 4 0) ∧
      (s.update.session = some q → r = leBytes 4 q.colophon.chunks ++ q.bitmap) ∧
      exec (.updStatus e) s = .next (u.answer o .done 0 (leBytes 1 s.update.state ++ leBytes 3 0 ++ r))) ∧
    (∀ c op at', (∃ ok, c = .updChunk e ok ∧ op = 0x1202 ∧ at' = [1] ∧ 8 ≤ b.length) ∨ (c = .updVerify e ∧ op = 0x1204 ∧ at' = [1]) ∨
        (∃ f, c = .updActivate e f ∧ op = 0x1205 ∧ at' = [3]) ∨ (∃ sig, c = .updAbort e sig ∧ op = 0x1207 ∧ at' = [1, 2, 3] ∧ b = []) →
      s.accepts op true true e u o →
      (s.update.session = none → exec c s = .next (u.answer o .state 0 [])) ∧
      (s.update.session = some q → q.source ≠ u.sourceOf o → exec c s = .next (u.answer o .busy 0 [])) ∧
      (s.update.session = some q → q.source = u.sourceOf o → s.update.state ∉ at' → exec c s = .next (u.answer o .state 0 []))) ∧
    (s.update.session = some q →
      (∀ ok i part data, i = min (fieldAt b 0 4) (q.colophon.chunks - 1) → part = min 1 (fieldAt b 4 1) → data = b.drop 8 → 8 ≤ b.length →
        s.accepts 0x1202 true true e u o → q.source = u.sourceOf o → s.update.state = 1 →
        (data.length ≠ q.colophon.partBytes i part → exec (.updChunk e ok) s = .next ((u.answer o .framing 7 []).recordBatch [recCount 0x0700 7])) ∧
        (data.length = q.colophon.partBytes i part → i ∈ q.held → ∃ x, x = { s.update with idleS := 0 } ∧
          exec (.updChunk e ok) s = .next (({ u with update := x } : State).answer o .done 0 (leBytes 4 i ++ leBytes 4 q.held.length))) ∧
        (data.length = q.colophon.partBytes i part → i ∉ q.held →
          (s.update.partsOf i = [] → 32 ≤ s.update.staged → exec (.updChunk e ok) s = .next ((u.answer o .busy 0 []).recordBatch [recCount 0x0108 6])) ∧
          (s.update.partsOf i ≠ [] ∨ s.update.staged < 32 → ∃ ps, ps = s.update.parts.filter (fun p => !(p.1 == i && p.2.1 == part)) ++ [(i, part, data)] ∧
            ((ps.filter (fun p => p.1 == i)).length ≠ 2 → ∃ x, x = { s.update with idleS := 0, parts := ps } ∧
              exec (.updChunk e ok) s = .next (({ u with update := x } : State).answer o .done 0 (leBytes 4 i ++ leBytes 4 q.held.length))) ∧
            ((ps.filter (fun p => p.1 == i)).length = 2 → ok = false ∨ s.power.cryptoDown = true →
              ∃ x, x = { s.update with idleS := 0, parts := ps.filter (fun p => p.1 != i) } ∧
              exec (.updChunk e ok) s = .next (({ u with update := x } : State).answer o .refused 0x0A [])) ∧
            ((ps.filter (fun p => p.1 == i)).length = 2 → ok = true → s.power.cryptoDown = false →
              ∃ k w r x, r = { q with held := k, stored := kvSet q.stored i (w ++ leBytes 8 (crcOf 3 w)) } ∧ (∀ j, j ∈ k ↔ j = i ∨ j ∈ q.held) ∧
              w = ({ s.update with parts := ps } : Update).chunkData i ∧
              x = { s.update with idleS := 0, parts := ps.filter (fun p => p.1 != i), session := some r } ∧
              exec (.updChunk e ok) s = .next (({ u with update := x } : State).answer o .done 0 (leBytes 4 i ++ leBytes 4 k.length)))))) ∧
      (s.accepts 0x1204 true true e u o → q.source = u.sourceOf o → s.update.state = 1 →
        (q.held.length < q.colophon.chunks → exec (.updVerify e) s = .next (u.answer o .state 0 [])) ∧
        (q.colophon.chunks ≤ q.held.length → ∃ x, x = ({ s.update with idleS := 0 } : Update).setNand q.colophon.typ (s.update.freeSlotOf q.colophon.typ) .empty ∧
          exec (.updVerify e) s = .next (({ u with update := { x with state := 2 } } : State).answer o .done 0 [2]))) ∧
      (∀ dg reads bad, s.power.running = true → s.host.stewardUp = true → s.update.state = 2 →
        (∀ i, i < q.colophon.chunks → bad = some i ∨ chunkOk ((kvGet reads i).getD (kvGetD q.stored i [])) = false →
          (∀ j, j < i → bad ≠ some j ∧ chunkOk ((kvGet reads j).getD (kvGetD q.stored j [])) = true) →
          ∃ x r, r = { q with held := removeAll q.held i, stored := q.stored.filter (fun p => p.1 != i) } ∧
            x = { s.update with state := 1, session := some r } ∧
            exec (.verificationComplete dg ⟨reads, bad⟩) s = .next (({ s with update := x } : State).raise evUpdVerifyFail (leBytes 4 i))) ∧
        ((∀ j, j < q.colophon.chunks → bad ≠ some j ∧ chunkOk ((kvGet reads j).getD (kvGetD q.stored j [])) = true) →
          (dg ≠ q.colophon.digest → ∃ x, x = { s.update with state := 0, session := none, parts := [], idleS := 0 } ∧
            exec (.verificationComplete dg ⟨reads, bad⟩) s = .next (({ s with update := x } : State).raise evUpdVerifyFail (leBytes 4 0xFFFFFFFF))) ∧
          (dg = q.colophon.digest → ∃ x, x = s.update.setNand q.colophon.typ (1 - (s.update.record.entry q.colophon.typ).current)
              { verified := true, colophon := some q.colophon, chunks := q.stored } ∧
            exec (.verificationComplete dg ⟨reads, bad⟩) s = .next (({ s with update := { x with state := 3 } } : State).raise evUpdVerified (leBytes 1 q.colophon.typ))))) ∧
      (∀ x, x = { (s.update.setNand q.colophon.typ (s.update.freeSlotOf q.colophon.typ) .empty) with state := 0, session := none, parts := [], idleS := 0 } →
        (∀ sig, s.accepts 0x1207 true true e u o → b = [] → q.source = u.sourceOf o → s.update.state ∈ [1, 2, 3] → exec (.updAbort e sig) s =
          .next ((({ u with update := x } : State).answer o .done 0 [0]).recordBatch [updKeep 3 q.colophon.typ 0])) ∧
        (∀ sig v, s.accepts 0x1207 true true e u o → b ≠ [] → tokSized b = true → u.tokenFail [0x09] b sig = 0 → v = u.countToken b →
          (s.update.state ∉ [1, 2, 3] → exec (.updAbort e sig) s = .next (v.answer o .state 0 [])) ∧
          (s.update.state ∈ [1, 2, 3] → fieldAt (tokBody b) 0 1 ≠ q.colophon.typ → exec (.updAbort e sig) s = .next (v.answer o .auth 0 [])) ∧
          (s.update.state ∈ [1, 2, 3] → fieldAt (tokBody b) 0 1 = q.colophon.typ → exec (.updAbort e sig) s =
            .next ((({ v with update := x } : State).answer o .done 0 [0]).recordBatch [updKeep 3 q.colophon.typ 0])))) ∧
      (∀ x, x = { s.update with state := 0, session := none, parts := [], idleS := 0 } → s.power.running = true → s.host.stewardUp = true →
        (s.update.state ≠ 4 ∧ 2592000 ≤ s.update.idleS → exec .updExpired s =
          .next (({ s with update := x } : State).raiseWith evUpdExpired (leBytes 1 q.colophon.typ) [updKeep 4 q.colophon.typ 0])) ∧
        (s.update.state = 4 ∨ s.update.idleS < 2592000 → exec .updExpired s = .next s)))

/-- Activation writes the boot record and restarts cold, confirmation makes the trial current, and attestation reports (R106, R355,
R359, R362, R363). upd.activate is STATE in Operation, and for a forme during an exchange; else a copy of the winning record
with the verified slot on trial and the next sequence replaces the losing record and wins, the trial count is 0, the command is
answered DONE with ev.upd_activated, and the module starts cold. upd.confirm under its token is STATE unless the trial image
runs, AUTH unless the token names type and digest; else the record with the trial slot current, no trial, the version and the
floor of the image wins, the old configuration copy is erased and the session ends. upd.attest builds one report at a time (BUSY
meanwhile), of 448 bytes with the magic, the state and the nonce, which then goes out with its signature. -/
def Obligations.ImagesActivateConfirmAndAttest : Prop :=
  ∀ (s u : State) (o : Outstanding) (e : Entry) (b : List Byte) (q : UpdSession) (sig : Sig) (f : StartFacts), b = Entry.body e →
    (s.accepts 0x1205 true true e u o → s.update.session = some q → q.source = u.sourceOf o → s.update.state = 3 →
      ((s.life.state = .operation ∨ s.life.state = .retired) ∨ (q.colophon.typ = 2 ∧ s.xchg.state ≠ .idle) →
        exec (.updActivate e f) s = .next (u.answer o .state 0 [])) ∧
      (s.life.state = .manufacture ∨ s.life.state = .commissioning ∨ s.life.state = .maintenance → (q.colophon.typ = 2 → s.xchg.state = .idle) →
        ∃ w r t, r = s.update.record ∧ w.winner = some { (r.setEntry q.colophon.typ (fun x =>
            { x with trial := some (1 - (r.entry q.colophon.typ).current), trialVersion := q.colophon.version })) with valid := true, seq := r.seq + 1 } ∧
          (w.boot0 = s.update.boot0 ∨ w.boot1 = s.update.boot1) ∧ w.state = 4 ∧ w.session = some q ∧ w.trialBoots = 0 ∧ w.trialSeq = r.seq + 1 ∧
          exec (.updActivate e f) s = .next t ∧ (∀ v, v = ((({ u with update := w } : State).answer o .done 0 (leBytes 4 (r.seq + 1))).raiseWith evUpdActivated
            (leBytes 1 q.colophon.typ) [updKeep 1 q.colophon.typ (r.seq + 1)]).stopVital →
            t = ({ v with power := { v.power with coldAsked := true } } : State).start f 3 false ∧
            (startPasses f 0x40 = true → Started { v with power := { v.power with coldAsked := true } } t f 3)))) ∧
    (s.accepts 0x1206 true true e u o → tokSized b = true → u.tokenFail [0x08] b sig = 0 → ∀ v, v = u.countToken b →
      (s.update.session = none → exec (.updConfirm e sig) s = .next (v.answer o .state 0 [])) ∧
      (s.update.session = some q →
        (q.source ≠ u.sourceOf o → exec (.updConfirm e sig) s = .next (v.answer o .busy 0 [])) ∧
        (q.source = u.sourceOf o → s.update.state ≠ 4 ∨ s.trialImageRuns q = false → exec (.updConfirm e sig) s = .next (v.answer o .state 0 [])) ∧
        (q.source = u.sourceOf o → s.update.state = 4 → s.trialImageRuns q = true →
          (fieldAt (tokBody b) 0 1 ≠ q.colophon.typ ∨ digestAt (tokBody b) 4 ≠ q.colophon.digest → exec (.updConfirm e sig) s = .next (v.answer o .auth 0 [])) ∧
          (fieldAt (tokBody b) 0 1 = q.colophon.typ → digestAt (tokBody b) 4 = q.colophon.digest →
            ∃ w r, r = s.update.record ∧ w.winner = some { (r.confirm q.colophon) with valid := true, seq := r.seq + 1 } ∧
              (w.boot0 = s.update.boot0 ∨ w.boot1 = s.update.boot1) ∧ w.session = none ∧ w.parts = [] ∧ w.state = 0 ∧
              w.nand = (match r.cfgOld with | some k => setNth s.update.nand (4 + k) .empty | none => s.update.nand) ∧
              exec (.updConfirm e sig) s = .next ((({ v with update := w } : State).answer o .done 0 (leBytes 4 (r.seq + 1))).raiseWith evUpdConfirmed
                (leBytes 1 q.colophon.typ) [updKeep 2 q.colophon.typ (r.seq + 1)]))))) ∧
    (∀ (r : BootRec) (c : Colophon), 1 ≤ c.typ → c.typ ≤ r.entries.length → ∀ k, (r.entry c.typ).trial = some k → ∃ x, x = (r.confirm c).entry c.typ ∧
      x.current = k ∧ x.trial = none ∧ x.floor = c.rollback ∧ x.currentVersion = c.version ∧ (r.confirm c).cfgOld = none) ∧
    (s.accepts 0x1208 false true e u o → Entry.size e 32 = true →
      (s.update.signing.isSome = true → exec (.updAttest e) s = .next (u.answer o .busy 0 [])) ∧
      (s.update.signing = none → s.power.cryptoDown = false → ∃ w r, r = s.attestReport (b.take 32) ∧ r.length = 448 ∧
        (r.drop 0x18).take 32 = b.take 32 ∧ fieldAt r 0 4 = 0x41585350 ∧ fieldAt r 6 1 = s.life.state.code ∧
        w = { s.update with signing := some (o, r) } ∧ exec (.updAttest e) s = .next (({ u with update := w } : State).keep o))) ∧
    (∀ p, s.update.signing = some p →
      (s.power.running = true → s.host.stewardUp = true → s.power.cryptoDown = false → ∃ w, w = { s.update with signing := none } ∧
        exec .reportSigned s = .next (({ s with update := w } : State).answerOut p.1 .done 0 (p.2 ++ leBytes 114 (Config.signature p.2).toNat))) ∧
      (s.power.running = false ∨ s.host.stewardUp = false ∨ s.power.cryptoDown = true → exec .reportSigned s = .next s))

/-- A token is checked in order and counted before its command acts; transitions, key writes and the status of the life cycle (R365,
R366, R367, R369, R370, R371). A token that fails is answered AUTH with ev.token_refused and the step; it passes exactly when
magic, format, kind, length, signer, serial, a held key, the signature and a higher sequence hold. Passing writes the signer's
counter into a new copy of the record. A transition of Table 18-2 whose conditions hold writes the state and raises
ev.lcs_changed, else STATE; into Operation the proof timer starts at 0; into Retired the module is in the safe state with its
outputs open, no lane slot or checkpoint half is sealed, the keys, the installation and the images of types 2 and 3 are erased
and no session is left, the auxiliary counters being kept. A key write replaces the key and zeroes its own counter. lcs.status
answers state, the keys held and the counters. -/
def Obligations.LifeCycleMovesByTokens : Prop :=
  ∀ (s u : State) (o : Outstanding) (e : Entry) (b : List Byte) (sig : Sig), b = Entry.body e →
    (∀ c op kinds, (c = .lcsTransition e sig ∧ op = 0x1301 ∧ kinds = [0x01]) ∨ (c = .lcsKeyWrite e sig ∧ op = 0x1302 ∧ kinds = [0x02, 0x03, 0x04]) ∨
        (c = .recClear e sig ∧ op = 0x1503 ∧ kinds = [0x0A]) ∨ (c = .updConfirm e sig ∧ op = 0x1206 ∧ kinds = [0x08]) → s.accepts op true true e u o →
      tokSized b = true → ∀ n, n = u.tokenFail kinds b sig → n ≠ 0 →
        exec c s = .next ((u.answer o .auth 0 []).raiseWith evTokenRefused (leBytes 1 n) [recCount 0x0720 n])) ∧
    (∀ kinds n, n = s.tokenFail kinds b sig →
      (n = 0 ↔ fieldAt b 0 4 = 0x54585350 ∧ fieldAt b 4 1 = 1 ∧ tokKind b ∈ kinds ∧ tokBodyLen b = tokBodySize (tokKind b) ∧ s.maySign b = true ∧
        fieldAt b 8 8 = s.ident.serial ∧ s.signerKey b ≠ 0 ∧ sig.ok = true ∧ sig.key = s.signerKey b ∧ s.power.cryptoDown = false ∧
        nthD s.life.counters (tokCounter b) 0 < tokSeq b) ∧ n ≤ 5) ∧
    (∀ v, v = u.countToken b → tokSized b = true → v.life.seq = u.life.seq + 1 ∧ v.lifeOlder = u.life ∧
      v.life.counters = setNth u.life.counters (tokCounter b) (tokSeq b) ∧
      (s.accepts 0x1301 true true e u o → u.tokenFail [0x01] b sig = 0 → ∀ from' to' x, from' = fieldAt (tokBody b) 0 1 → to' = fieldAt (tokBody b) 1 1 →
        ∃ ok : Prop, (ok ↔ from' = s.life.state.code ∧ (from', to') ∈ [(0, 1), (1, 2), (2, 3), (3, 2), (3, 1), (0, 4), (1, 4), (2, 4), (3, 4)] ∧
            (to' = 2 → s.life.authority ≠ 0 ∧ s.forme.isSome = true ∧ s.vitalForce = false ∧ s.update.state ≠ 4 ∧ s.proofs.userRuns = false)) ∧
          (¬ ok → exec (.lcsTransition e sig) s = .next (v.answer o .state 0 [])) ∧
          (ok → to' ≠ 4 → lifeOf to' = some x → exec (.lcsTransition e sig) s = .next (((({ v with proofs := v.proofs.leaveService } : State).writeLife (fun f => { f with
            state := x, transitions := sat32 f.transitions 1, inServiceS := if to' = 2 then 0 else f.inServiceS })).raiseWith evLcsChanged
            (leBytes 1 from' ++ leBytes 1 to') [recKeep 0x0730 0 (leBytes 1 1 ++ leBytes 1 from' ++ leBytes 1 to' ++ leBytes 5 0)]).answer o .done 0 (leBytes 1 to'))) ∧
          (ok → to' = 4 → ∃ t, exec (.lcsTransition e sig) s = .next t ∧ t.life = { v.life with state := .retired, transitions := sat32 v.life.transitions 1, authority := 0, installation := 0, maintainer := List.replicate 8 0, seq := v.life.seq + 1 } ∧ t.lifeOlder = v.life ∧
            t.platen.safe = true ∧ (s.platen.safe = false ∨ s.outputsOpen = true → t.outputsOpen = true) ∧ t.unsealed ∧ (∀ l, (t.lanes.get l).slot0 = .empty ∧ (t.lanes.get l).slot1 = .empty) ∧ t.forme = none ∧
            t.update.session = none ∧ t.update.state = 0 ∧ t.update.nand = eraseNand s.update.nand ∧ t.req.auxCounts = s.req.auxCounts)) ∧
      (s.accepts 0x1302 true true e u o → u.tokenFail [0x02, 0x03, 0x04] b sig = 0 → ∀ i t w g, i = min (fieldAt (tokBody b) 0 1) 7 →
        (tokKind b = 2 → g = { v.life with authority := bodyKey (tokBody b) 0, installation := fieldAt (tokBody b) 57 8, counters := setNth v.life.counters 1 0 }) →
        (tokKind b = 3 → g = { v.life with maintainer := setNth v.life.maintainer i (bodyKey (tokBody b) 1), counters := setNth v.life.counters (2 + i) 0 }) →
        (tokKind b = 4 → g = { v.life with host := setNth v.life.host i (bodyKey (tokBody b) 1) }) →
        t = leBytes 1 (tokKind b) ++ leBytes 1 (if tokKind b = 2 then 0 else i) → w = ({ v with life := { g with seq := v.life.seq + 1 }, lifeOlder := v.life } : State) →
        exec (.lcsKeyWrite e sig) s = .next ((w.recordBatch [recKeep 0x0730 0 (leBytes 1 2 ++ t ++ leBytes 5 0)]).answer o .done 0 t))) ∧
    (s.accepts 0x1303 false true e u o → ∃ m, (m.testBit 0 = true ↔ s.life.authority ≠ 0) ∧
      (s.life.maintainer.length = 8 → ∀ i, i < 8 → (m.testBit (1 + i) = true ↔ nthD s.life.maintainer i 0 ≠ 0)) ∧
      exec (.lcsStatus e) s = .next (u.answer o .done 0 (leBytes 1 s.life.state.code ++ leBytes 3 0 ++ leBytes 4 m ++ s.life.counters.flatMap (leBytes 4))))

/-- rec.list, rec.read, rec.clear and rec.status; batches take the next number, and a clear empties every item but its own record
(R382, R383, R384, R385, R387, R388, R389, R390, R391, R406). rec.list and rec.read answer as many of the catalogue items asked
for as fit into 4 060 bytes, none split, rec.read with REC.SEQ before and after the batches that are applied while it copies.
rec.status and pwr.status answer the values of their parameter tables. rec.clear under its token is taken when the number named
is above the last clear, not above REC.SEQ and less than 1 048 576 behind it, and waits; else it is STATE with
ev.rec_clear_refused. A batch takes the next number, which every item it touches carries, the others being kept; none is applied
while a clear runs. A completed clear is answered with its number and leaves every item empty but item 0, which records it, the
life cycle and the auxiliary counters being kept. Stopped, neither does anything. -/
def Obligations.RecorderListsReadsAndClears : Prop :=
  ∀ (s u : State) (o : Outstanding) (e : Entry) (b : List Byte) (sig : Sig), b = Entry.body e →
    (s.accepts 0x1501 false true e u o → Entry.size e 4 = true → ∃ l, Fits 4060 ((recRange (Entry.field e 0 2) (Entry.field e 2 2)).map s.recorder.listEntry) l ∧
      exec (.recList e) s = .next (u.answer o .done 0 (leBytes 2 l.length ++ leBytes 2 0 ++ l.flatten))) ∧
    (∀ first count n, n ∈ recRange first count ↔ (recSpec n).isSome = true ∧ n < 4096 ∧ first ≤ n ∧ n < first + count) ∧
    (∀ k, s.accepts 0x1502 false true e u o → Entry.size e 4 = true → ∃ v l, exec (.recRead e k) s =
        .next (v.answer o .done 0 (leBytes 8 s.recorder.seq ++ leBytes 8 v.recorder.seq ++ leBytes 2 l.length ++ leBytes 2 0 ++ l.flatten)) ∧
      Fits 4060 ((recRange (Entry.field e 0 2) (Entry.field e 2 2)).map v.recorder.itemBytes) l ∧
      (k = 0 ∨ s.recorder.pending = [] ∨ s.recorder.clearing.isSome = true → v = u) ∧
      (s.recorder.clearing = none → v.recorder.seq = s.recorder.seq + min k s.recorder.pending.length ∧ s.recorder.pending.drop k <+: v.recorder.pending) ∧
      v.lanes = s.lanes ∧ v.platen = s.platen ∧ v.field = s.field ∧ v.net = s.net) ∧
    (s.accepts 0x1504 false true e u o → exec (.recStatus e) s = .next (u.answer o .done 0 (s.paramBytes 0x1501 ++ s.paramBytes 0x1502 ++
      s.paramBytes 0x1503 ++ s.paramBytes 0x1504 ++ s.paramBytes 0x1505))) ∧
    (s.accepts 0x1601 false true e u o → exec (.pwrStatus e) s = .next (u.answer o .done 0 (((List.range 9).map (0x1601 + ·)).flatMap s.paramBytes ++
      ((List.range 14).map (0x1610 + ·)).flatMap s.paramBytes))) ∧
    (s.accepts 0x1503 true true e u o → tokSized b = true → u.tokenFail [0x0A] b sig = 0 → ∀ v at' last, v = u.countToken b → at' = fieldAt (tokBody b) 0 8 →
      last = ((s.recorder.clearing.map (·.c)).getD s.recorder.lastClear) →
      (last < at' ∧ at' ≤ s.recorder.seq ∧ s.recorder.seq - at' < 1048576 → ∃ c r, c = ({ c := s.recorder.seq + 1, s := at', tokenSeq := tokSeq b, key := tokIndex b, session := o.session, answer := o } : RecClear) ∧
        r = { v.recorder with clearing := some c } ∧ exec (.recClear e sig) s = .next (({ v with recorder := r } : State).keep o)) ∧
      (at' ≤ last ∨ s.recorder.seq < at' ∨ 1048576 ≤ s.recorder.seq - at' → exec (.recClear e sig) s =
        .next ((v.answer o .state 0 []).raise evRecClearRefused (leBytes 8 at')))) ∧
    (s.power.running = true → s.host.stewardUp = true →
      (s.recorder.clearing = none → ∀ batch rest, s.recorder.pending = batch :: rest → ∃ t, exec .recorderBatch s = .next t ∧
        t.recorder.seq = s.recorder.seq + 1 ∧ rest <+: t.recorder.pending ∧
        (∀ n, (∀ x ∈ batch, x.item ≠ n) → t.recorder.item n = s.recorder.item n) ∧
        (∀ n, (∃ x ∈ batch, x.item = n) → (recSpec n).isSome = true → (t.recorder.item n).seq = s.recorder.seq + 1) ∧
        t.lanes = s.lanes ∧ t.platen = s.platen ∧ t.field = s.field) ∧
      (∀ c, s.recorder.clearing = some c → exec .recorderBatch s = .next s ∧ ∃ r t, exec .recorderClearComplete s = .next t ∧ r = s.recorder.finishClear c ∧
        t = ((({ s with recorder := r } : State).answerOut c.answer .done 0 (leBytes 8 c.c)).raise evRecCleared (leBytes 8 c.c)) ∧
        r.seq = c.c ∧ r.clears = sat32 s.recorder.clears 1 ∧ r.clearing = none ∧ r.lastClear = c.c ∧ (∀ n, n ≠ 0 → r.item n = .empty n ∧ r.itemSeq n = c.c) ∧
        ((∀ m, (s.recorder.item 0).max = some m → m.1 ≤ c.c) → ∃ low, (r.item 0).max = some ((c.c : Int), c.c, low) ∧ low.length = 24 ∧ low.take 16 = leBytes 4 c.tokenSeq ++ leBytes 1 c.key ++ leBytes 1 0 ++ leBytes 2 c.session ++ leBytes 8 c.s) ∧
        t.life = s.life ∧ t.req = s.req)) ∧
    (s.power.running = false ∨ s.host.stewardUp = false → exec .recorderBatch s = .next s ∧ exec .recorderClearComplete s = .next s)
end

