-- ==== Sys2Proof/Laws/Same.lean ====
section
/-! SUPPORT. The footprint of an operation: which parts of the state it may change, and the promises that hold of every operation. -/

set_option Elab.async false

namespace Sys2Proof.Laws

open Sys2Proof Sys2Proof.Machine

/-- `t` comes from `s` by an operation with footprint `k`. Bit i of `k` set allows the operation to change part i: 1 power, 2 lanes,
3 platen, 4 field side, 5 network, 6 train, 7 duplex, 8 host link, 9 parameters, 10 exchange, 11 requests, 12 CRC contexts, 13 bridge,
14 update, 15 and 16 the life-cycle records, 17 proofs, 18 recorder, 19 free values. The identity, and the commands that wait, no operation
changes. Bits 21 to 25 allow it to leave the safe state, to leave Retired, and to add a session, an outstanding command, or a CRC context. -/
structure Same (k : Nat) (s t : State) : Prop where
  pending : t.pending = s.pending
  ident : t.ident = s.ident
  power : k.testBit 1 = false → t.power = s.power
  lanes : k.testBit 2 = false → t.lanes = s.lanes
  platen : k.testBit 3 = false → t.platen = s.platen
  field : k.testBit 4 = false → t.field = s.field
  net : k.testBit 5 = false → t.net = s.net
  train : k.testBit 6 = false → t.train = s.train
  duplex : k.testBit 7 = false → t.duplex = s.duplex
  host : k.testBit 8 = false → t.host = s.host
  params : k.testBit 9 = false → t.params = s.params
  xchg : k.testBit 10 = false → t.xchg = s.xchg
  req : k.testBit 11 = false → t.req = s.req
  crc : k.testBit 12 = false → t.crc = s.crc
  bridge : k.testBit 13 = false → t.bridge = s.bridge
  update : k.testBit 14 = false → t.update = s.update
  life : k.testBit 15 = false → t.life = s.life
  lifeOlder : k.testBit 16 = false → t.lifeOlder = s.lifeOlder
  proofs : k.testBit 17 = false → t.proofs = s.proofs
  recorder : k.testBit 18 = false → t.recorder = s.recorder
  free : k.testBit 19 = false → t.free = s.free
  record : RecSound s.recorder → RecSound t.recorder ∧ s.recorder.seq ≤ t.recorder.seq
  safe : k.testBit 21 = false → s.platen.safe = true → t.platen.safe = true
  retired : k.testBit 22 = false → s.life.state = .retired → t.life.state = .retired
  sessions : k.testBit 23 = false → t.host.sessions.length ≤ s.host.sessions.length
  outstanding : k.testBit 24 = false → t.host.outstanding.length ≤ s.host.outstanding.length
  contexts : k.testBit 25 = false → t.crc.Sublist s.crc

theorem Same.refl (k : Nat) (s : State) : Same k s s := by
  constructor <;> first
    | rfl
    | exact fun _ => rfl
    | exact fun h => ⟨h, Nat.le_refl _⟩
    | exact fun _ h => h
    | exact fun _ => Nat.le_refl _
    | exact fun _ => List.Sublist.refl _

theorem bit_of_or {k k' : Nat} (e : k' ||| k = k) {i : Nat} (h : k.testBit i = false) : k'.testBit i = false := by
  have : (k' ||| k).testBit i = false := by rw [e]; exact h
  rw [Nat.testBit_or, Bool.or_eq_false_iff] at this
  exact this.1

/-- One operation after another: the footprint of the second lies within that of the whole. -/
theorem Same.chain {k k' : Nat} {s t u : State} (h : Same k s t) (g : Same k' t u) (e : k' ||| k = k) : Same k s u where
  pending := g.pending.trans h.pending
  ident := g.ident.trans h.ident
  power b := (g.power (bit_of_or e b)).trans (h.power b)
  lanes b := (g.lanes (bit_of_or e b)).trans (h.lanes b)
  platen b := (g.platen (bit_of_or e b)).trans (h.platen b)
  field b := (g.field (bit_of_or e b)).trans (h.field b)
  net b := (g.net (bit_of_or e b)).trans (h.net b)
  train b := (g.train (bit_of_or e b)).trans (h.train b)
  duplex b := (g.duplex (bit_of_or e b)).trans (h.duplex b)
  host b := (g.host (bit_of_or e b)).trans (h.host b)
  params b := (g.params (bit_of_or e b)).trans (h.params b)
  xchg b := (g.xchg (bit_of_or e b)).trans (h.xchg b)
  req b := (g.req (bit_of_or e b)).trans (h.req b)
  crc b := (g.crc (bit_of_or e b)).trans (h.crc b)
  bridge b := (g.bridge (bit_of_or e b)).trans (h.bridge b)
  update b := (g.update (bit_of_or e b)).trans (h.update b)
  life b := (g.life (bit_of_or e b)).trans (h.life b)
  lifeOlder b := (g.lifeOlder (bit_of_or e b)).trans (h.lifeOlder b)
  proofs b := (g.proofs (bit_of_or e b)).trans (h.proofs b)
  recorder b := (g.recorder (bit_of_or e b)).trans (h.recorder b)
  free b := (g.free (bit_of_or e b)).trans (h.free b)
  record r := ⟨(g.record (h.record r).1).1, Nat.le_trans (h.record r).2 (g.record (h.record r).1).2⟩
  safe b r := g.safe (bit_of_or e b) (h.safe b r)
  retired b r := g.retired (bit_of_or e b) (h.retired b r)
  sessions b := Nat.le_trans (g.sessions (bit_of_or e b)) (h.sessions b)
  outstanding b := Nat.le_trans (g.outstanding (bit_of_or e b)) (h.outstanding b)
  contexts b := (g.contexts (bit_of_or e b)).trans (h.contexts b)

theorem Same.cut {k : Nat} {s x t : State} (h : Same k s x) (g : Same k s x → Same k s t) : Same k s t := g h

theorem Same.ite {k : Nat} {s t u : State} {c : Prop} [Decidable c] (h : Same k s t) (g : Same k s u) :
    Same k s (if c then t else u) := by
  split
  · exact h
  · exact g

theorem Same.iteFst {k : Nat} {s : State} {α : Type} {t u : State × α} {c : Prop} [Decidable c] (h : Same k s t.1) (g : Same k s u.1) :
    Same k s (if c then t else u).1 := by
  split
  · exact h
  · exact g

/-- The same operation over a list. -/
theorem Same.fold {k : Nat} {α : Type} {f : State → α → State} (hf : ∀ t x, Same k t (f t x)) :
    ∀ (l : List α) {s t : State}, Same k s t → Same k s (l.foldl f t)
  | [], _, _, h => h
  | x :: l, _, t, h => Same.fold hf l (h.chain (hf t x) (Nat.or_self k))

/-- A larger footprint allows as much. -/
theorem Same.mono {k k' : Nat} {s t : State} (h : Same k' s t) (e : k' ||| k = k) : Same k s t := (Same.refl k s).chain h e

/-- Some parts written at once: those outside the footprint as they were, and the promises kept. -/
theorem Same.upd {k : Nat} (s : State)
    {power : Power}
    {lanes : Tri LaneState}
    {platen : Platen}
    {field : Field}
    {net : Net}
    {train : Train}
    {duplex : Duplex}
    {host : HostLink}
    {params : List ParamCell}
    {xchg : Xchg}
    {req : Requests}
    {crc : List CrcContext}
    {bridge : Bridge}
    {update : Update}
    {life : Life}
    {lifeOlder : Life}
    {proofs : Proofs}
    {recorder : Recorder}
    {free : Free}
    (h_power : k.testBit 1 = true ∨ power = s.power := by first | exact .inl rfl | exact .inr rfl)
    (h_lanes : k.testBit 2 = true ∨ lanes = s.lanes := by first | exact .inl rfl | exact .inr rfl)
    (h_platen : k.testBit 3 = true ∨ platen = s.platen := by first | exact .inl rfl | exact .inr rfl)
    (h_field : k.testBit 4 = true ∨ field = s.field := by first | exact .inl rfl | exact .inr rfl)
    (h_net : k.testBit 5 = true ∨ net = s.net := by first | exact .inl rfl | exact .inr rfl)
    (h_train : k.testBit 6 = true ∨ train = s.train := by first | exact .inl rfl | exact .inr rfl)
    (h_duplex : k.testBit 7 = true ∨ duplex = s.duplex := by first | exact .inl rfl | exact .inr rfl)
    (h_host : k.testBit 8 = true ∨ host = s.host := by first | exact .inl rfl | exact .inr rfl)
    (h_params : k.testBit 9 = true ∨ params = s.params := by first | exact .inl rfl | exact .inr rfl)
    (h_xchg : k.testBit 10 = true ∨ xchg = s.xchg := by first | exact .inl rfl | exact .inr rfl)
    (h_req : k.testBit 11 = true ∨ req = s.req := by first | exact .inl rfl | exact .inr rfl)
    (h_crc : k.testBit 12 = true ∨ crc = s.crc := by first | exact .inl rfl | exact .inr rfl)
    (h_bridge : k.testBit 13 = true ∨ bridge = s.bridge := by first | exact .inl rfl | exact .inr rfl)
    (h_update : k.testBit 14 = true ∨ update = s.update := by first | exact .inl rfl | exact .inr rfl)
    (h_life : k.testBit 15 = true ∨ life = s.life := by first | exact .inl rfl | exact .inr rfl)
    (h_lifeOlder : k.testBit 16 = true ∨ lifeOlder = s.lifeOlder := by first | exact .inl rfl | exact .inr rfl)
    (h_proofs : k.testBit 17 = true ∨ proofs = s.proofs := by first | exact .inl rfl | exact .inr rfl)
    (h_recorder : k.testBit 18 = true ∨ recorder = s.recorder := by first | exact .inl rfl | exact .inr rfl)
    (h_free : k.testBit 19 = true ∨ free = s.free := by first | exact .inl rfl | exact .inr rfl)
    (h_record : RecSound s.recorder → RecSound recorder ∧ s.recorder.seq ≤ recorder.seq := by
      exact fun h => ⟨⟨h.items, h.clear⟩, Nat.le_refl _⟩)
    (h_safe : k.testBit 21 = true ∨ (s.platen.safe = true → platen.safe = true) := by
      first | exact .inr fun h => h | exact .inr fun _ => rfl | exact .inl rfl)
    (h_retired : k.testBit 22 = true ∨ (s.life.state = .retired → life.state = .retired) := by first | exact .inr fun h => h | exact .inl rfl)
    (h_sessions : k.testBit 23 = true ∨ host.sessions.length ≤ s.host.sessions.length := by
      first | exact .inr (Nat.le_refl _) | exact .inl rfl | exact .inr (by simp [List.length_filter_le]))
    (h_outstanding : k.testBit 24 = true ∨ host.outstanding.length ≤ s.host.outstanding.length := by
      first | exact .inr (Nat.le_refl _) | exact .inl rfl | exact .inr (by simp [List.length_filter_le]))
    (h_contexts : k.testBit 25 = true ∨ crc.Sublist s.crc := by
      first | exact .inr (List.Sublist.refl _) | exact .inl rfl | exact .inr List.filter_sublist | exact .inr (List.nil_sublist _)) :
    Same k s (State.mk s.ident power lanes platen field net train duplex host params xchg req crc bridge update life lifeOlder proofs recorder free s.pending) where
  pending := rfl
  ident := rfl
  power b := h_power.resolve_left (by simp [b])
  lanes b := h_lanes.resolve_left (by simp [b])
  platen b := h_platen.resolve_left (by simp [b])
  field b := h_field.resolve_left (by simp [b])
  net b := h_net.resolve_left (by simp [b])
  train b := h_train.resolve_left (by simp [b])
  duplex b := h_duplex.resolve_left (by simp [b])
  host b := h_host.resolve_left (by simp [b])
  params b := h_params.resolve_left (by simp [b])
  xchg b := h_xchg.resolve_left (by simp [b])
  req b := h_req.resolve_left (by simp [b])
  crc b := h_crc.resolve_left (by simp [b])
  bridge b := h_bridge.resolve_left (by simp [b])
  update b := h_update.resolve_left (by simp [b])
  life b := h_life.resolve_left (by simp [b])
  lifeOlder b := h_lifeOlder.resolve_left (by simp [b])
  proofs b := h_proofs.resolve_left (by simp [b])
  recorder b := h_recorder.resolve_left (by simp [b])
  free b := h_free.resolve_left (by simp [b])
  safe b := h_safe.resolve_left (by simp [b])
  retired b := h_retired.resolve_left (by simp [b])
  sessions b := h_sessions.resolve_left (by simp [b])
  outstanding b := h_outstanding.resolve_left (by simp [b])
  contexts b := h_contexts.resolve_left (by simp [b])
  record := h_record

/-- What `exec` answers is a next state within the footprint. -/
def Leads (k : Nat) (s : State) (o : Host.Outcome State Fault Refusal) : Prop := ∃ t, o = .next t ∧ Same k s t

theorem Leads.next {k : Nat} {s t : State} (h : Same k s t) : Leads k s (.next t) := ⟨t, rfl, h⟩

theorem Leads.ite {k : Nat} {s : State} {c : Prop} [Decidable c] {x y : Host.Outcome State Fault Refusal}
    (hx : Leads k s x) (hy : Leads k s y) : Leads k s (if c then x else y) := by
  split
  · exact hx
  · exact hy

theorem Leads.mono {k k' : Nat} {s : State} {o : Host.Outcome State Fault Refusal} (h : Leads k' s o) (e : k' ||| k = k) :
    Leads k s o := by
  obtain ⟨t, rfl, g⟩ := h
  exact ⟨t, rfl, g.mono e⟩

end Sys2Proof.Laws
end

