-- ==== Sys2Proof/Laws/Parts.lean ====
section
/-! SUPPORT. What the operations on single parts keep: sessions and outstanding commands of the host link, and the order of the
recorder's numbers. -/

set_option Elab.async false

namespace Sys2Proof.Laws

open Sys2Proof Sys2Proof.Machine

/-! ### Lists -/

theorem mem_sortInsert {α : Type} {le : α → α → Bool} {x y : α} : ∀ {l : List α}, y ∈ sortInsert le x l → y = x ∨ y ∈ l
  | [], h => by simp [sortInsert] at h; exact .inl h
  | z :: l, h => by
    unfold sortInsert at h
    split at h
    · simpa using h
    · rcases List.mem_cons.1 h with rfl | h
      · exact .inr (List.mem_cons_self ..)
      · rcases mem_sortInsert h with rfl | h
        · exact .inl rfl
        · exact .inr (List.mem_cons_of_mem _ h)

theorem mem_sortBy {α : Type} {le : α → α → Bool} {y : α} : ∀ {l : List α}, y ∈ sortBy le l → y ∈ l
  | [], h => by simp [sortBy] at h
  | z :: l, h => by
    rcases mem_sortInsert (l := sortBy le l) h with rfl | h
    · exact List.mem_cons_self ..
    · exact List.mem_cons_of_mem _ (mem_sortBy h)

theorem length_sortInsert {α : Type} (le : α → α → Bool) (x : α) : ∀ l : List α, (sortInsert le x l).length = l.length + 1
  | [] => rfl
  | z :: l => by
    unfold sortInsert
    split
    · rfl
    · simp [length_sortInsert le x l]

theorem length_sortBy {α : Type} (le : α → α → Bool) : ∀ l : List α, (sortBy le l).length = l.length
  | [] => rfl
  | z :: l => by
    show (sortInsert le z (sortBy le l)).length = _
    simp [length_sortInsert, length_sortBy le l]

@[simp] theorem length_setNth {α : Type} (v : α) : ∀ (l : List α) (i : Nat), (setNth l i v).length = l.length
  | [], _ => rfl
  | _ :: _, 0 => rfl
  | _ :: t, i + 1 => by simp [setNth, length_setNth v t i]

/-! ### The host link -/

@[simp] theorem message_sessions (h : HostLink) (v : Nat) : (h.message v).sessions = h.sessions := by
  unfold HostLink.message; split <;> rfl
@[simp] theorem message_outstanding (h : HostLink) (v : Nat) : (h.message v).outstanding = h.outstanding := by
  unfold HostLink.message; split <;> rfl
@[simp] theorem unmask_sessions (h : HostLink) (v : Nat) : (h.unmask v).sessions = h.sessions := by
  unfold HostLink.unmask; dsimp only; split <;> rfl
@[simp] theorem unmask_outstanding (h : HostLink) (v : Nat) : (h.unmask v).outstanding = h.outstanding := by
  unfold HostLink.unmask; dsimp only; split <;> rfl
@[simp] theorem writeMsix_sessions (h : HostLink) (o : Nat) (v : Word32) : (h.writeMsix o v).sessions = h.sessions := by
  unfold HostLink.writeMsix; split
  · dsimp only; split <;> simp
  · rfl
@[simp] theorem writeMsix_outstanding (h : HostLink) (o : Nat) (v : Word32) : (h.writeMsix o v).outstanding = h.outstanding := by
  unfold HostLink.writeMsix; split
  · dsimp only; split <;> simp
  · rfl
@[simp] theorem setAuth_sessions (h : HostLink) (u : Bool) (n : Nat) (b : Bool) : (h.setAuth u n b).sessions = h.sessions := by
  unfold HostLink.setAuth; split <;> rfl
@[simp] theorem setAuth_outstanding (h : HostLink) (u : Bool) (n : Nat) (b : Bool) :
    (h.setAuth u n b).outstanding = h.outstanding := by
  unfold HostLink.setAuth; split <;> rfl
@[simp] theorem barReset_sessions (h : HostLink) : h.barReset.sessions = h.sessions := rfl
@[simp] theorem barReset_outstanding (h : HostLink) : h.barReset.outstanding = h.outstanding := rfl
@[simp] theorem coldCounters_sessions (h : HostLink) : h.coldCounters.sessions = h.sessions := rfl
@[simp] theorem coldCounters_outstanding (h : HostLink) : h.coldCounters.outstanding = h.outstanding := rfl

/-! ### The recorder -/

theorem item_seq_le {r : Recorder} (h : RecSound r) (n : Nat) : (r.item n).seq ≤ r.seq := by
  unfold Recorder.item
  cases e : r.items.find? (fun i => i.num == n) with
  | none => simp [RecItem.empty]
  | some i => simpa using h.items i (List.mem_of_find?_eq_some e)

/-- Putting an item in place keeps every other item, `REC.SEQ` and the clear under way. -/
theorem setItem_items {r : Recorder} {i j : RecItem} (h : j ∈ (r.setItem i).items) : j = i ∨ j ∈ r.items := by
  have h := mem_sortBy h
  rcases List.mem_append.1 h with h | h
  · exact .inr (List.mem_of_mem_filter h)
  · split at h
    · simp at h
    · simp at h; exact .inl h

@[simp] theorem setItem_seq (r : Recorder) (i : RecItem) : (r.setItem i).seq = r.seq := rfl
@[simp] theorem setItem_clearing (r : Recorder) (i : RecItem) : (r.setItem i).clearing = r.clearing := rfl

/-- One update gives its item the batch's number and leaves the rest. -/
theorem update_items {r : Recorder} {seq : Nat} {u : RecUpd} {j : RecItem} (h : j ∈ (r.update seq u).1.items) :
    j.seq = seq ∨ j ∈ r.items := by
  unfold Recorder.update at h
  split at h
  · exact .inr h
  · dsimp only at h
    split at h <;> (rcases setItem_items h with rfl | h; exact .inl rfl; exact .inr h)

@[simp] theorem update_clearing (r : Recorder) (seq : Nat) (u : RecUpd) : (r.update seq u).1.clearing = r.clearing := by
  unfold Recorder.update
  split
  · rfl
  · dsimp only; split <;> rfl

theorem updates_items {seq : Nat} : ∀ (l : List RecUpd) {p : Recorder × List Nat} {j : RecItem},
    j ∈ (l.foldl (fun (p : Recorder × List Nat) u =>
      ((p.1.update seq u).1, if (p.1.update seq u).2 then p.2 ++ [u.item] else p.2)) p).1.items → j.seq = seq ∨ j ∈ p.1.items
  | [], _, _, h => .inr h
  | u :: l, p, j, h => by
    rcases updates_items l h with h | h
    · exact .inl h
    · exact update_items h

theorem updates_clearing {seq : Nat} : ∀ (l : List RecUpd) (p : Recorder × List Nat),
    (l.foldl (fun (p : Recorder × List Nat) u =>
      ((p.1.update seq u).1, if (p.1.update seq u).2 then p.2 ++ [u.item] else p.2)) p).1.clearing = p.1.clearing
  | [], _ => rfl
  | u :: l, p => by rw [List.foldl_cons, updates_clearing l]; simp

/-- A batch takes the next number (R384). -/
theorem apply_seq (r : Recorder) (b : List RecUpd) : (r.apply b).1.seq = r.seq + 1 := rfl

/-- A batch keeps the recorder's numbers in order; no clear runs while one is applied (R389). -/
theorem apply_sound {r : Recorder} (h : RecSound r) (hc : r.clearing = none) (b : List RecUpd) : RecSound (r.apply b).1 where
  items i hi := by
    show i.seq ≤ r.seq + 1
    rcases updates_items _ hi with e | m
    · exact Nat.le_of_eq e
    · exact Nat.le_succ_of_le (h.items i m)
  clear c e := by
    have : (r.apply b).1.clearing = r.clearing := updates_clearing _ _
    rw [this, hc] at e
    cases e

/-- The end of a clear leaves the recorder at the number of the clear (R389). -/
theorem finishClear_sound {r : Recorder} (h : RecSound r) {c : RecClear} (e : r.clearing = some c) :
    RecSound (r.finishClear c) ∧ r.seq ≤ (r.finishClear c).seq where
  left := { items := fun i hi => by
              have : i = _ := List.mem_singleton.1 hi
              subst this; exact Nat.le_refl _
            clear := fun c e => by cases e }
  right := h.clear c e

/-- Items taken out, and a sequence number that is not older, keep the order as long as no clear is overtaken. -/
theorem reseal_sound {r : Recorder} (h : RecSound r) (p : RecItem → Bool) (n : Nat) :
    RecSound { r with items := r.items.filter p, sealFaults := n } :=
  { items := fun i hi => h.items i (List.mem_of_mem_filter hi), clear := h.clear }

theorem foldl_max_le {n : Nat} : ∀ (l : List Nat) {m : Nat}, m ≤ n → (∀ x ∈ l, x ≤ n) → l.foldl max m ≤ n
  | [], _, h, _ => h
  | x :: l, m, h, g => foldl_max_le l (Nat.max_le.2 ⟨h, g x (List.mem_cons_self ..)⟩) (fun y hy => g y (List.mem_cons_of_mem _ hy))

theorem le_foldl_max : ∀ (l : List Nat) (m : Nat), m ≤ l.foldl max m
  | [], _ => Nat.le_refl _
  | x :: l, m => Nat.le_trans (Nat.le_max_left m x) (le_foldl_max l (max m x))

/-- `REC.SEQ` as a start reads it back: the highest number of an item, which is no more than the number it had. -/
theorem startSeq_eq {r : Recorder} (h : RecSound r) : (r.items.map (fun i => i.seq)).foldl max r.seq = r.seq :=
  Nat.le_antisymm (foldl_max_le _ (Nat.le_refl _) (by simpa using h.items)) (le_foldl_max _ _)

end Sys2Proof.Laws
end

