-- ==== Sys2Proof/Laws/Prints1.lean ====
section
/-! SUPPORT. The footprint of each operation on the state, first part: what the operations built on nothing else may change. -/

set_option Elab.async false

namespace Sys2Proof.Laws

open Sys2Proof Sys2Proof.Machine

theorem abort_same (s : State) (off : Nat) (reason : Nat) (posted : Bool) : Same 0x100 s (State.abort s off reason posted) := by
  unfold State.abort
  try dsimp only
  repeat' first
    | exact Same.refl ..
    | split
    | refine Same.fold (fun t x => ?_) _ ?_
    | fail_if_no_progress refine Same.chain (k' := 0x100) ?_ (Same.upd _) rfl

theorem sendDatagram_same (s : State) (addr : Nat) (port : Nat) (e : OutEntry) : Same 0x100 s (State.sendDatagram s addr port e) := by
  unfold State.sendDatagram
  try dsimp only
  repeat' first
    | exact Same.refl ..
    | split
    | refine Same.fold (fun t x => ?_) _ ?_
    | fail_if_no_progress refine Same.chain (k' := 0x100) ?_ (Same.upd _) rfl

theorem updQueue_same (s : State) (n : Nat) (f : Queue → Queue) : Same 0x100 s (State.updQueue s n f) := by
  unfold State.updQueue
  try dsimp only
  repeat' first
    | exact Same.refl ..
    | split
    | refine Same.fold (fun t x => ?_) _ ?_
    | fail_if_no_progress refine Same.chain (k' := 0x100) ?_ (Same.upd _) rfl

theorem enqueue_same (s : State) (n : Nat) (e : OutEntry) : Same 0x100 s (State.enqueue s n e) := by
  unfold State.enqueue
  dsimp only
  split
  · exact Same.chain (Same.chain (k' := 0x100) (Same.refl ..) (updQueue_same ..) rfl) (k' := 0x100) (Same.upd _) rfl
  · exact updQueue_same ..

theorem answer_same (s : State) (o : Outstanding) (status : Status) (detail : Nat) (payload : List Byte) : Same 0x100 s (State.answer s o status detail payload) := by
  unfold State.answer
  try dsimp only
  repeat' first
    | exact Same.refl ..
    | split
    | refine Same.chain ?_ (enqueue_same ..) rfl
    | refine Same.chain ?_ (sendDatagram_same ..) rfl
    | refine Same.fold (fun t x => ?_) _ ?_
    | fail_if_no_progress refine Same.chain (k' := 0x100) ?_ (Same.upd _) rfl

theorem abortExchange_same (s : State) (o : Outstanding) : Same 0x500 s (State.abortExchange s o) := by
  unfold State.abortExchange
  try dsimp only
  repeat' first
    | exact Same.refl ..
    | split
    | refine Same.chain ?_ (answer_same ..) rfl
    | refine Same.fold (fun t x => ?_) _ ?_
    | fail_if_no_progress refine Same.chain (k' := 0x500) ?_ (Same.upd _) rfl

theorem recordBatch_same (s : State) (l : List RecUpd) : Same 0x40000 s (State.recordBatch s l) := by
  unfold State.recordBatch
  try dsimp only
  repeat' first
    | exact Same.refl ..
    | split
    | refine Same.fold (fun t x => ?_) _ ?_
    | fail_if_no_progress refine Same.chain (k' := 0x40000) ?_ (Same.upd _) rfl

theorem abortUpdate_same (s : State) (o : Outstanding) (q : UpdSession) : Same 0x44100 s (State.abortUpdate s o q) := by
  unfold State.abortUpdate
  try dsimp only
  repeat' first
    | exact Same.refl ..
    | split
    | refine Same.chain ?_ (recordBatch_same ..) rfl
    | refine Same.chain ?_ (answer_same ..) rfl
    | refine Same.fold (fun t x => ?_) _ ?_
    | fail_if_no_progress refine Same.chain (k' := 0x44100) ?_ (Same.upd _) rfl

theorem abortToken_same (s : State) (o : Outstanding) (t : List Byte) : Same 0x44100 s (State.abortToken s o t) := by
  unfold State.abortToken
  try dsimp only
  repeat' first
    | exact Same.refl ..
    | split
    | refine Same.chain ?_ (abortUpdate_same ..) rfl
    | refine Same.chain ?_ (answer_same ..) rfl

theorem undoExchange_same (s : State) : Same 0x4 s (State.undoExchange s) := by
  unfold State.undoExchange
  try dsimp only
  repeat' first
    | exact Same.refl ..
    | split
    | refine Same.fold (fun t x => ?_) _ ?_
    | fail_if_no_progress refine Same.chain (k' := 0x4) ?_ (Same.upd _) rfl

theorem stopVital_same (s : State) : Same 0x3c s (State.stopVital s) := by
  unfold State.stopVital
  try dsimp only
  repeat' first
    | exact Same.refl ..
    | split
    | refine Same.chain ?_ (undoExchange_same ..) rfl
    | refine Same.fold (fun t x => ?_) _ ?_
    | fail_if_no_progress refine Same.chain (k' := 0x3c) ?_ (Same.upd _) rfl

theorem stopAll_same (s : State) : Same 0x13e s (State.stopAll s) := by
  unfold State.stopAll
  try dsimp only
  repeat' first
    | exact Same.refl ..
    | split
    | refine Same.chain ?_ (stopVital_same ..) rfl
    | refine Same.fold (fun t x => ?_) _ ?_
    | fail_if_no_progress refine Same.chain (k' := 0x13e) ?_ (Same.upd _) rfl

theorem diesReset_same (s : State) : Same 0x113e s (State.diesReset s) := by
  unfold State.diesReset
  try dsimp only
  repeat' first
    | with_reducible exact Same.refl ..
    | exact rfl
    | with_reducible refine Same.chain ?_ (stopAll_same ..) ?_
    | with_reducible refine Same.ite ?_ ?_
    | with_reducible refine Same.fold (fun t x => ?_) _ ?_
    | fail_if_no_progress refine Same.chain (k' := 0x113e) ?_ (Same.upd _) rfl

theorem updPower_same (s : State) (f : Power → Power) : Same 0x2 s (State.updPower s f) := by
  unfold State.updPower
  try dsimp only
  repeat' first
    | exact Same.refl ..
    | split
    | refine Same.fold (fun t x => ?_) _ ?_
    | fail_if_no_progress refine Same.chain (k' := 0x2) ?_ (Same.upd _) rfl

theorem acceptReset_same (s : State) : Same 0x113e s (State.acceptReset s) := by
  unfold State.acceptReset
  try dsimp only
  repeat' first
    | exact Same.refl ..
    | split
    | refine Same.chain ?_ (updPower_same ..) rfl
    | refine Same.chain ?_ (diesReset_same ..) rfl

theorem acknowledge_same (s : State) (p : Nat × Staging) : Same 0x40800 s (State.acknowledge s p) := by
  unfold State.acknowledge
  try dsimp only
  repeat' first
    | exact Same.refl ..
    | split
    | refine Same.chain ?_ (recordBatch_same ..) rfl
    | refine Same.fold (fun t x => ?_) _ ?_
    | fail_if_no_progress refine Same.chain (k' := 0x40800) ?_ (Same.upd _) rfl

theorem dropEvent_same (s : State) (n : Nat) : Same 0x100 s (State.dropEvent s n) := by
  unfold State.dropEvent
  try dsimp only
  repeat' first
    | exact Same.refl ..
    | split
    | refine Same.chain ?_ (updQueue_same ..) rfl

theorem raiseNow_same (s : State) (num : Nat) (payload : List Byte) : Same 0x100 s (State.raiseNow s num payload) := by
  unfold State.raiseNow
  try dsimp only
  repeat' first
    | exact Same.refl ..
    | split
    | refine Same.chain ?_ (dropEvent_same ..) rfl
    | refine Same.chain ?_ (enqueue_same ..) rfl
    | refine Same.chain ?_ (updQueue_same ..) rfl
    | refine Same.chain ?_ (sendDatagram_same ..) rfl
    | refine Same.fold (fun t x => ?_) _ ?_
    | fail_if_no_progress refine Same.chain (k' := 0x100) ?_ (Same.upd _) rfl

theorem post_same (s : State) (r : Raise) : Same 0x100 s (State.post s r) := by
  unfold State.post
  try dsimp only
  repeat' first
    | exact Same.refl ..
    | split
    | refine Same.chain ?_ (raiseNow_same ..) rfl
    | refine Same.fold (fun t x => ?_) _ ?_
    | fail_if_no_progress refine Same.chain (k' := 0x100) ?_ (Same.upd _) rfl

theorem recordRaise_same (s : State) (num : Nat) (recs : List RecUpd) : Same 0x40000 s (State.recordRaise s num recs) := by
  unfold State.recordRaise
  exact Same.chain (k' := 0x40000) (Same.upd _) (recordBatch_same ..) rfl

theorem raise_same (s : State) (num : Nat) (payload : List Byte) : Same 0x40100 s (State.raise s num payload) := by
  unfold State.raise
  try dsimp only
  repeat' first
    | exact Same.refl ..
    | split
    | refine Same.chain ?_ (post_same ..) rfl
    | refine Same.chain ?_ (recordRaise_same ..) rfl

theorem storeProof_same (s : State) (r : ProofRec) : Same 0x60000 s (State.storeProof s r) := by
  unfold State.storeProof
  try dsimp only
  repeat' first
    | exact Same.refl ..
    | split
    | refine Same.chain ?_ (recordBatch_same ..) rfl
    | refine Same.fold (fun t x => ?_) _ ?_
    | fail_if_no_progress refine Same.chain (k' := 0x60000) ?_ (Same.upd _) rfl

theorem proveBlock_same (f : StartFacts) (s : State) (b : Nat) : Same 0x60100 s (State.proveBlock f s b) := by
  unfold State.proveBlock
  try dsimp only
  repeat' first
    | exact Same.refl ..
    | split
    | refine Same.chain ?_ (storeProof_same ..) rfl
    | refine Same.chain ?_ (raise_same ..) rfl
    | refine Same.fold (fun t x => ?_) _ ?_
    | fail_if_no_progress refine Same.chain (k' := 0x60100) ?_ (Same.upd _) rfl

theorem startProofs_same (s : State) (f : StartFacts) : Same 0x60100 s (State.startProofs s f) := by
  unfold State.startProofs
  try dsimp only
  repeat' first
    | exact Same.refl ..
    | split
    | refine Same.chain ?_ (proveBlock_same ..) rfl
    | refine Same.fold (fun t x => ?_) _ ?_
    | fail_if_no_progress refine Same.chain (k' := 0x60100) ?_ (Same.upd _) rfl

theorem raiseWith_same (s : State) (num : Nat) (payload : List Byte) (recs : List RecUpd) : Same 0x40100 s (State.raiseWith s num payload recs) := by
  unfold State.raiseWith
  try dsimp only
  repeat' first
    | exact Same.refl ..
    | split
    | refine Same.chain ?_ (post_same ..) rfl
    | refine Same.chain ?_ (recordRaise_same ..) rfl

theorem updBridge_same (s : State) (f : Bridge → Bridge) : Same 0x2000 s (State.updBridge s f) := by
  unfold State.updBridge
  try dsimp only
  repeat' first
    | exact Same.refl ..
    | split
    | refine Same.fold (fun t x => ?_) _ ?_
    | fail_if_no_progress refine Same.chain (k' := 0x2000) ?_ (Same.upd _) rfl

theorem discard_same (s : State) (ch : Nat) (tag : Nat) : Same 0x42100 s (State.discard s ch tag) := by
  unfold State.discard
  try dsimp only
  repeat' first
    | exact Same.refl ..
    | split
    | refine Same.chain ?_ (updBridge_same ..) rfl
    | refine Same.chain ?_ (raiseWith_same ..) rfl

theorem deliverEntry_same (s : State) (ch : Nat) (peer : Nat) (credited : Bool) (e : OutEntry) : Same 0x42100 s (State.deliverEntry s ch peer credited e) := by
  unfold State.deliverEntry
  try dsimp only
  repeat' first
    | exact Same.refl ..
    | split
    | refine Same.chain ?_ (discard_same ..) rfl
    | refine Same.chain ?_ (updBridge_same ..) rfl
    | refine Same.chain ?_ (enqueue_same ..) rfl

theorem endRead_same (s : State) (t : Txn) (detail : Nat) (data : List Byte) : Same 0x42100 s (State.endRead s t detail data) := by
  unfold State.endRead
  try dsimp only
  repeat' first
    | exact Same.refl ..
    | split
    | refine Same.chain ?_ (deliverEntry_same ..) rfl
    | refine Same.chain ?_ (updBridge_same ..) rfl

theorem endWrite_same (s : State) (t : Txn) (detail : Nat) : Same 0x42100 s (State.endWrite s t detail) := by
  unfold State.endWrite
  try dsimp only
  repeat' first
    | exact Same.refl ..
    | split
    | refine Same.chain ?_ (updBridge_same ..) rfl
    | refine Same.chain ?_ (raise_same ..) rfl

theorem endTxn_same (s : State) (detail : Nat) (t : Txn) : Same 0x42100 s (State.endTxn s detail t) := by
  unfold State.endTxn
  try dsimp only
  repeat' first
    | exact Same.refl ..
    | split
    | refine Same.chain ?_ (endWrite_same ..) rfl
    | refine Same.chain ?_ (endRead_same ..) rfl

theorem bridgeRestart_same (s : State) (full : Bool) : Same 0x42100 s (State.bridgeRestart s full) := by
  unfold State.bridgeRestart
  try dsimp only
  repeat' first
    | exact Same.refl ..
    | split
    | refine Same.chain ?_ (endTxn_same ..) rfl
    | refine Same.chain ?_ (updBridge_same ..) rfl
    | refine Same.fold (fun t x => ?_) _ ?_
    | fail_if_no_progress refine Same.chain (k' := 0x42100) ?_ (Same.upd _) rfl

theorem dropWaiting_same (s : State) : Same 0x4500 s (State.dropWaiting s) := by
  unfold State.dropWaiting
  try dsimp only
  repeat' first
    | with_reducible exact Same.refl ..
    | exact rfl
    | with_reducible refine Same.ite ?_ ?_
    | with_reducible refine Same.fold (fun t x => ?_) _ ?_
    | fail_if_no_progress refine Same.chain (k' := 0x4500) ?_ (Same.upd _) rfl

theorem applyParams_same (s : State) (p : Nat → Bool) : Same 0x200 s (State.applyParams s p) := by
  unfold State.applyParams
  try dsimp only
  repeat' first
    | exact Same.refl ..
    | split
    | refine Same.fold (fun t x => ?_) _ ?_
    | fail_if_no_progress refine Same.chain (k' := 0x200) ?_ (Same.upd _) rfl

theorem beginParams_same (s : State) (full : Bool) : Same 0x200 s (State.beginParams s full) := by
  unfold State.beginParams
  try dsimp only
  repeat' first
    | exact Same.refl ..
    | split
    | refine Same.chain ?_ (applyParams_same ..) rfl

theorem fallbackEvent_same (s : State) (detail : Nat) : Same 0x40100 s (State.fallbackEvent s detail) := by
  unfold State.fallbackEvent
  try dsimp only
  repeat' first
    | exact Same.refl ..
    | split
    | refine Same.chain ?_ (raise_same ..) rfl

theorem fallBack_same (s : State) (typ : Nat) : Same 0x44104 s (State.fallBack s typ) := by
  unfold State.fallBack
  try dsimp only
  repeat' first
    | exact Same.refl ..
    | split
    | refine Same.chain ?_ (fallbackEvent_same ..) rfl
    | refine Same.fold (fun t x => ?_) _ ?_
    | fail_if_no_progress refine Same.chain (k' := 0x44104) ?_ (Same.upd _) rfl

theorem formeRefused_same (s : State) (reason : Nat) : Same 0x40100 s (State.formeRefused s reason) := by
  unfold State.formeRefused
  try dsimp only
  repeat' first
    | exact Same.refl ..
    | split
    | refine Same.chain ?_ (raiseWith_same ..) rfl

theorem loadTrial_same (s : State) (f : StartFacts) : Same 0x44104 s (State.loadTrial s f) := by
  unfold State.loadTrial
  split
  · dsimp only
    split
    · exact (fallBack_same ..).mono rfl
    · refine Same.ite (Same.refl ..) (Same.ite ((fallBack_same ..).mono rfl) ?_)
      split
      · exact Same.chain ((formeRefused_same ..).mono rfl) (fallBack_same ..) rfl
      · exact Same.upd _
  · exact Same.refl ..

theorem readLife_same (s : State) (f : StartFacts) : Same 0x458100 s (State.readLife s f) := by
  unfold State.readLife
  try dsimp only
  repeat' first
    | exact Same.refl ..
    | split
    | refine Same.chain ?_ (raise_same ..) rfl
    | refine Same.fold (fun t x => ?_) _ ?_
    | fail_if_no_progress refine Same.chain (k' := 0x458100) ?_ (Same.upd _) rfl

theorem bootTrial_same (s : State) (f : StartFacts) (typ : Nat) (slot : Nat) : Same 0x44104 s (State.bootTrial s f typ slot) := by
  unfold State.bootTrial
  try dsimp only
  repeat' first
    | exact Same.refl ..
    | split
    | refine Same.chain ?_ (fallBack_same ..) rfl
    | refine Same.fold (fun t x => ?_) _ ?_
    | fail_if_no_progress refine Same.chain (k' := 0x44104) ?_ (Same.upd _) rfl

theorem bootFold_same {f : StartFacts} {s : State} {p : State × Bool} (h : Same 0x44104 s p.1) :
    ∀ l : List Nat, Same 0x44104 s (l.foldl (fun p typ => State.bootCurrent p f typ) p).1 := by
  intro l
  induction l generalizing p with
  | nil => exact h
  | cons x l ih =>
    refine ih ?_
    unfold State.bootCurrent
    dsimp only
    split
    · exact h
    · split
      · refine Same.chain (h.chain (k' := 0x44104) ?_ rfl) (fallbackEvent_same ..) rfl
        exact Same.upd _
      · exact h.chain (fallbackEvent_same ..) rfl

theorem boot_same (s : State) (f : StartFacts) : Same 0x44104 s (State.boot s f).1 := by
  have h : Same 0x44104 s { s with update := s.update.atStart f } := Same.upd _
  unfold State.boot
  dsimp only
  split
  · refine Same.chain (h.chain (k' := 0x44104) ?_ rfl) (fallbackEvent_same ..) rfl
    exact Same.upd _
  · refine Same.chain (k' := 0x44104) ?_ (Same.upd _) rfl
    refine bootFold_same ?_ _
    split
    · refine Same.chain (h.chain (k' := 0x44104) ?_ rfl) (bootTrial_same ..) rfl
      exact Same.upd _
    · refine h.chain (k' := 0x44104) ?_ rfl
      exact Same.upd _

theorem resumeClear_same (s : State) : Same 0x40000 s (State.resumeClear s) := by
  unfold State.resumeClear
  split
  · next c e =>
    exact Same.upd _ (h_record := fun h => finishClear_sound h e)
  · exact Same.refl ..

theorem readRecorder_same (s : State) (f : StartFacts) : Same 0x40100 s (State.readRecorder s f) := by
  unfold State.readRecorder
  dsimp only
  refine Same.fold (fun t x => (raise_same ..).mono rfl) _ ?_
  refine Same.upd _ (h_record := fun h => by rw [startSeq_eq h]; exact ⟨reseal_sound h _ _, Nat.le_refl _⟩)

theorem writeFirmware_same (s : State) : Same 0x4 s (State.writeFirmware s) := by
  unfold State.writeFirmware
  split
  · exact Same.upd _
  · exact Same.refl ..

theorem startSteward_same (s : State) (f : StartFacts) (full : Bool) : Same 0x45c304 s (State.startSteward s f full).1 := by
  unfold State.startSteward
  try dsimp only
  repeat' first
    | exact Same.refl ..
    | split
    | refine Same.chain ?_ (readRecorder_same ..) rfl
    | refine Same.chain ?_ (resumeClear_same ..) rfl
    | refine Same.chain ?_ (boot_same ..) rfl
    | refine Same.chain ?_ (readLife_same ..) rfl
    | refine Same.chain ?_ (loadTrial_same ..) rfl
    | refine Same.chain ?_ (writeFirmware_same ..) rfl
    | refine Same.chain ?_ (beginParams_same ..) rfl

theorem mapLanes_same (s : State) (f : LaneId → LaneState → LaneState) : Same 0x4 s (State.mapLanes s f) := by
  unfold State.mapLanes
  try dsimp only
  repeat' first
    | exact Same.refl ..
    | split
    | refine Same.fold (fun t x => ?_) _ ?_
    | fail_if_no_progress refine Same.chain (k' := 0x4) ?_ (Same.upd _) rfl

theorem formeRefusedBy_same (s : State) (reason : Nat) (ls : List LaneId) : Same 0x40100 s (State.formeRefusedBy s reason ls) := by
  unfold State.formeRefusedBy
  exact raiseWith_same ..

theorem readHalves_same (s : State) (f : StartFacts) : Same 0x4 s (State.readHalves s f) := mapLanes_same ..

theorem reconcile_same (s : State) (f : StartFacts) (ls : List LaneId) : Same 0x40104 s (State.reconcile s f ls).1 := by
  unfold State.reconcile
  try dsimp only
  repeat' first
    | exact Same.refl ..
    | split
    | refine Same.chain ?_ (mapLanes_same ..) rfl
    | refine Same.chain ?_ (formeRefusedBy_same ..) rfl

theorem alignForme_same (s : State) : Same 0x44100 s (State.alignForme s) := by
  unfold State.alignForme
  try dsimp only
  repeat' first
    | exact Same.refl ..
    | split
    | refine Same.chain ?_ (raise_same ..) rfl
    | refine Same.fold (fun t x => ?_) _ ?_
    | fail_if_no_progress refine Same.chain (k' := 0x44100) ?_ (Same.upd _) rfl

theorem beginAttempt_same (s : State) (a : Nat) (cause : Nat) (ports : List PortId) : Same 0x60 s (State.beginAttempt s a cause ports) := by
  unfold State.beginAttempt
  try dsimp only
  repeat' first
    | exact Same.refl ..
    | split
    | refine Same.fold (fun t x => ?_) _ ?_
    | fail_if_no_progress refine Same.chain (k' := 0x60) ?_ (Same.upd _) rfl

theorem failAttempt_same (s : State) (cause : Nat) : Same 0x40140 s (State.failAttempt s cause) := by
  unfold State.failAttempt
  try dsimp only
  repeat' first
    | exact Same.refl ..
    | split
    | refine Same.chain ?_ (raise_same ..) rfl
    | refine Same.fold (fun t x => ?_) _ ?_
    | fail_if_no_progress refine Same.chain (k' := 0x40140) ?_ (Same.upd _) rfl

theorem takePlace_same (s : State) (l : List SweepEntry) (front : Nat) : Same 0x40160 s (State.takePlace s l front) := by
  unfold State.takePlace
  try dsimp only
  repeat' first
    | exact Same.refl ..
    | split
    | refine Same.chain ?_ (failAttempt_same ..) rfl
    | refine Same.fold (fun t x => ?_) _ ?_
    | fail_if_no_progress refine Same.chain (k' := 0x40160) ?_ (Same.upd _) rfl

theorem proposeLine_same (s : State) (m : SweepMsg) : Same 0x40160 s (State.proposeLine s m) := by
  unfold State.proposeLine
  try dsimp only
  repeat' first
    | exact Same.refl ..
    | split
    | refine Same.chain ?_ (takePlace_same ..) rfl
    | refine Same.chain ?_ (failAttempt_same ..) rfl

theorem loneLine_same (s : State) : Same 0x40160 s (State.loneLine s) := by
  unfold State.loneLine
  try dsimp only
  repeat' first
    | exact Same.refl ..
    | split
    | refine Same.chain ?_ (proposeLine_same ..) rfl

theorem newAttempt_same (s : State) (cause : Nat) : Same 0x40160 s (State.newAttempt s cause) := by
  unfold State.newAttempt
  try dsimp only
  repeat' first
    | exact Same.refl ..
    | split
    | refine Same.chain ?_ (loneLine_same ..) rfl
    | refine Same.chain ?_ (beginAttempt_same ..) rfl

theorem beginReport_same (s : State) (f : StartFacts) (kind : Nat) (cause : Nat) : Same 0x40902 s (State.beginReport s f kind cause) := by
  unfold State.beginReport
  try dsimp only
  repeat' first
    | exact Same.refl ..
    | split
    | refine Same.chain ?_ (raise_same ..) rfl
    | refine Same.fold (fun t x => ?_) _ ?_
    | fail_if_no_progress refine Same.chain (k' := 0x40902) ?_ (Same.upd _) rfl

theorem beginHeld_same (s : State) (f : StartFacts) (ls : List LaneId) (major : Bool) : Same 0x409fe s (State.beginHeld s f ls major) := by
  unfold State.beginHeld
  dsimp only
  refine Same.chain ?_ (beginReport_same ..) rfl
  exact Same.upd _

theorem recordRemoved_same (s : State) (ls : List LaneId) : Same 0x40000 s (State.recordRemoved s ls) := by
  unfold State.recordRemoved
  try dsimp only
  repeat' first
    | exact Same.refl ..
    | split
    | refine Same.chain ?_ (recordBatch_same ..) rfl
    | refine Same.fold (fun t x => ?_) _ ?_

theorem beginForme_same (s : State) (f : StartFacts) (ls : List LaneId) (back : Option LaneId) (major : Bool) : Same 0x2609fe s (State.beginForme s f ls back major) := by
  unfold State.beginForme
  try dsimp only
  repeat' first
    | exact Same.refl ..
    | split
    | refine Same.chain ?_ (recordRemoved_same ..) rfl
    | refine Same.chain ?_ (beginReport_same ..) rfl
    | refine Same.chain ?_ (newAttempt_same ..) rfl
    | refine Same.fold (fun t x => ?_) _ ?_
    | fail_if_no_progress refine Same.chain (k' := 0x2609fe) ?_ (Same.upd _) rfl

theorem startLanes_same (s : State) (f : StartFacts) (bootOk : Bool) (isolated : Option LaneId) : Same 0x2649fe s (State.startLanes s f bootOk isolated) := by
  unfold State.startLanes
  repeat' first
    | with_reducible assumption
    | with_reducible exact Same.refl ..
    | exact rfl
    | (intro hxs)
    | with_reducible refine Same.ite ?_ ?_
    | with_reducible refine Same.chain ?_ (beginForme_same ..) ?_
    | with_reducible refine Same.chain ?_ (alignForme_same ..) ?_
    | with_reducible refine Same.chain ?_ (reconcile_same ..) ?_
    | with_reducible refine Same.chain ?_ (beginHeld_same ..) ?_
    | with_reducible refine Same.chain ?_ (mapLanes_same ..) ?_

theorem beginHost_same (s : State) : Same 0x41100 s (State.beginHost s) := by
  unfold State.beginHost
  dsimp only
  refine Same.upd _ (h_sessions := .inr (Nat.zero_le _)) (h_outstanding := .inr (Nat.zero_le _)) (h_contexts := .inr (List.nil_sublist _))

theorem start_same (s : State) (f : StartFacts) (cause : Nat) (full : Bool) : Same 0x67fffe s (State.start s f cause full) := by
  unfold State.start
  refine Same.ite ?_ ?_
  · exact Same.upd _
  · dsimp only
    refine Same.chain (k' := 0x67fffe) ?_ (Same.upd _) rfl
    refine Same.ite (Same.chain ?_ (raise_same ..) rfl) ?_
    all_goals
      refine Same.chain ?_ (startLanes_same ..) rfl
      refine Same.iteFst ?_ (Same.chain ?_ (startSteward_same ..) rfl)
      all_goals
        refine Same.chain ?_ (bridgeRestart_same ..) rfl
        refine Same.chain (k' := 0x67fffe) ?_ (Same.upd _) rfl
        refine Same.chain ?_ (startProofs_same ..) rfl
        refine Same.ite (Same.chain ?_ (beginHost_same ..) rfl) ?_
        all_goals
          refine Same.chain ?_ (dropWaiting_same ..) rfl
          exact Same.upd _

theorem activate_same (s : State) (o : Outstanding) (q : UpdSession) (f : StartFacts) : Same 0x67fffe s (State.activate s o q f) := by
  unfold State.activate
  try dsimp only
  repeat' first
    | exact Same.refl ..
    | split
    | refine Same.chain ?_ (start_same ..) rfl
    | refine Same.chain ?_ (raiseWith_same ..) rfl
    | refine Same.chain ?_ (stopVital_same ..) rfl
    | refine Same.chain ?_ (answer_same ..) rfl
    | refine Same.fold (fun t x => ?_) _ ?_
    | fail_if_no_progress refine Same.chain (k' := 0x67fffe) ?_ (Same.upd _) rfl

theorem advanceSweep_same (s : State) : Same 0x80 s (State.advanceSweep s) := by
  unfold State.advanceSweep
  try dsimp only
  repeat' first
    | exact Same.refl ..
    | split
    | refine Same.fold (fun t x => ?_) _ ?_
    | fail_if_no_progress refine Same.chain (k' := 0x80) ?_ (Same.upd _) rfl

theorem answerFunc_same (s : State) (o : Outstanding) (id : Nat) (guard : Bool) : Same 0x100 s (State.answerFunc s o id guard) := by
  unfold State.answerFunc
  try dsimp only
  repeat' first
    | exact Same.refl ..
    | split
    | refine Same.chain ?_ (answer_same ..) rfl

theorem answerOut_same (s : State) (o : Outstanding) (status : Status) (detail : Nat) (payload : List Byte) : Same 0x100 s (State.answerOut s o status detail payload) := by
  unfold State.answerOut
  try dsimp only
  repeat' first
    | with_reducible exact Same.refl ..
    | exact rfl
    | with_reducible refine Same.chain ?_ (answer_same ..) ?_
    | with_reducible refine Same.ite ?_ ?_
    | with_reducible refine Same.fold (fun t x => ?_) _ ?_
    | fail_if_no_progress refine Same.chain (k' := 0x100) ?_ (Same.upd _) rfl

theorem answerPrepare_same (s : State) (st : Status) (detail : Nat) (payload : List Byte) : Same 0x500 s (State.answerPrepare s st detail payload) := by
  unfold State.answerPrepare
  try dsimp only
  repeat' first
    | exact Same.refl ..
    | split
    | refine Same.chain ?_ (answerOut_same ..) rfl
    | refine Same.fold (fun t x => ?_) _ ?_
    | fail_if_no_progress refine Same.chain (k' := 0x500) ?_ (Same.upd _) rfl

theorem answerUnknown_same (s : State) (o : Outstanding) (index : Nat) : Same 0x100 s (State.answerUnknown s o index) := by
  unfold State.answerUnknown
  try dsimp only
  repeat' first
    | exact Same.refl ..
    | split
    | refine Same.chain ?_ (answer_same ..) rfl

theorem applyBatch_same {s : State} (hc : s.recorder.clearing = none) : Same 0x40100 s s.applyBatch := by
  unfold State.applyBatch
  split
  · exact Same.refl ..
  · next b rest e =>
    refine Same.fold (fun t x => (raise_same ..).mono rfl) _ ?_
    exact Same.upd _ (h_record := fun h => (⟨apply_sound (r := { s.recorder with pending := rest }) (RecSound.mk h.items h.clear) hc b, Nat.le_succ _⟩))

theorem applyBatches_same (s : State) (y1 : Nat) : Same 0x40100 s (State.applyBatches s y1) := by
  induction y1 generalizing s with
  | zero => exact Same.refl ..
  | succ n ih =>
    unfold State.applyBatches
    split
    · exact Same.refl ..
    · next h =>
      exact Same.chain ((applyBatch_same (by simpa using h)).mono rfl) (ih _) rfl

theorem drainChannel_same (s : State) (ch : Nat) (y2 : Nat) : Same 0x2100 s (State.drainChannel s ch y2) := by
  induction y2 generalizing s with
  | zero => exact Same.refl ..
  | succ n ih =>
    unfold State.drainChannel
    dsimp only
    split
    · exact Same.refl ..
    · split
      · exact Same.refl ..
      · split
        · exact Same.chain (Same.chain ((enqueue_same ..).mono rfl) (updBridge_same ..) rfl) (ih _) rfl
        · exact Same.refl ..

theorem writeCfg_same (s : State) (n : Nat) (v : Word32) : Same 0x2100 s (State.writeCfg s n v) := by
  unfold State.writeCfg
  dsimp only
  refine Same.ite (Same.refl ..) (Same.ite ((updQueue_same ..).mono rfl) (Same.ite ?_ ((updQueue_same ..).mono rfl)))
  exact Same.ite (Same.chain ((updQueue_same ..).mono rfl) (drainChannel_same ..) rfl) ((updQueue_same ..).mono rfl)

theorem badIndex_same (s : State) (n : Nat) : Same 0x100 s (State.badIndex s n) := by
  unfold State.badIndex
  try dsimp only
  repeat' first
    | exact Same.refl ..
    | split
    | refine Same.chain ?_ (updQueue_same ..) rfl

theorem writeCons_same (s : State) (n : Nat) (v : Nat) : Same 0x2100 s (State.writeCons s n v) := by
  unfold State.writeCons
  dsimp only
  refine Same.ite (Same.refl ..) (Same.ite ?_ ((badIndex_same ..).mono rfl))
  exact Same.ite (Same.chain ((updQueue_same ..).mono rfl) (drainChannel_same ..) rfl) ((updQueue_same ..).mono rfl)

theorem clearCdc_same (s : State) (v : Word32) : Same 0x100 s (State.clearCdc s v) := by
  unfold State.clearCdc
  try dsimp only
  repeat' first
    | exact Same.refl ..
    | split
    | refine Same.fold (fun t x => ?_) _ ?_
    | fail_if_no_progress refine Same.chain (k' := 0x100) ?_ (Same.upd _) rfl

theorem closeSession_same (s : State) (x : Session) : Same 0x41100 s (State.closeSession s x) := by
  have h : Same 0x41100 s { s with
      host := { s.host with sessions := s.host.sessions.filter (fun y => y.num != x.num),
                            udpSent := s.host.udpSent.filter (fun u => u.session != x.num) },
      crc := s.crc.filter (fun c => c.session != x.num) } :=
    Same.upd _
  unfold State.closeSession
  dsimp only
  split
  · exact h.chain (raise_same ..) rfl
  · exact h

theorem closeSessions_same (s : State) (p : Session → Bool) : Same 0x41100 s (State.closeSessions s p) := by
  unfold State.closeSessions
  try dsimp only
  repeat' first
    | exact Same.refl ..
    | split
    | refine Same.chain ?_ (closeSession_same ..) rfl
    | refine Same.fold (fun t x => ?_) _ ?_

theorem freeSlot_same (s : State) (slot : Nat) : Same 0x800 s (State.freeSlot s slot) := by
  unfold State.freeSlot
  try dsimp only
  repeat' first
    | exact Same.refl ..
    | split
    | refine Same.fold (fun t x => ?_) _ ?_
    | fail_if_no_progress refine Same.chain (k' := 0x800) ?_ (Same.upd _) rfl

theorem dropUnhanded_same (s : State) : Same 0x900 s (State.dropUnhanded s) := by
  unfold State.dropUnhanded
  try dsimp only
  repeat' first
    | with_reducible exact Same.refl ..
    | exact rfl
    | with_reducible refine Same.chain ?_ (freeSlot_same ..) ?_
    | with_reducible refine Same.ite ?_ ?_
    | with_reducible refine Same.fold (fun t x => ?_) _ ?_
    | fail_if_no_progress refine Same.chain (k' := 0x900) ?_ (Same.upd _) rfl

theorem orphans_same (s : State) (p : Nat → Bool) : Same 0x44500 s (State.orphans s p) := by
  unfold State.orphans
  dsimp only
  refine Same.upd _ (h_record := fun h => ⟨⟨h.items, fun c e => by obtain ⟨d, hd, rfl⟩ := Option.map_eq_some_iff.1 e; exact h.clear d hd⟩, Nat.le_refl _⟩)

theorem stewardRestart_same (s : State) : Same 0x45d00 s (State.stewardRestart s) := by
  unfold State.stewardRestart
  try dsimp only
  repeat' first
    | with_reducible exact Same.refl ..
    | exact rfl
    | with_reducible refine Same.chain ?_ (orphans_same ..) ?_
    | with_reducible refine Same.chain ?_ (dropUnhanded_same ..) ?_
    | with_reducible refine Same.chain ?_ (closeSessions_same ..) ?_
    | with_reducible refine Same.ite ?_ ?_
    | with_reducible refine Same.fold (fun t x => ?_) _ ?_
    | fail_if_no_progress refine Same.chain (k' := 0x45d00) ?_ (Same.upd _) rfl

theorem writeProd_same (s : State) (n : Nat) (v : Nat) : Same 0x100 s (State.writeProd s n v) := by
  unfold State.writeProd
  try dsimp only
  repeat' first
    | exact Same.refl ..
    | split
    | refine Same.chain ?_ (badIndex_same ..) rfl
    | refine Same.chain ?_ (updQueue_same ..) rfl

theorem applyRegister_same (s : State) (off : Nat) (v : Word32) : Same 0x47d00 s (State.applyRegister s off v) := by
  unfold State.applyRegister
  dsimp only
  refine Same.ite ?_ (Same.ite (Same.upd _) (Same.ite ((clearCdc_same ..).mono rfl) (Same.ite (Same.upd _) (Same.ite ?_ (Same.ite (Same.ite (Same.upd _) (Same.refl ..)) (Same.refl ..))))))
  · split
    · exact Same.ite (Same.refl ..) ((updQueue_same ..).mono rfl)
    · exact Same.ite (Same.refl ..) ((updQueue_same ..).mono rfl)
    · exact (writeCfg_same ..).mono rfl
    · exact (writeProd_same ..).mono rfl
    · exact (writeCons_same ..).mono rfl
    · exact Same.refl ..
  · exact Same.ite ((stewardRestart_same ..).mono rfl) (Same.refl ..)

theorem enterSafe_same (s : State) (cause : Nat) : Same 0x401bc s (State.enterSafe s cause) := by
  unfold State.enterSafe
  dsimp only
  split
  · exact Same.refl ..
  · refine Same.chain ?_ (raiseWith_same ..) rfl
    exact Same.upd _

theorem askSafe_same (s : State) (l : LaneId) : Same 0x401bc s (State.askSafe s l) := by
  unfold State.askSafe
  try dsimp only
  repeat' first
    | exact Same.refl ..
    | split
    | refine Same.chain ?_ (enterSafe_same ..) rfl
    | refine Same.fold (fun t x => ?_) _ ?_
    | fail_if_no_progress refine Same.chain (k' := 0x401bc) ?_ (Same.upd _) rfl

theorem keep_same (s : State) (o : Outstanding) : Same 0x1000100 s (State.keep s o) := by
  unfold State.keep
  try dsimp only
  repeat' first
    | exact Same.refl ..
    | split
    | refine Same.fold (fun t x => ?_) _ ?_
    | fail_if_no_progress refine Same.chain (k' := 0x1000100) ?_ (Same.upd _) rfl

theorem attest_same (s : State) (o : Outstanding) (nonce : List Byte) : Same 0x1004100 s (State.attest s o nonce) := by
  unfold State.attest
  try dsimp only
  repeat' first
    | exact Same.refl ..
    | split
    | refine Same.chain ?_ (keep_same ..) rfl
    | refine Same.chain ?_ (answer_same ..) rfl
    | refine Same.fold (fun t x => ?_) _ ?_
    | fail_if_no_progress refine Same.chain (k' := 0x1004100) ?_ (Same.upd _) rfl

theorem authFail_same (s : State) (o : Outstanding) (udp : Bool) : Same 0x40100 s (State.authFail s o udp) := by
  unfold State.authFail
  dsimp only
  refine Same.chain (Same.chain ?_ (answer_same ..) rfl) (raiseWith_same ..) rfl
  refine Same.upd _ (h_sessions := .inr (by split <;> simp)) (h_outstanding := .inr (by split <;> simp))

theorem updField_same (s : State) (g : Field → Field) : Same 0x10 s (State.updField s g) := by
  unfold State.updField
  try dsimp only
  repeat' first
    | exact Same.refl ..
    | split
    | refine Same.fold (fun t x => ?_) _ ?_
    | fail_if_no_progress refine Same.chain (k' := 0x10) ?_ (Same.upd _) rfl

theorem axle_same (s : State) (h : HeadRec) (even : Nat) (p : AxlePulse) : Same 0x40010 s (State.axle s h even p) := by
  unfold State.axle
  try dsimp only
  repeat' first
    | exact Same.refl ..
    | split
    | refine Same.chain ?_ (updField_same ..) rfl
    | refine Same.chain ?_ (recordBatch_same ..) rfl

theorem badPayload_same (s : State) (o : Outstanding) : Same 0x40100 s (State.badPayload s o) := by
  unfold State.badPayload
  try dsimp only
  repeat' first
    | exact Same.refl ..
    | split
    | refine Same.chain ?_ (recordBatch_same ..) rfl
    | refine Same.chain ?_ (answer_same ..) rfl

theorem barBank_same (s : State) (bank : Nat) : Same 0x14 s (State.barBank s bank) := by
  unfold State.barBank
  try dsimp only
  repeat' first
    | exact Same.refl ..
    | split
    | refine Same.fold (fun t x => ?_) _ ?_
    | fail_if_no_progress refine Same.chain (k' := 0x14) ?_ (Same.upd _) rfl

end Sys2Proof.Laws
end

