-- ==== Sys2Proof/Laws/Prints2.lean ====
section
/-! SUPPORT. The footprint of each operation on the state, second part. -/

set_option Elab.async false

namespace Sys2Proof.Laws

open Sys2Proof Sys2Proof.Machine

theorem beginSession_same (s : State) (o : Outstanding) (c : Colophon) : Same 0x44100 s (State.beginSession s o c) := by
  unfold State.beginSession
  try dsimp only
  repeat' first
    | exact Same.refl ..
    | split
    | refine Same.chain ?_ (raise_same ..) rfl
    | refine Same.chain ?_ (answer_same ..) rfl
    | refine Same.fold (fun t x => ?_) _ ?_
    | fail_if_no_progress refine Same.chain (k' := 0x44100) ?_ (Same.upd _) rfl

theorem beginVerify_same (s : State) (o : Outstanding) (q : UpdSession) : Same 0x4100 s (State.beginVerify s o q) := by
  unfold State.beginVerify
  try dsimp only
  repeat' first
    | exact Same.refl ..
    | split
    | refine Same.chain ?_ (answer_same ..) rfl
    | refine Same.fold (fun t x => ?_) _ ?_
    | fail_if_no_progress refine Same.chain (k' := 0x4100) ?_ (Same.upd _) rfl

theorem file_same (s : State) (o : Outstanding) (k : ReqKind) (key : Nat) (tok : Nat) : Same 0x1000900 s (State.file s o k key tok) := by
  unfold State.file
  try dsimp only
  repeat' first
    | exact Same.refl ..
    | split
    | refine Same.chain ?_ (keep_same ..) rfl
    | refine Same.fold (fun t x => ?_) _ ?_
    | fail_if_no_progress refine Same.chain (k' := 0x1000900) ?_ (Same.upd _) rfl

theorem noSlot_same (s : State) (o : Outstanding) : Same 0x40100 s (State.noSlot s o) := by
  unfold State.noSlot
  try dsimp only
  repeat' first
    | exact Same.refl ..
    | split
    | refine Same.chain ?_ (recordBatch_same ..) rfl
    | refine Same.chain ?_ (answer_same ..) rfl

theorem writeLife_same {s : State} {f : Life → Life} (hf : s.life.state = .retired → (f s.life).state = .retired) : Same 0x18000 s (s.writeLife f) := by
  unfold State.writeLife
  exact Same.upd _ (h_retired := .inr hf)

theorem countToken_same (s : State) (t : List Byte) : Same 0x58000 s (State.countToken s t) := by
  unfold State.countToken
  try dsimp only
  repeat' first
    | exact Same.refl ..
    | split
    | refine Same.chain ?_ (writeLife_same (hf := fun h => h) ..) rfl
    | refine Same.chain ?_ (recordBatch_same ..) rfl

theorem refuseToken_same (s : State) (o : Outstanding) (step : Nat) : Same 0x40100 s (State.refuseToken s o step) := by
  unfold State.refuseToken
  try dsimp only
  repeat' first
    | exact Same.refl ..
    | split
    | refine Same.chain ?_ (raiseWith_same ..) rfl
    | refine Same.chain ?_ (answer_same ..) rfl

theorem withToken_same {k : Nat} {s u : State} {o : Outstanding} {kinds : List Nat} {t : List Byte} {sig : Sig} {run : State → State} (hr : ∀ v, Same k v (run v)) (h : Same k s u) (e : 0x58100 ||| k = k) : Same k s (u.withToken o kinds t sig run) := by
  unfold State.withToken
  split
  · exact h.chain (badPayload_same ..) (by rw [← e, ← Nat.or_assoc]; rfl)
  · split
    · exact (h.chain (countToken_same ..) (by rw [← e, ← Nat.or_assoc]; rfl)).chain (hr _) (Nat.or_self k)
    · exact h.chain (refuseToken_same ..) (by rw [← e, ← Nat.or_assoc]; rfl)

theorem blockClear_same (s : State) (o : Outstanding) (b : List Byte) (sig : Sig) : Same 0x1058900 s (State.blockClear s o b sig) := by
  unfold State.blockClear
  dsimp only
  refine Same.ite ((badPayload_same ..).mono rfl) (Same.ite ((answer_same ..).mono rfl) ?_)
  refine withToken_same (fun v => ?_) (Same.refl ..) rfl
  refine Same.ite ((answer_same ..).mono rfl) (Same.ite ((answer_same ..).mono rfl) (Same.ite ((noSlot_same ..).mono rfl) ?_))
  exact (file_same ..).mono rfl

theorem setPort_same (s : State) (p : PortId) (f : Port → Port) : Same 0x20 s (State.setPort s p f) := by
  unfold State.setPort
  try dsimp only
  repeat' first
    | exact Same.refl ..
    | split
    | refine Same.fold (fun t x => ?_) _ ?_
    | fail_if_no_progress refine Same.chain (k' := 0x20) ?_ (Same.upd _) rfl

theorem linkLost_same (s : State) (p : PortId) (cause : Nat) : Same 0x40120 s (State.linkLost s p cause) := by
  unfold State.linkLost
  try dsimp only
  repeat' first
    | exact Same.refl ..
    | split
    | refine Same.chain ?_ (setPort_same ..) rfl
    | refine Same.chain ?_ (raise_same ..) rfl

theorem holdPort_same (s : State) (p : PortId) : Same 0x40120 s (State.holdPort s p) := by
  unfold State.holdPort
  try dsimp only
  repeat' first
    | exact Same.refl ..
    | split
    | refine Same.chain ?_ (linkLost_same ..) rfl
    | refine Same.chain ?_ (setPort_same ..) rfl

theorem setLane_same (s : State) (l : LaneId) (x : LaneState) : Same 0x4 s (State.setLane s l x) := by
  unfold State.setLane
  try dsimp only
  repeat' first
    | exact Same.refl ..
    | split
    | refine Same.fold (fun t x => ?_) _ ?_
    | fail_if_no_progress refine Same.chain (k' := 0x4) ?_ (Same.upd _) rfl

theorem updLane_same (s : State) (l : LaneId) (f : LaneState → LaneState) : Same 0x4 s (State.updLane s l f) := by
  unfold State.updLane
  try dsimp only
  repeat' first
    | exact Same.refl ..
    | split
    | refine Same.chain ?_ (setLane_same ..) rfl

theorem exclude_same (s : State) (l : LaneId) (reason : Nat) : Same 0x4010c s (State.exclude s l reason) := by
  unfold State.exclude
  try dsimp only
  repeat' first
    | exact Same.refl ..
    | split
    | refine Same.chain ?_ (updLane_same ..) rfl
    | refine Same.chain ?_ (raiseWith_same ..) rfl
    | refine Same.fold (fun t x => ?_) _ ?_
    | fail_if_no_progress refine Same.chain (k' := 0x4010c) ?_ (Same.upd _) rfl

theorem blockFails_same (s : State) (b : Nat) : Same 0x4013e s (State.blockFails s b) := by
  unfold State.blockFails
  split
  · exact Same.ite ((exclude_same ..).mono rfl) (Same.refl ..)
  · exact (barBank_same ..).mono rfl
  · exact (holdPort_same ..).mono rfl
  · split
    · refine Same.chain ?_ (raise_same ..) rfl
      exact Same.upd _
    · exact Same.upd _
    · exact Same.upd _
    · exact Same.refl ..

theorem blockListStep_same (s : State) (r : OutRec) : Same 0x40800 s (State.blockListStep s r) := by
  unfold State.blockListStep
  try dsimp only
  repeat' first
    | exact Same.refl ..
    | split
    | refine Same.chain ?_ (recordBatch_same ..) rfl
    | refine Same.fold (fun t x => ?_) _ ?_
    | fail_if_no_progress refine Same.chain (k' := 0x40800) ?_ (Same.upd _) rfl

theorem freeBank_same (s : State) (bank : Nat) : Same 0x14 s (State.freeBank s bank) := by
  unfold State.freeBank
  try dsimp only
  repeat' first
    | exact Same.refl ..
    | split
    | refine Same.fold (fun t x => ?_) _ ?_
    | fail_if_no_progress refine Same.chain (k' := 0x14) ?_ (Same.upd _) rfl

theorem blockPasses_same (s : State) (b : Nat) : Same 0x20034 s (State.blockPasses s b) := by
  unfold State.blockPasses
  try dsimp only
  repeat' first
    | exact Same.refl ..
    | split
    | refine Same.chain ?_ (freeBank_same ..) rfl
    | refine Same.chain ?_ (setPort_same ..) rfl
    | refine Same.fold (fun t x => ?_) _ ?_
    | fail_if_no_progress refine Same.chain (k' := 0x20034) ?_ (Same.upd _) rfl

theorem passTime_same (s : State) (ns : Nat) : Same 0xc002 s (State.passTime s ns) := by
  unfold State.passTime
  try dsimp only
  repeat' first
    | exact Same.refl ..
    | split
    | refine Same.fold (fun t x => ?_) _ ?_
    | fail_if_no_progress refine Same.chain (k' := 0xc002) ?_ (Same.upd _) rfl

theorem boundary_same (s : State) : Same 0xe0e2 s (State.boundary s) := by
  unfold State.boundary
  try dsimp only
  repeat' first
    | exact Same.refl ..
    | split
    | refine Same.chain ?_ (passTime_same ..) rfl
    | refine Same.fold (fun t x => ?_) _ ?_
    | fail_if_no_progress refine Same.chain (k' := 0xe0e2) ?_ (Same.upd _) rfl

theorem defaultParams_same (s : State) (p : Nat → Bool) : Same 0x200 s (State.defaultParams s p) := by
  unfold State.defaultParams
  try dsimp only
  repeat' first
    | exact Same.refl ..
    | split
    | refine Same.fold (fun t x => ?_) _ ?_
    | fail_if_no_progress refine Same.chain (k' := 0x200) ?_ (Same.upd _) rfl

theorem startBridge_same (s : State) : Same 0x2200 s (State.startBridge s) := by
  unfold State.startBridge
  try dsimp only
  repeat' first
    | exact Same.refl ..
    | split
    | refine Same.chain ?_ (applyParams_same ..) rfl
    | refine Same.chain ?_ (updBridge_same ..) rfl

theorem brgStart_same (s : State) (o : Outstanding) (profile : Nat) : Same 0x2300 s (State.brgStart s o profile) := by
  unfold State.brgStart
  try dsimp only
  repeat' first
    | exact Same.refl ..
    | split
    | refine Same.chain ?_ (startBridge_same ..) rfl
    | refine Same.chain ?_ (defaultParams_same ..) rfl
    | refine Same.chain ?_ (answer_same ..) rfl

theorem chunkWhole_same (s : State) (o : Outstanding) (i : Nat) (tagOk : Bool) : Same 0x4100 s (State.chunkWhole s o i tagOk) := by
  unfold State.chunkWhole
  try dsimp only
  repeat' first
    | exact Same.refl ..
    | split
    | refine Same.chain ?_ (answer_same ..) rfl
    | refine Same.fold (fun t x => ?_) _ ?_
    | fail_if_no_progress refine Same.chain (k' := 0x4100) ?_ (Same.upd _) rfl

theorem chunkPart_same (s : State) (o : Outstanding) (q : UpdSession) (i : Nat) (part : Nat) (data : List Byte) (tagOk : Bool) : Same 0x44100 s (State.chunkPart s o q i part data tagOk) := by
  unfold State.chunkPart
  try dsimp only
  repeat' first
    | exact Same.refl ..
    | split
    | refine Same.chain ?_ (chunkWhole_same ..) rfl
    | refine Same.chain ?_ (recordBatch_same ..) rfl
    | refine Same.chain ?_ (answer_same ..) rfl
    | refine Same.fold (fun t x => ?_) _ ?_
    | fail_if_no_progress refine Same.chain (k' := 0x44100) ?_ (Same.upd _) rfl

theorem chunk_same (s : State) (o : Outstanding) (b : List Byte) (tagOk : Bool) (q : UpdSession) : Same 0x44100 s (State.chunk s o b tagOk q) := by
  unfold State.chunk
  try dsimp only
  repeat' first
    | exact Same.refl ..
    | split
    | refine Same.chain ?_ (chunkPart_same ..) rfl
    | refine Same.chain ?_ (recordBatch_same ..) rfl
    | refine Same.chain ?_ (answer_same ..) rfl

theorem clockEvent_same (s : State) (i : Island) : Same 0x40100 s (State.clockEvent s i) := by
  unfold State.clockEvent
  try dsimp only
  repeat' first
    | exact Same.refl ..
    | split
    | refine Same.chain ?_ (raise_same ..) rfl

theorem rxClockLost_same (s : State) (p : PortId) : Same 0x40120 s (State.rxClockLost s p) := by
  unfold State.rxClockLost
  try dsimp only
  repeat' first
    | exact Same.refl ..
    | split
    | refine Same.chain ?_ (linkLost_same ..) rfl
    | refine Same.chain ?_ (setPort_same ..) rfl

theorem pcieReset_same (s : State) (linkStays : Bool) : Same 0x45500 s (State.pcieReset s linkStays) := by
  unfold State.pcieReset
  try dsimp only
  repeat' first
    | exact Same.refl ..
    | split
    | refine Same.chain ?_ (orphans_same ..) rfl
    | refine Same.chain ?_ (closeSessions_same ..) rfl
    | refine Same.fold (fun t x => ?_) _ ?_
    | fail_if_no_progress refine Same.chain (k' := 0x45500) ?_ (Same.upd _) rfl

theorem loseNetClock_same (s : State) : Same 0x22 s (State.loseNetClock s) := by
  unfold State.loseNetClock
  try dsimp only
  repeat' first
    | exact Same.refl ..
    | split
    | refine Same.fold (fun t x => ?_) _ ?_
    | fail_if_no_progress refine Same.chain (k' := 0x22) ?_ (Same.upd _) rfl

theorem loseField_same (s : State) : Same 0x40110 s (State.loseField s) := by
  unfold State.loseField
  try dsimp only
  repeat' first
    | exact Same.refl ..
    | split
    | refine Same.chain ?_ (updField_same ..) rfl
    | refine Same.chain ?_ (raise_same ..) rfl

theorem closeRows_same (s : State) : Same 0x804 s (State.closeRows s) := by
  unfold State.closeRows
  try dsimp only
  repeat' first
    | exact Same.refl ..
    | split
    | refine Same.chain ?_ (updLane_same ..) rfl
    | refine Same.fold (fun t x => ?_) _ ?_
    | fail_if_no_progress refine Same.chain (k' := 0x804) ?_ (Same.upd _) rfl

theorem closeLanes_same (s : State) : Same 0x4 s (State.closeLanes s) := by
  unfold State.closeLanes
  try dsimp only
  repeat' first
    | exact Same.refl ..
    | split
    | refine Same.chain ?_ (mapLanes_same ..) rfl

theorem disagree_same (s : State) (slot : Nat) : Same 0x40900 s (State.disagree s slot) := by
  unfold State.disagree
  try dsimp only
  repeat' first
    | exact Same.refl ..
    | split
    | refine Same.chain ?_ (freeSlot_same ..) rfl
    | refine Same.chain ?_ (answerOut_same ..) rfl
    | refine Same.chain ?_ (raise_same ..) rfl

theorem countRefusal_same (s : State) (reason : Nat) : Same 0x40800 s (State.countRefusal s reason) := by
  unfold State.countRefusal
  try dsimp only
  repeat' first
    | exact Same.refl ..
    | split
    | refine Same.chain ?_ (recordBatch_same ..) rfl
    | refine Same.fold (fun t x => ?_) _ ?_
    | fail_if_no_progress refine Same.chain (k' := 0x40800) ?_ (Same.upd _) rfl

theorem recordAction_same (s : State) (r : OutRec) (slot : Nat) : Same 0x40000 s (State.recordAction s r slot) := by
  unfold State.recordAction
  try dsimp only
  repeat' first
    | exact Same.refl ..
    | split
    | refine Same.chain ?_ (recordBatch_same ..) rfl

theorem outcome_same (s : State) (r : OutRec) : Same 0x40900 s (State.outcome s r) := by
  unfold State.outcome
  try dsimp only
  repeat' first
    | exact Same.refl ..
    | split
    | refine Same.chain ?_ (recordAction_same ..) rfl
    | refine Same.chain ?_ (countRefusal_same ..) rfl
    | refine Same.chain ?_ (blockListStep_same ..) rfl
    | refine Same.chain ?_ (freeSlot_same ..) rfl
    | refine Same.chain ?_ (answerOut_same ..) rfl
    | refine Same.chain ?_ (recordBatch_same ..) rfl

theorem handOver_same (s : State) : Same 0x40900 s (State.handOver s) := by
  unfold State.handOver
  dsimp only
  refine Same.chain ?_ (recordBatch_same ..) rfl
  refine Same.chain (k' := 0x40000) ?_ (Same.upd _) rfl
  refine Same.fold (fun t x => (post_same ..).mono rfl) _ ?_
  refine Same.ite ?_ (Same.refl ..)
  refine Same.ite ?_ (Same.fold (fun t x => (acknowledge_same ..).mono rfl) _ ?_)
  all_goals refine Same.fold (fun t x => (disagree_same ..).mono rfl) _ ?_
  all_goals exact Same.fold (fun t x => (outcome_same ..).mono rfl) _ (Same.refl ..)

theorem refuseExchange_same (s : State) (reason : Nat) (rec_ : Nat) : Same 0x40500 s (State.refuseExchange s reason rec_) := by
  unfold State.refuseExchange
  try dsimp only
  repeat' first
    | exact Same.refl ..
    | split
    | refine Same.chain ?_ (raiseWith_same ..) rfl
    | refine Same.fold (fun t x => ?_) _ ?_
    | fail_if_no_progress refine Same.chain (k' := 0x40500) ?_ (Same.upd _) rfl

theorem recheck_same (s : State) : Same 0x40500 s (State.recheck s) := by
  unfold State.recheck
  try dsimp only
  repeat' first
    | exact Same.refl ..
    | split
    | refine Same.chain ?_ (refuseExchange_same ..) rfl

theorem proofRequested_same (s : State) : Same 0x40160 s (State.proofRequested s) := by
  unfold State.proofRequested
  try dsimp only
  repeat' first
    | exact Same.refl ..
    | split
    | refine Same.chain ?_ (newAttempt_same ..) rfl
    | refine Same.chain ?_ (failAttempt_same ..) rfl
    | refine Same.fold (fun t x => ?_) _ ?_
    | fail_if_no_progress refine Same.chain (k' := 0x40160) ?_ (Same.upd _) rfl

theorem takeDescriptor_same (s : State) : Same 0x40160 s (State.takeDescriptor s) := by
  unfold State.takeDescriptor
  try dsimp only
  repeat' first
    | exact Same.refl ..
    | split
    | refine Same.chain ?_ (proofRequested_same ..) rfl
    | refine Same.chain ?_ (newAttempt_same ..) rfl
    | refine Same.fold (fun t x => ?_) _ ?_
    | fail_if_no_progress refine Same.chain (k' := 0x40160) ?_ (Same.upd _) rfl

theorem exchangeDone_same (s : State) : Same 0x44d04 s (State.exchangeDone s) := by
  unfold State.exchangeDone
  try dsimp only
  repeat' first
    | exact Same.refl ..
    | split
    | refine Same.chain ?_ (alignForme_same ..) rfl
    | refine Same.chain ?_ (mapLanes_same ..) rfl
    | refine Same.chain ?_ (raise_same ..) rfl
    | refine Same.fold (fun t x => ?_) _ ?_
    | fail_if_no_progress refine Same.chain (k' := 0x44d04) ?_ (Same.upd _) rfl

theorem closeFuncs_same (s : State) : Same 0x800 s (State.closeFuncs s) := by
  unfold State.closeFuncs
  try dsimp only
  repeat' first
    | exact Same.refl ..
    | split
    | refine Same.fold (fun t x => ?_) _ ?_
    | fail_if_no_progress refine Same.chain (k' := 0x800) ?_ (Same.upd _) rfl

theorem copyWords_same (s : State) : Same 0x800 s (State.copyWords s) := by
  unfold State.copyWords
  split
  · exact Same.refl ..
  · exact Same.upd _

/-- The last writes of a close. -/
theorem closed_same (s : State) : Same 0x808 s { s with platen := s.platen.close, req := { s.req with frozen := [] } } := Same.upd _

theorem closeCycle_same (s : State) : Same 0x44d6c s (State.closeCycle s) := by
  unfold State.closeCycle
  dsimp only
  refine Same.chain ?_ (closed_same _) rfl
  refine Same.chain ?_ (closeLanes_same ..) rfl
  refine Same.ite (Same.chain ?_ (exchangeDone_same ..) rfl) ?_
  all_goals
    refine Same.chain ?_ (recheck_same ..) rfl
    refine Same.chain ?_ (takeDescriptor_same ..) rfl
    refine Same.chain ?_ (handOver_same ..) rfl
    refine Same.chain ?_ (copyWords_same ..) rfl
    refine Same.chain ?_ (closeFuncs_same ..) rfl
    exact (closeRows_same ..).mono rfl

theorem coldTakeover_same (s : State) (f : StartFacts) : Same 0x67fffe s (State.coldTakeover s f) := by
  unfold State.coldTakeover
  try dsimp only
  repeat' first
    | exact Same.refl ..
    | split
    | refine Same.chain ?_ (start_same ..) rfl
    | refine Same.chain ?_ (raise_same ..) rfl
    | refine Same.chain ?_ (stopVital_same ..) rfl
    | refine Same.fold (fun t x => ?_) _ ?_
    | fail_if_no_progress refine Same.chain (k' := 0x67fffe) ?_ (Same.upd _) rfl

theorem enterRunning_same (s : State) : Same 0x60 s (State.enterRunning s) := by
  unfold State.enterRunning
  try dsimp only
  repeat' first
    | exact Same.refl ..
    | split
    | refine Same.fold (fun t x => ?_) _ ?_
    | fail_if_no_progress refine Same.chain (k' := 0x60) ?_ (Same.upd _) rfl

theorem emit_same (s : State) (p : PortId) (f : Frame) (broken : Bool) : Same 0x20 s (State.emit s p f broken) := by
  unfold State.emit
  exact Same.upd _

theorem sendColdstart_same (s : State) : Same 0x20 s (State.sendColdstart s) := by
  unfold State.sendColdstart
  split
  · exact Same.refl ..
  · exact Same.fold (fun t p => emit_same ..) _ (Same.refl ..)

theorem coldstartOn_same (s : State) : Same 0x60 s (State.coldstartOn s) := by
  unfold State.coldstartOn
  dsimp only
  refine Same.ite (Same.chain ?_ (enterRunning_same ..) rfl) ?_
  all_goals exact Same.upd _

theorem coldstartStep_same (s : State) (heard : ColdstartHeard) : Same 0x60 s (State.coldstartStep s heard) := by
  unfold State.coldstartStep
  split
  · exact Same.ite (Same.upd _) (((sendColdstart_same s).mono rfl).chain (coldstartOn_same ..) rfl)
  · exact Same.chain (k' := 0x20) ((sendColdstart_same s).mono rfl) (Same.upd _) rfl
  · exact ((sendColdstart_same s).mono rfl).chain (coldstartOn_same ..) rfl

theorem stallQueue_same (s : State) (n : Nat) : Same 0x40100 s (State.stallQueue s n) := by
  unfold State.stallQueue
  exact Same.ite (Same.refl ..) (((updQueue_same ..).mono rfl).chain (raise_same ..) rfl)

theorem stall_same (s : State) (e : Entry) : Same 0x40100 s (State.stall s e) := stallQueue_same ..

theorem dequeue_same (s : State) (e : Entry) : Same 0x100 s (State.dequeue s e) := by
  unfold State.dequeue
  try dsimp only
  repeat' first
    | exact Same.refl ..
    | split
    | refine Same.chain ?_ (updQueue_same ..) rfl
    | refine Same.fold (fun t x => ?_) _ ?_
    | fail_if_no_progress refine Same.chain (k' := 0x100) ?_ (Same.upd _) rfl

theorem command_same {k : Nat} {s : State} {op : Nat} {needs needsUdp : Bool} {e : Entry} {run : Outstanding → State → State} (hr : ∀ o v, Same k v (run o v)) (he : 0x40100 ||| k = k) : Same k s (s.command op needs needsUdp e run) := by
  unfold State.command
  dsimp only
  split
  · exact Same.refl ..
  · exact (stall_same ..).mono (by rw [← he, ← Nat.or_assoc]; rfl)
  · split
    · exact (((dequeue_same ..).mono (by rw [← he, ← Nat.or_assoc]; rfl)).chain (answer_same ..) (by rw [← he, ← Nat.or_assoc]; rfl)).chain (recordBatch_same ..) (by rw [← he, ← Nat.or_assoc]; rfl)
    · exact ((dequeue_same ..).mono (by rw [← he, ← Nat.or_assoc]; rfl)).chain (answer_same ..) (by rw [← he, ← Nat.or_assoc]; rfl)
  · refine Same.mono (k' := 0x40100) ?_ he
    refine Same.chain ?_ (recordBatch_same ..) rfl
    refine Same.chain ?_ (answer_same ..) rfl
    refine Same.chain (k' := 0x100) (dequeue_same .. |>.mono rfl) (Same.upd _) rfl
  · exact ((dequeue_same ..).mono (by rw [← he, ← Nat.or_assoc]; rfl)).chain (hr _ _) (Nat.or_self k)

theorem commitExchange_same (s : State) (o : Outstanding) (target : Nat) : Same 0x500 s (State.commitExchange s o target) := by
  unfold State.commitExchange
  try dsimp only
  repeat' first
    | exact Same.refl ..
    | split
    | refine Same.chain ?_ (answer_same ..) rfl
    | refine Same.fold (fun t x => ?_) _ ?_
    | fail_if_no_progress refine Same.chain (k' := 0x500) ?_ (Same.upd _) rfl

theorem refresh_same (s : State) (entry : Nat) (ws : List Word64) : Same 0x40120 s (State.refresh s entry ws) := by
  unfold State.refresh
  try dsimp only
  repeat' first
    | exact Same.refl ..
    | split
    | refine Same.chain ?_ (raise_same ..) rfl
    | refine Same.fold (fun t x => ?_) _ ?_
    | fail_if_no_progress refine Same.chain (k' := 0x40120) ?_ (Same.upd _) rfl

theorem compareCopies_same (s : State) (entry : Nat) : Same 0x40120 s (State.compareCopies s entry) := by
  unfold State.compareCopies
  try dsimp only
  repeat' first
    | exact Same.refl ..
    | split
    | refine Same.chain ?_ (refresh_same ..) rfl
    | refine Same.chain ?_ (recordBatch_same ..) rfl
    | refine Same.fold (fun t x => ?_) _ ?_
    | fail_if_no_progress refine Same.chain (k' := 0x40120) ?_ (Same.upd _) rfl

theorem completeClear_same {s : State} {c : RecClear} (e : s.recorder.clearing = some c) : Same 0x40100 s (s.completeClear c) := by
  unfold State.completeClear
  refine Same.chain (Same.chain ?_ (answerOut_same ..) rfl) (raise_same ..) rfl
  exact Same.upd _ (h_record := fun h => finishClear_sound h e)

theorem confirm_same (s : State) (o : Outstanding) (q : UpdSession) (t : List Byte) : Same 0x44100 s (State.confirm s o q t) := by
  unfold State.confirm
  try dsimp only
  repeat' first
    | exact Same.refl ..
    | split
    | refine Same.chain ?_ (raiseWith_same ..) rfl
    | refine Same.chain ?_ (answer_same ..) rfl
    | refine Same.fold (fun t x => ?_) _ ?_
    | fail_if_no_progress refine Same.chain (k' := 0x44100) ?_ (Same.upd _) rfl

theorem latchOut_same (s : State) (f : Forme) (out : Tri (List Word64)) : Same 0x10 s (State.latchOut s f out) := by
  unfold State.latchOut
  try dsimp only
  repeat' first
    | exact Same.refl ..
    | split
    | refine Same.fold (fun t x => ?_) _ ?_
    | fail_if_no_progress refine Same.chain (k' := 0x10) ?_ (Same.upd _) rfl

theorem judgeLanes_same (s : State) (f : Forme) : Same 0x4010c s (State.judgeLanes s f) := by
  unfold State.judgeLanes
  try dsimp only
  repeat' first
    | exact Same.refl ..
    | split
    | refine Same.chain ?_ (exclude_same ..) rfl
    | refine Same.chain ?_ (recordBatch_same ..) rfl
    | refine Same.fold (fun t x => ?_) _ ?_
    | fail_if_no_progress refine Same.chain (k' := 0x4010c) ?_ (Same.upd _) rfl

theorem driveField_same (s : State) (f : Forme) (out : Tri (List Word64)) : Same 0x10 s (State.driveField s f out) := by
  unfold State.driveField
  try dsimp only
  repeat' first
    | exact Same.refl ..
    | split
    | refine Same.fold (fun t x => ?_) _ ?_
    | fail_if_no_progress refine Same.chain (k' := 0x10) ?_ (Same.upd _) rfl

theorem finishVote_same (s : State) (f : Forme) : Same 0x401bc s (State.finishVote s f) := by
  unfold State.finishVote
  try dsimp only
  repeat' first
    | exact Same.refl ..
    | split
    | refine Same.chain ?_ (driveField_same ..) rfl
    | refine Same.chain ?_ (judgeLanes_same ..) rfl
    | refine Same.chain ?_ (latchOut_same ..) rfl
    | refine Same.chain ?_ (enterSafe_same ..) rfl
    | refine Same.fold (fun t x => ?_) _ ?_
    | fail_if_no_progress refine Same.chain (k' := 0x401bc) ?_ (Same.upd _) rfl

theorem noteVoted_same (s : State) : Same 0x4 s (State.noteVoted s) := by
  unfold State.noteVoted
  try dsimp only
  repeat' first
    | exact Same.refl ..
    | split
    | refine Same.fold (fun t x => ?_) _ ?_
    | fail_if_no_progress refine Same.chain (k' := 0x4) ?_ (Same.upd _) rfl

theorem endVote_same (s : State) (f : Forme) : Same 0x401bc s (State.endVote s f) := by
  unfold State.endVote
  refine Same.ite ?_ (Same.refl ..)
  exact ((noteVoted_same s).mono rfl).chain (finishVote_same ..) rfl

theorem laneLost_same (s : State) : Same 0x401bc s (State.laneLost s) := by
  unfold State.laneLost
  split
  · exact Same.refl ..
  · exact Same.ite (enterSafe_same ..) (endVote_same ..)

theorem copyVote_same (s : State) (f : Forme) (c : LaneId) : Same 0x401bc s (State.copyVote s f c) := by
  unfold State.copyVote
  exact Same.chain (k' := 0x401bc) (Same.upd _) (endVote_same ..) rfl

theorem holdLane_same (s : State) (l : LaneId) : Same 0x401be s (State.holdLane s l) := by
  unfold State.holdLane
  try dsimp only
  repeat' first
    | exact Same.refl ..
    | split
    | refine Same.chain ?_ (laneLost_same ..) rfl
    | refine Same.chain ?_ (updLane_same ..) rfl
    | refine Same.chain ?_ (updPower_same ..) rfl

theorem clockFault_same (s : State) (i : Island) : Same 0x45dbe s (State.clockFault s i) := by
  have ev : ∀ {t : State} (i : Island), Same 0x45dbe s t → Same 0x45dbe s (t.clockEvent i) :=
    fun i h => h.chain (clockEvent_same ..) rfl
  unfold State.clockFault
  split
  · exact ev _ ((updPower_same ..).mono rfl)
  · exact ev _ ((stewardRestart_same ..).mono rfl)
  · exact ev _ ((holdLane_same ..).mono rfl)
  · exact ev _ ((holdLane_same ..).mono rfl)
  · exact ev _ ((holdLane_same ..).mono rfl)
  · exact ev _ ((loseNetClock_same ..).mono rfl)
  · exact (rxClockLost_same ..).mono rfl
  · exact (rxClockLost_same ..).mono rfl
  · exact (rxClockLost_same ..).mono rfl
  · exact (rxClockLost_same ..).mono rfl
  · exact ev _ ((pcieReset_same ..).mono rfl)
  · refine ev _ (Same.chain ?_ (closeSessions_same ..) rfl)
    exact Same.upd _
  · exact ev _ (Same.ite ((loseField_same ..).mono rfl) (Same.refl ..))
  · exact ev _ ((updPower_same ..).mono rfl)

theorem clockFaultHeld_same (s : State) (i : Island) : Same 0x401be s (State.clockFaultHeld s i) := by
  unfold State.clockFaultHeld
  try dsimp only
  repeat' first
    | exact Same.refl ..
    | split
    | refine Same.chain ?_ (holdLane_same ..) rfl
    | refine Same.chain ?_ (updPower_same ..) rfl

theorem setContext_same (s : State) (c : CrcContext) : Same 0x2001000 s (State.setContext s c) := by
  unfold State.setContext
  try dsimp only
  repeat' first
    | exact Same.refl ..
    | split
    | refine Same.fold (fun t x => ?_) _ ?_
    | fail_if_no_progress refine Same.chain (k' := 0x2001000) ?_ (Same.upd _) rfl

theorem crcFeed_same (s : State) (o : Outstanding) (n : Nat) (data : List Byte) : Same 0x2001100 s (State.crcFeed s o n data) := by
  unfold State.crcFeed
  try dsimp only
  repeat' first
    | exact Same.refl ..
    | split
    | refine Same.chain ?_ (setContext_same ..) rfl
    | refine Same.chain ?_ (answer_same ..) rfl

theorem crcOpen_same (s : State) (o : Outstanding) (code : Nat) : Same 0x2041100 s (State.crcOpen s o code) := by
  unfold State.crcOpen
  try dsimp only
  repeat' first
    | exact Same.refl ..
    | split
    | refine Same.chain ?_ (setContext_same ..) rfl
    | refine Same.chain ?_ (recordBatch_same ..) rfl
    | refine Same.chain ?_ (answer_same ..) rfl

theorem crcWrite_same (s : State) (o : Outstanding) (n : Nat) (v : Nat) : Same 0x2001100 s (State.crcWrite s o n v) := by
  unfold State.crcWrite
  try dsimp only
  repeat' first
    | exact Same.refl ..
    | split
    | refine Same.chain ?_ (setContext_same ..) rfl
    | refine Same.chain ?_ (answer_same ..) rfl

theorem crossingLost_same (s : State) (y1 : Crossing) : Same 0x40124 s (State.crossingLost s y1) := by
  unfold State.crossingLost
  split
  · exact Same.refl ..
  · exact (updLane_same ..).mono rfl
  · exact Same.upd _
  · exact Same.refl ..
  · exact (setPort_same ..).mono rfl

theorem crossingTimeout_same (s : State) (i : Island) : Same 0x40102 s (State.crossingTimeout s i) := by
  unfold State.crossingTimeout
  try dsimp only
  repeat' first
    | exact Same.refl ..
    | split
    | refine Same.chain ?_ (raise_same ..) rfl
    | refine Same.fold (fun t x => ?_) _ ?_
    | fail_if_no_progress refine Same.chain (k' := 0x40102) ?_ (Same.upd _) rfl

theorem datagram_same (s : State) (opcode : Nat) (e : Entry) : Same 0x40100 s (State.datagram s opcode e) := by
  unfold State.datagram
  try dsimp only
  repeat' first
    | exact Same.refl ..
    | split
    | refine Same.chain ?_ (answerUnknown_same ..) rfl
    | refine Same.chain ?_ (recordBatch_same ..) rfl
    | refine Same.chain ?_ (answer_same ..) rfl
    | refine Same.chain ?_ (sendDatagram_same ..) rfl
    | refine Same.fold (fun t x => ?_) _ ?_
    | fail_if_no_progress refine Same.chain (k' := 0x40100) ?_ (Same.upd _) rfl

theorem deliver_same (s : State) (f : Forme) (copy : LaneId) (lane : LaneId) (bad : List (Nat × Word64)) : Same 0x401bc s (State.deliver s f copy lane bad) := by
  unfold State.deliver
  try dsimp only
  repeat' first
    | exact Same.refl ..
    | split
    | refine Same.chain ?_ (copyVote_same ..) rfl
    | refine Same.chain ?_ (recordBatch_same ..) rfl
    | refine Same.fold (fun t x => ?_) _ ?_
    | fail_if_no_progress refine Same.chain (k' := 0x401bc) ?_ (Same.upd _) rfl

theorem drainAll_same (s : State) : Same 0x2100 s (State.drainAll s) := by
  unfold State.drainAll
  exact Same.fold (fun t x => (drainChannel_same ..).mono rfl) _ (Same.refl ..)

theorem dropCommand_same (s : State) : Same 0x40180 s (State.dropCommand s) := by
  unfold State.dropCommand
  try dsimp only
  repeat' first
    | exact Same.refl ..
    | split
    | refine Same.chain ?_ (raise_same ..) rfl
    | refine Same.fold (fun t x => ?_) _ ?_
    | fail_if_no_progress refine Same.chain (k' := 0x40180) ?_ (Same.upd _) rfl

theorem dropExchange_same (s : State) : Same 0x500 s (State.dropExchange s) := by
  unfold State.dropExchange
  try dsimp only
  repeat' first
    | exact Same.refl ..
    | split
    | refine Same.chain ?_ (answerOut_same ..) rfl
    | refine Same.fold (fun t x => ?_) _ ?_
    | fail_if_no_progress refine Same.chain (k' := 0x500) ?_ (Same.upd _) rfl

theorem notePartner_same (s : State) : Same 0x80 s (State.notePartner s) := by
  unfold State.notePartner
  try dsimp only
  repeat' first
    | exact Same.refl ..
    | split
    | refine Same.fold (fun t x => ?_) _ ?_
    | fail_if_no_progress refine Same.chain (k' := 0x80) ?_ (Same.upd _) rfl

theorem takeCommand_same (s : State) (seq : Nat) : Same 0x40180 s (State.takeCommand s seq) := by
  unfold State.takeCommand
  try dsimp only
  repeat' first
    | exact Same.refl ..
    | split
    | refine Same.chain ?_ (raiseWith_same ..) rfl
    | refine Same.fold (fun t x => ?_) _ ?_
    | fail_if_no_progress refine Same.chain (k' := 0x40180) ?_ (Same.upd _) rfl

theorem loseRequests_same (s : State) : Same 0x900 s (State.loseRequests s) := by
  unfold State.loseRequests
  try dsimp only
  repeat' first
    | with_reducible exact Same.refl ..
    | exact rfl
    | with_reducible refine Same.ite ?_ ?_
    | with_reducible refine Same.fold (fun t x => ?_) _ ?_
    | fail_if_no_progress refine Same.chain (k' := 0x900) ?_ (Same.upd _) rfl

theorem duplexBoundary_same (s : State) : Same 0x40980 s (State.duplexBoundary s) := by
  unfold State.duplexBoundary
  refine Same.ite (Same.refl ..) ?_
  dsimp only
  refine Same.chain (k' := 0x40980) ?_ (Same.upd _) rfl
  refine Same.ite (Same.chain ?_ (raise_same ..) rfl) ?_
  all_goals
    refine Same.ite (Same.chain ?_ (loseRequests_same ..) rfl) ?_
    all_goals
      refine Same.ite (Same.chain ?_ (takeCommand_same ..) rfl) (Same.ite (Same.chain ?_ (dropCommand_same ..) rfl) ?_)
      all_goals exact (notePartner_same ..).mono rfl

theorem standbySweep_same (s : State) (before : State) : Same 0x80 s (State.standbySweep s before) := by
  unfold State.standbySweep
  try dsimp only
  repeat' first
    | exact Same.refl ..
    | split
    | refine Same.fold (fun t x => ?_) _ ?_
    | fail_if_no_progress refine Same.chain (k' := 0x80) ?_ (Same.upd _) rfl

theorem duplexStrobe_same (s : State) (before : State) : Same 0x80 s (State.duplexStrobe s before) := by
  unfold State.duplexStrobe
  try dsimp only
  repeat' first
    | exact Same.refl ..
    | split
    | refine Same.chain ?_ (standbySweep_same ..) rfl
    | refine Same.chain ?_ (advanceSweep_same ..) rfl

theorem endProof_same (s : State) (r : ProofReading) (kind : Nat) (late : Bool) : Same 0x6013e s (State.endProof s r kind late) := by
  unfold State.endProof
  try dsimp only
  repeat' first
    | exact Same.refl ..
    | split
    | refine Same.chain ?_ (blockPasses_same ..) rfl
    | refine Same.chain ?_ (blockFails_same ..) rfl
    | refine Same.chain ?_ (storeProof_same ..) rfl
    | refine Same.chain ?_ (raise_same ..) rfl
    | refine Same.fold (fun t x => ?_) _ ?_
    | fail_if_no_progress refine Same.chain (k' := 0x6013e) ?_ (Same.upd _) rfl

theorem ethernetIn_same (s : State) (ch : Nat) (peer : Nat) (tag : Nat) (credited : Bool) (data : List Byte) : Same 0x42100 s (State.ethernetIn s ch peer tag credited data) := by
  unfold State.ethernetIn
  try dsimp only
  repeat' first
    | exact Same.refl ..
    | split
    | refine Same.chain ?_ (deliverEntry_same ..) rfl
    | refine Same.chain ?_ (updBridge_same ..) rfl

theorem ethernetSegment_same (s : State) (g : Segment) : Same 0x42100 s (State.ethernetSegment s g) := by
  unfold State.ethernetSegment
  try dsimp only
  repeat' first
    | exact Same.refl ..
    | split
    | refine Same.chain ?_ (ethernetIn_same ..) rfl
    | refine Same.chain ?_ (updBridge_same ..) rfl

theorem evaluateLanes_same (s : State) (x : Sample) (stuck : List (Nat × Nat)) (findings : List (Nat × Nat)) (fell : List Nat) (failed : List LaneId) : Same 0x4 s (State.evaluateLanes s x stuck findings fell failed) := by
  unfold State.evaluateLanes
  try dsimp only
  repeat' first
    | exact Same.refl ..
    | split
    | refine Same.chain ?_ (mapLanes_same ..) rfl

theorem exchangeLanes_same (s : State) (failed : List LaneId) : Same 0x4 s (State.exchangeLanes s failed) := by
  unfold State.exchangeLanes
  try dsimp only
  repeat' first
    | exact Same.refl ..
    | split
    | refine Same.chain ?_ (mapLanes_same ..) rfl

theorem prepareFails_same (s : State) (x : LoadFail) (ls : List LaneId) : Same 0x40500 s (State.prepareFails s x ls) := by
  unfold State.prepareFails
  try dsimp only
  repeat' first
    | exact Same.refl ..
    | split
    | refine Same.chain ?_ (answerPrepare_same ..) rfl
    | refine Same.chain ?_ (formeRefusedBy_same ..) rfl
    | refine Same.fold (fun t x => ?_) _ ?_
    | fail_if_no_progress refine Same.chain (k' := 0x40500) ?_ (Same.upd _) rfl

theorem exchangePrepared_same (s : State) : Same 0x40500 s (State.exchangePrepared s) := by
  unfold State.exchangePrepared
  split
  · exact Same.refl ..
  · dsimp only
    split
    · exact (prepareFails_same ..).mono rfl
    · refine Same.chain (Same.chain ?_ (raise_same ..) rfl) (answerPrepare_same ..) rfl
      exact Same.upd _

end Sys2Proof.Laws
end

