-- ==== Sys2Proof/Laws/Prints3.lean ====
section
/-! SUPPORT. The footprint of each operation on the state, third part. -/

set_option Elab.async false

namespace Sys2Proof.Laws

open Sys2Proof Sys2Proof.Machine

theorem freezeRequests_same (s : State) : Same 0x800 s (State.freezeRequests s) := by
  unfold State.freezeRequests
  try dsimp only
  repeat' first
    | exact Same.refl ..
    | split
    | refine Same.fold (fun t x => ?_) _ ?_
    | fail_if_no_progress refine Same.chain (k' := 0x800) ?_ (Same.upd _) rfl

theorem sampleField_same (s : State) (f : Forme) (x : Sample) (ns : Nat) : Same 0x10 s (State.sampleField s f x ns) := by
  unfold State.sampleField
  exact Same.upd _

theorem sealField_same (s : State) (f : Forme) (x : Sample) (ns : Nat) : Same 0x12 s (State.sealField s f x ns) := by
  unfold State.sealField
  exact Same.chain (k' := 0x12) ((sampleField_same ..).mono rfl) (Same.upd _) rfl

theorem followTarget_same (s : State) : Same 0x400 s (State.followTarget s) := by
  unfold State.followTarget
  try dsimp only
  repeat' first
    | exact Same.refl ..
    | split
    | refine Same.fold (fun t x => ?_) _ ?_
    | fail_if_no_progress refine Same.chain (k' := 0x400) ?_ (Same.upd _) rfl

theorem keepLigatures_same (s : State) (e : Env) : Same 0x40040 s (State.keepLigatures s e) := by
  unfold State.keepLigatures
  try dsimp only
  repeat' first
    | exact Same.refl ..
    | split
    | refine Same.chain ?_ (recordBatch_same ..) rfl
    | refine Same.fold (fun t x => ?_) _ ?_
    | fail_if_no_progress refine Same.chain (k' := 0x40040) ?_ (Same.upd _) rfl

theorem proofResult_same (s : State) : Same 0x40040 s (State.proofResult s) := by
  unfold State.proofResult
  try dsimp only
  repeat' first
    | exact Same.refl ..
    | split
    | refine Same.chain ?_ (keepLigatures_same ..) rfl
    | refine Same.fold (fun t x => ?_) _ ?_
    | fail_if_no_progress refine Same.chain (k' := 0x40040) ?_ (Same.upd _) rfl

theorem runCycle_same (s : State) (f : Forme) (x : Sample) (failed : List LaneId) (freeze : Bool) (ns : Nat) :
    Same 0x40cde s (State.runCycle s f x failed freeze ns) := by
  unfold State.runCycle
  dsimp only
  refine Same.chain ?_ (proofResult_same ..) rfl
  refine Same.chain (k' := 0x40cde) ?_ (Same.upd _) rfl
  refine Same.chain ?_ (duplexStrobe_same ..) rfl
  refine Same.chain ?_ (evaluateLanes_same ..) rfl
  refine Same.ite (Same.chain ?_ (freezeRequests_same ..) rfl) (Same.chain (k' := 0x40cde) ?_ (Same.upd _) rfl)
  all_goals
    refine Same.chain ?_ (recordBatch_same ..) rfl
    exact (sealField_same ..).mono rfl

theorem openCycle_same (s : State) (longer : Bool) : Same 0x2c s (State.openCycle s longer) := by
  unfold State.openCycle
  try dsimp only
  repeat' first
    | exact Same.refl ..
    | split
    | refine Same.fold (fun t x => ?_) _ ?_
    | fail_if_no_progress refine Same.chain (k' := 0x2c) ?_ (Same.upd _) rfl

theorem exchangeStrobe_same (s : State) (x : Sample) (failed : List LaneId) : Same 0x40cfe s (State.exchangeStrobe s x failed) := by
  unfold State.exchangeStrobe
  try dsimp only
  repeat' first
    | with_reducible exact Same.refl ..
    | exact rfl
    | with_reducible refine Same.chain ?_ (openCycle_same ..) ?_
    | with_reducible refine Same.chain ?_ (runCycle_same ..) ?_
    | with_reducible refine Same.chain ?_ (exchangeLanes_same ..) ?_
    | with_reducible refine Same.ite ?_ ?_
    | with_reducible refine Same.fold (fun t x => ?_) _ ?_
    | split

theorem forceSet_same (s : State) (o : Outstanding) (b : List Byte) (sig : Sig) : Same 0x1058900 s (State.forceSet s o b sig) := by
  unfold State.forceSet
  dsimp only
  refine Same.ite ((badPayload_same ..).mono rfl) (Same.ite (Same.ite ((answer_same ..).mono rfl) ?_) ?_)
  · refine withToken_same (fun v => ?_) (Same.refl ..) rfl
    refine Same.ite ((answer_same ..).mono rfl) (Same.ite ((answer_same ..).mono rfl) ?_)
    exact (file_same ..).mono rfl
  · exact Same.ite ((answer_same ..).mono rfl) ((file_same ..).mono rfl)

theorem formeLoad_same (s : State) (m : Image) (helfinor : Sig) (approval : Sig) (faults : List (LaneId × Bool)) : Same 0x40504 s (State.formeLoad s m helfinor approval faults) := by
  unfold State.formeLoad
  try dsimp only
  repeat' first
    | exact Same.refl ..
    | split
    | refine Same.chain ?_ (prepareFails_same ..) rfl
    | refine Same.chain ?_ (mapLanes_same ..) rfl
    | refine Same.fold (fun t x => ?_) _ ?_
    | fail_if_no_progress refine Same.chain (k' := 0x40504) ?_ (Same.upd _) rfl

theorem forward_same (s : State) (p : PortId) (f : Frame) : Same 0x20 s (State.forward s p f) := by
  unfold State.forward
  try dsimp only
  repeat' first
    | exact Same.refl ..
    | split
    | refine Same.chain ?_ (emit_same ..) rfl
    | refine Same.chain ?_ (setPort_same ..) rfl

theorem frequencyPulse_same (s : State) (ch : Nat) (p : FreqPulse) (miss : Nat) : Same 0x40010 s (State.frequencyPulse s ch p miss) := by
  unfold State.frequencyPulse
  try dsimp only
  repeat' first
    | exact Same.refl ..
    | split
    | refine Same.chain ?_ (updField_same ..) rfl
    | refine Same.chain ?_ (recordBatch_same ..) rfl

theorem fresh_same (s : State) : Same 0x80000 s (State.fresh s) := by
  unfold State.fresh
  try dsimp only
  repeat' first
    | exact Same.refl ..
    | split
    | refine Same.fold (fun t x => ?_) _ ?_
    | fail_if_no_progress refine Same.chain (k' := 0x80000) ?_ (Same.upd _) rfl

theorem emitOwn_same (s : State) (f : Frame) (devs : List (PortId × Int)) : Same 0x20 s (State.emitOwn s f devs) := by
  unfold State.emitOwn
  exact Same.fold (fun t p => Same.ite (setPort_same ..) (emit_same ..)) _ (Same.refl ..)

theorem guardianTrip_same (s : State) (p : PortId) : Same 0x40120 s (State.guardianTrip s p) := by
  unfold State.guardianTrip
  try dsimp only
  repeat' first
    | exact Same.refl ..
    | split
    | refine Same.chain ?_ (setPort_same ..) rfl
    | refine Same.chain ?_ (raise_same ..) rfl
    | refine Same.fold (fun t x => ?_) _ ?_
    | fail_if_no_progress refine Same.chain (k' := 0x40120) ?_ (Same.upd _) rfl

theorem holdupLow_same (s : State) (mv : Nat) : Same 0x40102 s (State.holdupLow s mv) := by
  unfold State.holdupLow
  try dsimp only
  repeat' first
    | exact Same.refl ..
    | split
    | refine Same.chain ?_ (raiseWith_same ..) rfl
    | refine Same.chain ?_ (updPower_same ..) rfl

theorem inLane_same (s : State) (l : LaneId) (op : Env → Ev → Ev) : Same 0x4 s (State.inLane s l op) := by
  unfold State.inLane
  try dsimp only
  repeat' first
    | exact Same.refl ..
    | split
    | refine Same.chain ?_ (updLane_same ..) rfl

theorem inLanes_same (s : State) (op : Env → Ev → Ev) : Same 0x4 s (State.inLanes s op) := by
  unfold State.inLanes
  try dsimp only
  repeat' first
    | exact Same.refl ..
    | split
    | refine Same.chain ?_ (mapLanes_same ..) rfl

theorem inaugurate_same (s : State) (o : Outstanding) : Same 0x40160 s (State.inaugurate s o) := by
  unfold State.inaugurate
  try dsimp only
  repeat' first
    | exact Same.refl ..
    | split
    | refine Same.chain ?_ (newAttempt_same ..) rfl
    | refine Same.chain ?_ (answer_same ..) rfl
    | refine Same.fold (fun t x => ?_) _ ?_
    | fail_if_no_progress refine Same.chain (k' := 0x40160) ?_ (Same.upd _) rfl

theorem takeCount_same (s : State) (f : Frame) : Same 0x20 s (State.takeCount s f) := by
  unfold State.takeCount
  try dsimp only
  repeat' first
    | exact Same.refl ..
    | split
    | refine Same.fold (fun t x => ?_) _ ?_
    | fail_if_no_progress refine Same.chain (k' := 0x20) ?_ (Same.upd _) rfl

theorem integrateOn_same (s : State) (f : Frame) : Same 0x20 s (State.integrateOn s f) := by
  unfold State.integrateOn
  try dsimp only
  repeat' first
    | exact Same.refl ..
    | split
    | refine Same.chain ?_ (takeCount_same ..) rfl
    | refine Same.fold (fun t x => ?_) _ ?_
    | fail_if_no_progress refine Same.chain (k' := 0x20) ?_ (Same.upd _) rfl

theorem isolate_same (s : State) (l : LaneId) (kind : Nat) : Same 0x6810c s (State.isolate s l kind) := by
  unfold State.isolate
  try dsimp only
  repeat' first
    | exact Same.refl ..
    | split
    | refine Same.chain ?_ (updLane_same ..) rfl
    | refine Same.chain ?_ (raise_same ..) rfl
    | refine Same.fold (fun t x => ?_) _ ?_
    | fail_if_no_progress refine Same.chain (k' := 0x6810c) ?_ (Same.upd _) rfl

theorem laneOp_same (s : State) (op : Env → Ev → Ev) : Same 0x4 s (State.laneOp s op) := by
  unfold State.laneOp
  try dsimp only
  repeat' first
    | exact Same.refl ..
    | split
    | refine Same.chain ?_ (inLanes_same ..) rfl

theorem lcsKeyWrite_same (s : State) (o : Outstanding) (t : List Byte) : Same 0x58100 s (State.lcsKeyWrite s o t) := by
  unfold State.lcsKeyWrite
  dsimp only
  refine Same.chain (Same.chain ?_ (recordBatch_same ..) rfl) (answer_same ..) rfl
  refine (writeLife_same ?_).mono rfl
  intro h
  show (Life.writeKey _ _ _).state = _
  unfold Life.writeKey
  dsimp only
  split <;> exact h

theorem retire_same (s : State) : Same 0x445bc s (State.retire s) := by
  unfold State.retire
  try dsimp only
  repeat' first
    | exact Same.refl ..
    | split
    | refine Same.chain ?_ (dropExchange_same ..) rfl
    | refine Same.chain ?_ (enterSafe_same ..) rfl
    | refine Same.fold (fun t x => ?_) _ ?_
    | fail_if_no_progress refine Same.chain (k' := 0x445bc) ?_ (Same.upd _) rfl

theorem transition_same {s : State} {to_ : LifeState} (ht : s.life.state ≠ .retired) : Same 0x7c5bc s (s.transition to_) := by
  unfold State.transition
  dsimp only
  refine Same.chain (k' := 0x7c5bc) (t := { s with proofs := s.proofs.leaveService }) (Same.upd _) ?_ rfl
  refine Same.chain ?_ (raiseWith_same ..) rfl
  split
  · next h =>
    refine Same.chain ((retire_same ..).mono rfl) (writeLife_same ?_) rfl
    subst h
    exact fun _ => rfl
  · exact Same.mono (k := 0x7c5bc) (writeLife_same (s := { s with proofs := s.proofs.leaveService }) (fun h => absurd h ht)) rfl

theorem lcsTransition_same (s : State) (o : Outstanding) (t : List Byte) : Same 0x7c5bc s (State.lcsTransition s o t) := by
  unfold State.lcsTransition
  dsimp only
  split
  · split
    · next x _ h =>
      refine Same.chain ((transition_same ?_).mono rfl) (answer_same ..) rfl
      intro hr
      simp [State.transitionOk, hr, LifeState.code] at h
      obtain ⟨⟨h1, h2⟩, _⟩ := h
      rw [h1] at h2
      simp [transitionSigner] at h2
    · exact (answer_same ..).mono rfl
  · exact (answer_same ..).mono rfl

theorem minislotStep_same (s : State) (heard : Option Nat) : Same 0x2020 s (State.minislotStep s heard) := by
  unfold State.minislotStep
  try dsimp only
  repeat' first
    | exact Same.refl ..
    | split
    | refine Same.fold (fun t x => ?_) _ ?_
    | fail_if_no_progress refine Same.chain (k' := 0x2020) ?_ (Same.upd _) rfl

theorem netClockBack_same (s : State) : Same 0x22 s (State.netClockBack s) := by
  unfold State.netClockBack
  try dsimp only
  repeat' first
    | exact Same.refl ..
    | split
    | refine Same.fold (fun t x => ?_) _ ?_
    | fail_if_no_progress refine Same.chain (k' := 0x22) ?_ (Same.upd _) rfl

theorem setCell_same (s : State) (c : ParamCell) : Same 0x200 s (State.setCell s c) := by
  unfold State.setCell
  try dsimp only
  repeat' first
    | exact Same.refl ..
    | split
    | refine Same.fold (fun t x => ?_) _ ?_
    | fail_if_no_progress refine Same.chain (k' := 0x200) ?_ (Same.upd _) rfl

theorem store_same (s : State) (id : Nat) (v : Nat) : Same 0x200 s (State.store s id v) := by
  unfold State.store
  try dsimp only
  repeat' first
    | exact Same.refl ..
    | split
    | refine Same.chain ?_ (setCell_same ..) rfl

theorem tryListen_same (s : State) : Same 0x20 s (State.tryListen s) := by
  unfold State.tryListen
  try dsimp only
  repeat' first
    | exact Same.refl ..
    | split
    | refine Same.fold (fun t x => ?_) _ ?_
    | fail_if_no_progress refine Same.chain (k' := 0x20) ?_ (Same.upd _) rfl

theorem startNet_same (s : State) : Same 0x40360 s (State.startNet s) := by
  unfold State.startNet
  try dsimp only
  repeat' first
    | exact Same.refl ..
    | split
    | refine Same.chain ?_ (tryListen_same ..) rfl
    | refine Same.chain ?_ (newAttempt_same ..) rfl
    | refine Same.chain ?_ (applyParams_same ..) rfl
    | refine Same.fold (fun t x => ?_) _ ?_
    | fail_if_no_progress refine Same.chain (k' := 0x40360) ?_ (Same.upd _) rfl

theorem netStart_same (s : State) (o : Outstanding) (profile : Nat) : Same 0x40360 s (State.netStart s o profile) := by
  unfold State.netStart
  try dsimp only
  repeat' first
    | exact Same.refl ..
    | split
    | refine Same.chain ?_ (startNet_same ..) rfl
    | refine Same.chain ?_ (store_same ..) rfl
    | refine Same.chain ?_ (answer_same ..) rfl

theorem nodeLost_same (s : State) (entry : Nat) (e : ImpEntry) : Same 0x40120 s (State.nodeLost s entry e) := by
  unfold State.nodeLost
  try dsimp only
  repeat' first
    | exact Same.refl ..
    | split
    | refine Same.chain ?_ (raise_same ..) rfl
    | refine Same.fold (fun t x => ?_) _ ?_
    | fail_if_no_progress refine Same.chain (k' := 0x40120) ?_ (Same.upd _) rfl

theorem notAdmitted_same (s : State) (id : Nat) : Same 0x40120 s (State.notAdmitted s id) := by
  unfold State.notAdmitted
  try dsimp only
  repeat' first
    | exact Same.refl ..
    | split
    | refine Same.chain ?_ (raiseWith_same ..) rfl
    | refine Same.fold (fun t x => ?_) _ ?_
    | fail_if_no_progress refine Same.chain (k' := 0x40120) ?_ (Same.upd _) rfl

theorem openSession_same {s : State} {o : Outstanding} {x : Session} (hx : x ∈ s.host.sessions) : Same 0x40100 s (s.openSession o x) := by
  have hl : (s.host.sessions.filter (fun y => y.num != x.num)).length + 1 ≤ s.host.sessions.length :=
    List.length_filter_lt_length_iff_exists.2 ⟨x, hx, by simp⟩
  unfold State.openSession
  dsimp only
  refine Same.chain (Same.chain ?_ (answer_same ..) rfl) (raise_same ..) rfl
  exact Same.upd _ (h_sessions := .inr (by simpa using hl)) (h_outstanding := .inr (by simp))

theorem overloadBank_same (s : State) (bank : Nat) : Same 0x40110 s (State.overloadBank s bank) := by
  unfold State.overloadBank
  try dsimp only
  repeat' first
    | exact Same.refl ..
    | split
    | refine Same.chain ?_ (updField_same ..) rfl
    | refine Same.chain ?_ (raiseWith_same ..) rfl

theorem overloadOutput_same (s : State) (vital : Bool) (ch : Nat) : Same 0x40110 s (State.overloadOutput s vital ch) := by
  unfold State.overloadOutput
  try dsimp only
  repeat' first
    | exact Same.refl ..
    | split
    | refine Same.chain ?_ (updField_same ..) rfl
    | refine Same.chain ?_ (raiseWith_same ..) rfl

theorem overrun_same (s : State) (late : List LaneId) : Same 0x40108 s (State.overrun s late) := by
  unfold State.overrun
  try dsimp only
  repeat' first
    | exact Same.refl ..
    | split
    | refine Same.chain ?_ (raiseWith_same ..) rfl
    | refine Same.fold (fun t x => ?_) _ ?_
    | fail_if_no_progress refine Same.chain (k' := 0x40108) ?_ (Same.upd _) rfl

theorem pathSlot_same (s : State) (bank : Nat) (path : Nat) (conducting : List Nat) : Same 0x40010 s (State.pathSlot s bank path conducting) := by
  unfold State.pathSlot
  try dsimp only
  repeat' first
    | exact Same.refl ..
    | split
    | refine Same.chain ?_ (updField_same ..) rfl
    | refine Same.chain ?_ (recordBatch_same ..) rfl

theorem peerReset_same (s : State) (ch : Nat) (peer : Nat) : Same 0x42100 s (State.peerReset s ch peer) := by
  unfold State.peerReset
  try dsimp only
  repeat' first
    | exact Same.refl ..
    | split
    | refine Same.chain ?_ (endTxn_same ..) rfl
    | refine Same.chain ?_ (updBridge_same ..) rfl
    | refine Same.chain ?_ (raise_same ..) rfl
    | refine Same.fold (fun t x => ?_) _ ?_

theorem pollReport_same (s : State) (o : Outstanding) (node : Nat) : Same 0x100 s (State.pollReport s o node) := by
  unfold State.pollReport
  try dsimp only
  repeat' first
    | exact Same.refl ..
    | split
    | refine Same.chain ?_ (answer_same ..) rfl

theorem pollStep_same (s : State) (slot : Nat) (node : Nat) (block : Option (List Byte)) : Same 0x42100 s (State.pollStep s slot node block) := by
  unfold State.pollStep
  try dsimp only
  repeat' first
    | exact Same.refl ..
    | split
    | refine Same.chain ?_ (updBridge_same ..) rfl
    | refine Same.chain ?_ (raise_same ..) rfl

theorem portSend_same (s : State) (x : PortOut) : Same 0x100 s (State.portSend s x) := by
  unfold State.portSend
  try dsimp only
  repeat' first
    | exact Same.refl ..
    | split
    | refine Same.fold (fun t x => ?_) _ ?_
    | fail_if_no_progress refine Same.chain (k' := 0x100) ?_ (Same.upd _) rfl

theorem powerFail_same (s : State) : Same 0x113e s (State.powerFail s) := by
  unfold State.powerFail
  try dsimp only
  repeat' first
    | exact Same.refl ..
    | split
    | refine Same.chain ?_ (updPower_same ..) rfl
    | refine Same.chain ?_ (diesReset_same ..) rfl

theorem powerUp_same (s : State) (f : StartFacts) : Same 0x67fffe s (State.powerUp s f) := by
  unfold State.powerUp
  try dsimp only
  repeat' first
    | exact Same.refl ..
    | split
    | refine Same.chain ?_ (start_same ..) rfl
    | refine Same.chain ?_ (updPower_same ..) rfl

theorem powerUpHeld_same (s : State) (f : StartFacts) : Same 0x2 s (State.powerUpHeld s f) := by
  unfold State.powerUpHeld
  try dsimp only
  repeat' first
    | exact Same.refl ..
    | split
    | refine Same.chain ?_ (updPower_same ..) rfl

theorem unsealFree_same (s : State) : Same 0x4 s (State.unsealFree s) := by
  unfold State.unsealFree
  repeat' first
    | exact Same.refl ..
    | split
    | exact mapLanes_same ..

theorem prepare_same (s : State) (o : Outstanding) (d : Digest) : Same 0x1000504 s (State.prepare s o d) := by
  unfold State.prepare
  dsimp only
  refine Same.ite ((answer_same ..).mono rfl) (Same.ite ((answer_same ..).mono rfl) (Same.ite ?_ ?_))
  · exact Same.chain (k' := 0x100) (Same.upd _) (answer_same ..) rfl
  · refine Same.chain ?_ (keep_same ..) rfl
    exact Same.chain (k' := 0x400) ((unsealFree_same s).mono rfl) (Same.upd _) rfl

theorem startProof_same (s : State) (b : Nat) : Same 0x60134 s (State.startProof s b) := by
  unfold State.startProof
  try dsimp only
  repeat' first
    | exact Same.refl ..
    | split
    | refine Same.chain ?_ (holdPort_same ..) rfl
    | refine Same.chain ?_ (barBank_same ..) rfl
    | refine Same.chain ?_ (raise_same ..) rfl
    | refine Same.fold (fun t x => ?_) _ ?_
    | fail_if_no_progress refine Same.chain (k' := 0x60134) ?_ (Same.upd _) rfl

theorem prfRun_same (s : State) (o : Outstanding) (b : Nat) : Same 0x60134 s (State.prfRun s o b) := by
  unfold State.prfRun
  try dsimp only
  repeat' first
    | exact Same.refl ..
    | split
    | refine Same.chain ?_ (startProof_same ..) rfl
    | refine Same.chain ?_ (answer_same ..) rfl
    | refine Same.fold (fun t x => ?_) _ ?_
    | fail_if_no_progress refine Same.chain (k' := 0x60134) ?_ (Same.upd _) rfl

theorem pulseOutput_same (s : State) (vo : Nat) (d : DarkSample) : Same 0x40010 s (State.pulseOutput s vo d) := by
  unfold State.pulseOutput
  try dsimp only
  repeat' first
    | exact Same.refl ..
    | split
    | refine Same.chain ?_ (updField_same ..) rfl
    | refine Same.chain ?_ (recordBatch_same ..) rfl

theorem takeQualMax_same (s : State) : Same 0x200 s (State.takeQualMax s) := by
  unfold State.takeQualMax
  exact applyParams_same ..

theorem qualify_same (s : State) (p : PortId) (q : QualResult) : Same 0x40320 s (State.qualify s p q) := by
  unfold State.qualify
  repeat' first
    | with_reducible assumption
    | with_reducible exact Same.refl ..
    | exact rfl
    | (intro hxs)
    | with_reducible refine Same.ite ?_ ?_
    | with_reducible refine Same.chain ?_ (notAdmitted_same ..) ?_
    | with_reducible refine Same.chain ?_ (tryListen_same ..) ?_
    | with_reducible refine Same.chain ?_ (setPort_same ..) ?_
    | with_reducible refine Same.chain ?_ (emit_same ..) ?_
    | with_reducible refine Same.chain ?_ (takeQualMax_same ..) ?_
    | with_reducible refine Same.chain ?_ (raise_same ..) ?_
    | with_reducible refine Same.chain ?_ (recordBatch_same ..) ?_

theorem recClear_same (s : State) (o : Outstanding) (t : List Byte) : Same 0x1040100 s (State.recClear s o t) := by
  unfold State.recClear
  dsimp only
  refine Same.ite (Same.chain ?_ (keep_same ..) rfl) (Same.chain ((answer_same ..).mono rfl) (raise_same ..) rfl)
  exact Same.upd _ (h_record := fun h => ⟨⟨h.items, fun c e => by cases e; exact Nat.le_succ _⟩, Nat.le_refl _⟩)

theorem receive_same (s : State) (p : PortId) (f : Frame) : Same 0x20 s (State.receive s p f) := by
  unfold State.receive
  try dsimp only
  repeat' first
    | exact Same.refl ..
    | split
    | refine Same.chain ?_ (takeCount_same ..) rfl
    | refine Same.chain ?_ (forward_same ..) rfl
    | refine Same.chain ?_ (setPort_same ..) rfl
    | refine Same.fold (fun t x => ?_) _ ?_
    | fail_if_no_progress refine Same.chain (k' := 0x20) ?_ (Same.upd _) rfl

theorem recordResult_same (s : State) (ring : Nat) (m : SweepMsg) : Same 0x40 s (State.recordResult s ring m) := by
  unfold State.recordResult
  try dsimp only
  repeat' first
    | exact Same.refl ..
    | split
    | refine Same.fold (fun t x => ?_) _ ?_
    | fail_if_no_progress refine Same.chain (k' := 0x40) ?_ (Same.upd _) rfl

theorem refuseColophon_same (s : State) (o : Outstanding) (p : Status × Nat) : Same 0x40100 s (State.refuseColophon s o p) := by
  unfold State.refuseColophon
  try dsimp only
  repeat' first
    | exact Same.refl ..
    | split
    | refine Same.chain ?_ (raiseWith_same ..) rfl
    | refine Same.chain ?_ (answer_same ..) rfl

theorem rejoin_same (s : State) (l : LaneId) : Same 0x6010c s (State.rejoin s l) := by
  unfold State.rejoin
  dsimp only
  split
  · split
    · refine Same.chain ?_ (raise_same ..) rfl
      refine Same.chain (k' := 0x6010c) ?_ (Same.upd _) rfl
      refine Same.chain ?_ (updLane_same ..) rfl
      exact Same.upd _
    · refine Same.chain ?_ (exclude_same ..) rfl
      exact Same.upd _
  · refine Same.chain ?_ (exclude_same ..) rfl
    exact Same.upd _

theorem rejoinStrobe_same (s : State) (l : LaneId) (x : Sample) : Same 0x60dfe s (State.rejoinStrobe s l x) := by
  unfold State.rejoinStrobe
  try dsimp only
  repeat' first
    | exact Same.refl ..
    | split
    | refine Same.chain ?_ (rejoin_same ..) rfl
    | refine Same.chain ?_ (openCycle_same ..) rfl
    | refine Same.chain ?_ (runCycle_same ..) rfl

theorem request_same (s : State) (o : Outstanding) (k : ReqKind) : Same 0x1040900 s (State.request s o k) := by
  unfold State.request
  try dsimp only
  repeat' first
    | exact Same.refl ..
    | split
    | refine Same.chain ?_ (noSlot_same ..) rfl
    | refine Same.chain ?_ (file_same ..) rfl
    | refine Same.chain ?_ (answer_same ..) rfl

theorem reservedAt_same (s : State) (off : Nat) (write : Bool) (wide : Bool) : Same 0x100 s (State.reservedAt s off write wide) := by
  unfold State.reservedAt
  try dsimp only
  repeat' first
    | exact Same.refl ..
    | split
    | refine Same.chain ?_ (abort_same ..) rfl

theorem sendSweep_same (s : State) (p : PortId) (code : Nat) (m : SweepMsg) : Same 0x60 s (State.sendSweep s p code m) := by
  unfold State.sendSweep
  refine Same.ite ?_ (Same.refl ..)
  exact Same.chain (k' := 0x40) ((emit_same ..).mono rfl) (Same.upd _) rfl

theorem settleLists_same (s : State) : Same 0x40160 s (State.settleLists s) := by
  unfold State.settleLists
  try dsimp only
  repeat' first
    | exact Same.refl ..
    | split
    | refine Same.chain ?_ (proposeLine_same ..) rfl

theorem resultIn_same (s : State) (p : PortId) (m : SweepMsg) : Same 0x40160 s (State.resultIn s p m) := by
  unfold State.resultIn
  try dsimp only
  repeat' first
    | exact Same.refl ..
    | split
    | refine Same.chain ?_ (settleLists_same ..) rfl
    | refine Same.chain ?_ (sendSweep_same ..) rfl
    | refine Same.chain ?_ (recordResult_same ..) rfl

theorem runKern_same (s : State) (missed : List PortId) : Same 0x40120 s (State.runKern s missed) := by
  unfold State.runKern
  split
  · exact Same.upd _
  · dsimp only
    refine Same.ite (Same.chain ?_ (raise_same ..) rfl) ?_
    · refine Same.chain (k' := 0x40120) ?_ (Same.upd _) rfl
      refine Same.chain ?_ (recordBatch_same ..) rfl
      exact Same.upd _
    · refine Same.chain ?_ (recordBatch_same ..) rfl
      exact Same.upd _

theorem sampleOutput_same (s : State) (vo : Nat) (d : DarkSample) : Same 0x10 s (State.sampleOutput s vo d) := by
  unfold State.sampleOutput
  try dsimp only
  repeat' first
    | exact Same.refl ..
    | split
    | refine Same.chain ?_ (updField_same ..) rfl

theorem scrubFault_same (s : State) (l : LaneId) (row : Nat) : Same 0x40804 s (State.scrubFault s l row) := by
  unfold State.scrubFault
  try dsimp only
  repeat' first
    | exact Same.refl ..
    | split
    | refine Same.chain ?_ (updLane_same ..) rfl
    | refine Same.chain ?_ (recordBatch_same ..) rfl
    | refine Same.fold (fun t x => ?_) _ ?_
    | fail_if_no_progress refine Same.chain (k' := 0x40804) ?_ (Same.upd _) rfl

theorem sealCheckpoint_same (s : State) (l : LaneId) : Same 0x4 s (State.sealCheckpoint s l) := by
  unfold State.sealCheckpoint
  try dsimp only
  repeat' first
    | exact Same.refl ..
    | split
    | refine Same.chain ?_ (updLane_same ..) rfl

theorem setSerial_same (s : State) (p : Nat) (x : Serial) : Same 0x2000 s (State.setSerial s p x) := by
  unfold State.setSerial
  try dsimp only
  repeat' first
    | exact Same.refl ..
    | split
    | refine Same.chain ?_ (updBridge_same ..) rfl

theorem sendTelegram_same (s : State) (p : Nat) (t : Telegram) : Same 0x2000 s (State.sendTelegram s p t) := by
  unfold State.sendTelegram
  try dsimp only
  repeat' first
    | exact Same.refl ..
    | split
    | refine Same.chain ?_ (setSerial_same ..) rfl
    | refine Same.chain ?_ (updBridge_same ..) rfl

theorem telegramOut_same (s : State) (p : Nat) (t : Telegram) : Same 0x42100 s (State.telegramOut s p t) := by
  unfold State.telegramOut
  exact Same.ite ((raise_same ..).mono rfl) ((sendTelegram_same ..).mono rfl)

theorem segmentIn_same (s : State) (g : Segment) : Same 0x42100 s (State.segmentIn s g) := by
  unfold State.segmentIn
  try dsimp only
  repeat' first
    | exact Same.refl ..
    | split
    | refine Same.chain ?_ (telegramOut_same ..) rfl
    | refine Same.chain ?_ (ethernetSegment_same ..) rfl
    | refine Same.chain ?_ (endWrite_same ..) rfl
    | refine Same.chain ?_ (endRead_same ..) rfl
    | refine Same.chain ?_ (updBridge_same ..) rfl

theorem sessionOpen_same (s : State) (o : Outstanding) (e : Entry) : Same 0x840300 s (State.sessionOpen s o e) := by
  unfold State.sessionOpen
  try dsimp only
  repeat' first
    | exact Same.refl ..
    | split
    | refine Same.chain ?_ (authFail_same ..) rfl
    | refine Same.chain ?_ (applyParams_same ..) rfl
    | refine Same.chain ?_ (answer_same ..) rfl
    | refine Same.fold (fun t x => ?_) _ ?_
    | fail_if_no_progress refine Same.chain (k' := 0x840300) ?_ (Same.upd _) rfl

theorem sessionProve_same (s : State) (o : Outstanding) (e : Entry) (sig : Sig) : Same 0x41100 s (State.sessionProve s o e sig) := by
  unfold State.sessionProve
  split
  · exact (authFail_same ..).mono rfl
  · next x e =>
    refine Same.ite ((openSession_same (List.mem_of_find?_eq_some e)).mono rfl) (Same.chain ?_ (authFail_same ..) rfl)
    exact (closeSession_same ..).mono rfl

theorem stewardServes_same (s : State) : Same 0x40100 s (State.stewardServes s) := by
  unfold State.stewardServes
  try dsimp only
  repeat' first
    | exact Same.refl ..
    | split
    | refine Same.chain ?_ (resumeClear_same ..) rfl
    | refine Same.chain ?_ (raiseNow_same ..) rfl
    | refine Same.fold (fun t x => ?_) _ ?_
    | fail_if_no_progress refine Same.chain (k' := 0x40100) ?_ (Same.upd _) rfl

theorem stopBridge_same (s : State) : Same 0x42100 s (State.stopBridge s) := by
  unfold State.stopBridge
  try dsimp only
  repeat' first
    | exact Same.refl ..
    | split
    | refine Same.chain ?_ (endTxn_same ..) rfl
    | refine Same.chain ?_ (updBridge_same ..) rfl
    | refine Same.fold (fun t x => ?_) _ ?_

theorem stopNet_same (s : State) : Same 0x20 s (State.stopNet s) := by
  unfold State.stopNet
  try dsimp only
  repeat' first
    | exact Same.refl ..
    | split
    | refine Same.fold (fun t x => ?_) _ ?_
    | fail_if_no_progress refine Same.chain (k' := 0x20) ?_ (Same.upd _) rfl

theorem strobe_same (s : State) (x : Sample) : Same 0x60dfe s (State.strobe s x) := by
  unfold State.strobe
  refine Same.ite ((exchangeStrobe_same ..).mono rfl) ?_
  split
  · exact (rejoinStrobe_same ..).mono rfl
  · split
    · exact Same.chain ((openCycle_same ..).mono rfl) (runCycle_same ..) rfl
    · exact Same.refl ..

theorem supplyChange_same (s : State) (bank : Nat) (mv : Nat) (out : Bool) : Same 0x40110 s (State.supplyChange s bank mv out) := by
  unfold State.supplyChange
  try dsimp only
  repeat' first
    | exact Same.refl ..
    | split
    | refine Same.chain ?_ (updField_same ..) rfl
    | refine Same.chain ?_ (raiseWith_same ..) rfl

theorem sweepIn_same (s : State) (p : PortId) (m : SweepMsg) : Same 0x40160 s (State.sweepIn s p m) := by
  unfold State.sweepIn
  try dsimp only
  repeat' first
    | exact Same.refl ..
    | split
    | refine Same.chain ?_ (settleLists_same ..) rfl
    | refine Same.chain ?_ (sendSweep_same ..) rfl
    | refine Same.chain ?_ (recordResult_same ..) rfl

theorem switchBack_same (s : State) (o : Outstanding) (t : List Byte) : Same 0x40180 s (State.switchBack s o t) := by
  unfold State.switchBack
  try dsimp only
  repeat' first
    | exact Same.refl ..
    | split
    | refine Same.chain ?_ (recordBatch_same ..) rfl
    | refine Same.chain ?_ (answer_same ..) rfl
    | refine Same.fold (fun t x => ?_) _ ?_
    | fail_if_no_progress refine Same.chain (k' := 0x40180) ?_ (Same.upd _) rfl

theorem sysRestart_same (s : State) (o : Outstanding) (e : Entry) (f : StartFacts) : Same 0x67fffe s (State.sysRestart s o e f) := by
  unfold State.sysRestart
  try dsimp only
  repeat' first
    | exact Same.refl ..
    | split
    | refine Same.chain ?_ (start_same ..) rfl
    | refine Same.chain ?_ (stopVital_same ..) rfl
    | refine Same.chain ?_ (answer_same ..) rfl
    | refine Same.fold (fun t x => ?_) _ ?_
    | fail_if_no_progress refine Same.chain (k' := 0x67fffe) ?_ (Same.upd _) rfl

theorem takeTunnel_same (s : State) (ch : Nat) : Same 0x2100 s (State.takeTunnel s ch) := by
  unfold State.takeTunnel
  try dsimp only
  repeat' first
    | exact Same.refl ..
    | split
    | refine Same.chain ?_ (updBridge_same ..) rfl
    | refine Same.chain ?_ (updQueue_same ..) rfl

theorem telegramDone_same (s : State) (p : Nat) : Same 0x2000 s (State.telegramDone s p) := by
  unfold State.telegramDone
  try dsimp only
  repeat' first
    | exact Same.refl ..
    | split
    | refine Same.chain ?_ (setSerial_same ..) rfl

theorem telegramOn_same (s : State) (p : Nat) (t : Telegram) : Same 0x42100 s (State.telegramOn s p t) := by
  unfold State.telegramOn
  try dsimp only
  repeat' first
    | exact Same.refl ..
    | split
    | refine Same.chain ?_ (deliverEntry_same ..) rfl
    | refine Same.chain ?_ (updBridge_same ..) rfl
    | refine Same.chain ?_ (raise_same ..) rfl

theorem transmitStatic_same (s : State) (f : Forme) (entry : Nat) (r : ImpEntry) (devs : List (PortId × Int)) :
    Same 0x20 s (State.transmitStatic s f entry r devs) := emitOwn_same ..

theorem tunnelAccept_same (s : State) (ch : Nat) (e : TunnelEntry) : Same 0x42100 s (State.tunnelAccept s ch e) := by
  unfold State.tunnelAccept
  try dsimp only
  repeat' first
    | exact Same.refl ..
    | split
    | refine Same.chain ?_ (sendTelegram_same ..) rfl
    | refine Same.chain ?_ (deliverEntry_same ..) rfl
    | refine Same.chain ?_ (recordBatch_same ..) rfl
    | refine Same.fold (fun t x => ?_) _ ?_
    | fail_if_no_progress refine Same.chain (k' := 0x42100) ?_ (Same.upd _) rfl

theorem tunnelIn_same (s : State) (ch : Nat) (e : TunnelEntry) : Same 0x42100 s (State.tunnelIn s ch e) := by
  unfold State.tunnelIn
  try dsimp only
  repeat' first
    | exact Same.refl ..
    | split
    | refine Same.chain ?_ (tunnelAccept_same ..) rfl
    | refine Same.chain ?_ (takeTunnel_same ..) rfl
    | refine Same.chain ?_ (raise_same ..) rfl
    | refine Same.chain ?_ (stallQueue_same ..) rfl

theorem unknownCommand_same (s : State) (op : Nat) (e : Entry) : Same 0x40100 s (State.unknownCommand s op e) := by
  unfold State.unknownCommand
  try dsimp only
  repeat' first
    | exact Same.refl ..
    | split
    | refine Same.chain ?_ (dequeue_same ..) rfl
    | refine Same.chain ?_ (stall_same ..) rfl
    | refine Same.chain ?_ (answerUnknown_same ..) rfl
    | refine Same.chain ?_ (recordBatch_same ..) rfl
    | refine Same.chain ?_ (answer_same ..) rfl

theorem verified_same (s : State) (q : UpdSession) (digest : Digest) (reads : List (Nat × List Byte)) (badTag : Option Nat) : Same 0x44100 s (State.verified s q digest reads badTag) := by
  unfold State.verified
  try dsimp only
  repeat' first
    | exact Same.refl ..
    | split
    | refine Same.chain ?_ (raise_same ..) rfl
    | refine Same.fold (fun t x => ?_) _ ?_
    | fail_if_no_progress refine Same.chain (k' := 0x44100) ?_ (Same.upd _) rfl

theorem withSession_same {k : Nat} {s u : State} {o : Outstanding} {states : List Nat} {run : UpdSession → State → State} (hr : ∀ q v, Same k v (run q v)) (h : Same k s u) (e : 0x100 ||| k = k) : Same k s (u.withSession o states run) := by
  unfold State.withSession
  split
  · exact h.chain (answer_same ..) (by rw [← e, ← Nat.or_assoc]; rfl)
  · split
    · exact h.chain (answer_same ..) (by rw [← e, ← Nat.or_assoc]; rfl)
    · split
      · exact h.chain (answer_same ..) (by rw [← e, ← Nat.or_assoc]; rfl)
      · exact h.chain (hr _ _) (Nat.or_self k)

theorem writeRegister_same (s : State) (off : Nat) (v : Word32) (enables : Nat) (high : Option Word32) : Same 0x47d00 s (State.writeRegister s off v enables high) := by
  unfold State.writeRegister
  try dsimp only
  repeat' first
    | exact Same.refl ..
    | split
    | refine Same.chain ?_ (applyRegister_same ..) rfl
    | refine Same.chain ?_ (abort_same ..) rfl

end Sys2Proof.Laws
end

