-- ==== Sys2Proof/Laws/State.lean ====
section
/-! SUPPORT. The parts of a state that a shared operation leaves as they are: one lemma for each operation and part. -/

set_option Elab.async false

namespace Sys2Proof.Laws

open Sys2Proof Sys2Proof.Machine

@[simp] theorem dequeue_ident (s : State) (e : Entry) : (State.dequeue s e).ident = s.ident := (dequeue_same ..).ident
@[simp] theorem dequeue_power (s : State) (e : Entry) : (State.dequeue s e).power = s.power := (dequeue_same ..).power rfl
@[simp] theorem dequeue_lanes (s : State) (e : Entry) : (State.dequeue s e).lanes = s.lanes := (dequeue_same ..).lanes rfl
@[simp] theorem dequeue_platen (s : State) (e : Entry) : (State.dequeue s e).platen = s.platen := (dequeue_same ..).platen rfl
@[simp] theorem dequeue_field (s : State) (e : Entry) : (State.dequeue s e).field = s.field := (dequeue_same ..).field rfl
@[simp] theorem dequeue_net (s : State) (e : Entry) : (State.dequeue s e).net = s.net := (dequeue_same ..).net rfl
@[simp] theorem dequeue_train (s : State) (e : Entry) : (State.dequeue s e).train = s.train := (dequeue_same ..).train rfl
@[simp] theorem dequeue_duplex (s : State) (e : Entry) : (State.dequeue s e).duplex = s.duplex := (dequeue_same ..).duplex rfl
@[simp] theorem dequeue_params (s : State) (e : Entry) : (State.dequeue s e).params = s.params := (dequeue_same ..).params rfl
@[simp] theorem dequeue_xchg (s : State) (e : Entry) : (State.dequeue s e).xchg = s.xchg := (dequeue_same ..).xchg rfl
@[simp] theorem dequeue_req (s : State) (e : Entry) : (State.dequeue s e).req = s.req := (dequeue_same ..).req rfl
@[simp] theorem dequeue_crc (s : State) (e : Entry) : (State.dequeue s e).crc = s.crc := (dequeue_same ..).crc rfl
@[simp] theorem dequeue_bridge (s : State) (e : Entry) : (State.dequeue s e).bridge = s.bridge := (dequeue_same ..).bridge rfl
@[simp] theorem dequeue_update (s : State) (e : Entry) : (State.dequeue s e).update = s.update := (dequeue_same ..).update rfl
@[simp] theorem dequeue_life (s : State) (e : Entry) : (State.dequeue s e).life = s.life := (dequeue_same ..).life rfl
@[simp] theorem dequeue_lifeOlder (s : State) (e : Entry) : (State.dequeue s e).lifeOlder = s.lifeOlder := (dequeue_same ..).lifeOlder rfl
@[simp] theorem dequeue_proofs (s : State) (e : Entry) : (State.dequeue s e).proofs = s.proofs := (dequeue_same ..).proofs rfl
@[simp] theorem dequeue_recorder (s : State) (e : Entry) : (State.dequeue s e).recorder = s.recorder := (dequeue_same ..).recorder rfl
@[simp] theorem dequeue_free (s : State) (e : Entry) : (State.dequeue s e).free = s.free := (dequeue_same ..).free rfl
@[simp] theorem dequeue_pending (s : State) (e : Entry) : (State.dequeue s e).pending = s.pending := (dequeue_same ..).pending

@[simp] theorem answer_ident (s : State) (o : Outstanding) (status : Status) (detail : Nat) (payload : List Byte) : (State.answer s o status detail payload).ident = s.ident := (answer_same ..).ident
@[simp] theorem answer_power (s : State) (o : Outstanding) (status : Status) (detail : Nat) (payload : List Byte) : (State.answer s o status detail payload).power = s.power := (answer_same ..).power rfl
@[simp] theorem answer_lanes (s : State) (o : Outstanding) (status : Status) (detail : Nat) (payload : List Byte) : (State.answer s o status detail payload).lanes = s.lanes := (answer_same ..).lanes rfl
@[simp] theorem answer_platen (s : State) (o : Outstanding) (status : Status) (detail : Nat) (payload : List Byte) : (State.answer s o status detail payload).platen = s.platen := (answer_same ..).platen rfl
@[simp] theorem answer_field (s : State) (o : Outstanding) (status : Status) (detail : Nat) (payload : List Byte) : (State.answer s o status detail payload).field = s.field := (answer_same ..).field rfl
@[simp] theorem answer_net (s : State) (o : Outstanding) (status : Status) (detail : Nat) (payload : List Byte) : (State.answer s o status detail payload).net = s.net := (answer_same ..).net rfl
@[simp] theorem answer_train (s : State) (o : Outstanding) (status : Status) (detail : Nat) (payload : List Byte) : (State.answer s o status detail payload).train = s.train := (answer_same ..).train rfl
@[simp] theorem answer_duplex (s : State) (o : Outstanding) (status : Status) (detail : Nat) (payload : List Byte) : (State.answer s o status detail payload).duplex = s.duplex := (answer_same ..).duplex rfl
@[simp] theorem answer_params (s : State) (o : Outstanding) (status : Status) (detail : Nat) (payload : List Byte) : (State.answer s o status detail payload).params = s.params := (answer_same ..).params rfl
@[simp] theorem answer_xchg (s : State) (o : Outstanding) (status : Status) (detail : Nat) (payload : List Byte) : (State.answer s o status detail payload).xchg = s.xchg := (answer_same ..).xchg rfl
@[simp] theorem answer_req (s : State) (o : Outstanding) (status : Status) (detail : Nat) (payload : List Byte) : (State.answer s o status detail payload).req = s.req := (answer_same ..).req rfl
@[simp] theorem answer_crc (s : State) (o : Outstanding) (status : Status) (detail : Nat) (payload : List Byte) : (State.answer s o status detail payload).crc = s.crc := (answer_same ..).crc rfl
@[simp] theorem answer_bridge (s : State) (o : Outstanding) (status : Status) (detail : Nat) (payload : List Byte) : (State.answer s o status detail payload).bridge = s.bridge := (answer_same ..).bridge rfl
@[simp] theorem answer_update (s : State) (o : Outstanding) (status : Status) (detail : Nat) (payload : List Byte) : (State.answer s o status detail payload).update = s.update := (answer_same ..).update rfl
@[simp] theorem answer_life (s : State) (o : Outstanding) (status : Status) (detail : Nat) (payload : List Byte) : (State.answer s o status detail payload).life = s.life := (answer_same ..).life rfl
@[simp] theorem answer_lifeOlder (s : State) (o : Outstanding) (status : Status) (detail : Nat) (payload : List Byte) : (State.answer s o status detail payload).lifeOlder = s.lifeOlder := (answer_same ..).lifeOlder rfl
@[simp] theorem answer_proofs (s : State) (o : Outstanding) (status : Status) (detail : Nat) (payload : List Byte) : (State.answer s o status detail payload).proofs = s.proofs := (answer_same ..).proofs rfl
@[simp] theorem answer_recorder (s : State) (o : Outstanding) (status : Status) (detail : Nat) (payload : List Byte) : (State.answer s o status detail payload).recorder = s.recorder := (answer_same ..).recorder rfl
@[simp] theorem answer_free (s : State) (o : Outstanding) (status : Status) (detail : Nat) (payload : List Byte) : (State.answer s o status detail payload).free = s.free := (answer_same ..).free rfl
@[simp] theorem answer_pending (s : State) (o : Outstanding) (status : Status) (detail : Nat) (payload : List Byte) : (State.answer s o status detail payload).pending = s.pending := (answer_same ..).pending

@[simp] theorem answerOut_ident (s : State) (o : Outstanding) (status : Status) (detail : Nat) (payload : List Byte) : (State.answerOut s o status detail payload).ident = s.ident := (answerOut_same ..).ident
@[simp] theorem answerOut_power (s : State) (o : Outstanding) (status : Status) (detail : Nat) (payload : List Byte) : (State.answerOut s o status detail payload).power = s.power := (answerOut_same ..).power rfl
@[simp] theorem answerOut_lanes (s : State) (o : Outstanding) (status : Status) (detail : Nat) (payload : List Byte) : (State.answerOut s o status detail payload).lanes = s.lanes := (answerOut_same ..).lanes rfl
@[simp] theorem answerOut_platen (s : State) (o : Outstanding) (status : Status) (detail : Nat) (payload : List Byte) : (State.answerOut s o status detail payload).platen = s.platen := (answerOut_same ..).platen rfl
@[simp] theorem answerOut_field (s : State) (o : Outstanding) (status : Status) (detail : Nat) (payload : List Byte) : (State.answerOut s o status detail payload).field = s.field := (answerOut_same ..).field rfl
@[simp] theorem answerOut_net (s : State) (o : Outstanding) (status : Status) (detail : Nat) (payload : List Byte) : (State.answerOut s o status detail payload).net = s.net := (answerOut_same ..).net rfl
@[simp] theorem answerOut_train (s : State) (o : Outstanding) (status : Status) (detail : Nat) (payload : List Byte) : (State.answerOut s o status detail payload).train = s.train := (answerOut_same ..).train rfl
@[simp] theorem answerOut_duplex (s : State) (o : Outstanding) (status : Status) (detail : Nat) (payload : List Byte) : (State.answerOut s o status detail payload).duplex = s.duplex := (answerOut_same ..).duplex rfl
@[simp] theorem answerOut_params (s : State) (o : Outstanding) (status : Status) (detail : Nat) (payload : List Byte) : (State.answerOut s o status detail payload).params = s.params := (answerOut_same ..).params rfl
@[simp] theorem answerOut_xchg (s : State) (o : Outstanding) (status : Status) (detail : Nat) (payload : List Byte) : (State.answerOut s o status detail payload).xchg = s.xchg := (answerOut_same ..).xchg rfl
@[simp] theorem answerOut_req (s : State) (o : Outstanding) (status : Status) (detail : Nat) (payload : List Byte) : (State.answerOut s o status detail payload).req = s.req := (answerOut_same ..).req rfl
@[simp] theorem answerOut_crc (s : State) (o : Outstanding) (status : Status) (detail : Nat) (payload : List Byte) : (State.answerOut s o status detail payload).crc = s.crc := (answerOut_same ..).crc rfl
@[simp] theorem answerOut_bridge (s : State) (o : Outstanding) (status : Status) (detail : Nat) (payload : List Byte) : (State.answerOut s o status detail payload).bridge = s.bridge := (answerOut_same ..).bridge rfl
@[simp] theorem answerOut_update (s : State) (o : Outstanding) (status : Status) (detail : Nat) (payload : List Byte) : (State.answerOut s o status detail payload).update = s.update := (answerOut_same ..).update rfl
@[simp] theorem answerOut_life (s : State) (o : Outstanding) (status : Status) (detail : Nat) (payload : List Byte) : (State.answerOut s o status detail payload).life = s.life := (answerOut_same ..).life rfl
@[simp] theorem answerOut_lifeOlder (s : State) (o : Outstanding) (status : Status) (detail : Nat) (payload : List Byte) : (State.answerOut s o status detail payload).lifeOlder = s.lifeOlder := (answerOut_same ..).lifeOlder rfl
@[simp] theorem answerOut_proofs (s : State) (o : Outstanding) (status : Status) (detail : Nat) (payload : List Byte) : (State.answerOut s o status detail payload).proofs = s.proofs := (answerOut_same ..).proofs rfl
@[simp] theorem answerOut_recorder (s : State) (o : Outstanding) (status : Status) (detail : Nat) (payload : List Byte) : (State.answerOut s o status detail payload).recorder = s.recorder := (answerOut_same ..).recorder rfl
@[simp] theorem answerOut_free (s : State) (o : Outstanding) (status : Status) (detail : Nat) (payload : List Byte) : (State.answerOut s o status detail payload).free = s.free := (answerOut_same ..).free rfl
@[simp] theorem answerOut_pending (s : State) (o : Outstanding) (status : Status) (detail : Nat) (payload : List Byte) : (State.answerOut s o status detail payload).pending = s.pending := (answerOut_same ..).pending

@[simp] theorem recordBatch_ident (s : State) (l : List RecUpd) : (State.recordBatch s l).ident = s.ident := (recordBatch_same ..).ident
@[simp] theorem recordBatch_power (s : State) (l : List RecUpd) : (State.recordBatch s l).power = s.power := (recordBatch_same ..).power rfl
@[simp] theorem recordBatch_lanes (s : State) (l : List RecUpd) : (State.recordBatch s l).lanes = s.lanes := (recordBatch_same ..).lanes rfl
@[simp] theorem recordBatch_platen (s : State) (l : List RecUpd) : (State.recordBatch s l).platen = s.platen := (recordBatch_same ..).platen rfl
@[simp] theorem recordBatch_field (s : State) (l : List RecUpd) : (State.recordBatch s l).field = s.field := (recordBatch_same ..).field rfl
@[simp] theorem recordBatch_net (s : State) (l : List RecUpd) : (State.recordBatch s l).net = s.net := (recordBatch_same ..).net rfl
@[simp] theorem recordBatch_train (s : State) (l : List RecUpd) : (State.recordBatch s l).train = s.train := (recordBatch_same ..).train rfl
@[simp] theorem recordBatch_duplex (s : State) (l : List RecUpd) : (State.recordBatch s l).duplex = s.duplex := (recordBatch_same ..).duplex rfl
@[simp] theorem recordRaise_host (s : State) (num : Nat) (l : List RecUpd) : (State.recordRaise s num l).host = s.host := (recordRaise_same ..).host rfl
@[simp] theorem recordBatch_host (s : State) (l : List RecUpd) : (State.recordBatch s l).host = s.host := (recordBatch_same ..).host rfl
@[simp] theorem recordBatch_params (s : State) (l : List RecUpd) : (State.recordBatch s l).params = s.params := (recordBatch_same ..).params rfl
@[simp] theorem recordBatch_xchg (s : State) (l : List RecUpd) : (State.recordBatch s l).xchg = s.xchg := (recordBatch_same ..).xchg rfl
@[simp] theorem recordBatch_req (s : State) (l : List RecUpd) : (State.recordBatch s l).req = s.req := (recordBatch_same ..).req rfl
@[simp] theorem recordBatch_crc (s : State) (l : List RecUpd) : (State.recordBatch s l).crc = s.crc := (recordBatch_same ..).crc rfl
@[simp] theorem recordBatch_bridge (s : State) (l : List RecUpd) : (State.recordBatch s l).bridge = s.bridge := (recordBatch_same ..).bridge rfl
@[simp] theorem recordBatch_update (s : State) (l : List RecUpd) : (State.recordBatch s l).update = s.update := (recordBatch_same ..).update rfl
@[simp] theorem recordBatch_life (s : State) (l : List RecUpd) : (State.recordBatch s l).life = s.life := (recordBatch_same ..).life rfl
@[simp] theorem recordBatch_lifeOlder (s : State) (l : List RecUpd) : (State.recordBatch s l).lifeOlder = s.lifeOlder := (recordBatch_same ..).lifeOlder rfl
@[simp] theorem recordBatch_proofs (s : State) (l : List RecUpd) : (State.recordBatch s l).proofs = s.proofs := (recordBatch_same ..).proofs rfl
@[simp] theorem recordBatch_free (s : State) (l : List RecUpd) : (State.recordBatch s l).free = s.free := (recordBatch_same ..).free rfl
@[simp] theorem recordBatch_pending (s : State) (l : List RecUpd) : (State.recordBatch s l).pending = s.pending := (recordBatch_same ..).pending

@[simp] theorem post_ident (s : State) (r : Raise) : (State.post s r).ident = s.ident := (post_same ..).ident
@[simp] theorem post_power (s : State) (r : Raise) : (State.post s r).power = s.power := (post_same ..).power rfl
@[simp] theorem post_lanes (s : State) (r : Raise) : (State.post s r).lanes = s.lanes := (post_same ..).lanes rfl
@[simp] theorem post_platen (s : State) (r : Raise) : (State.post s r).platen = s.platen := (post_same ..).platen rfl
@[simp] theorem post_field (s : State) (r : Raise) : (State.post s r).field = s.field := (post_same ..).field rfl
@[simp] theorem post_net (s : State) (r : Raise) : (State.post s r).net = s.net := (post_same ..).net rfl
@[simp] theorem post_train (s : State) (r : Raise) : (State.post s r).train = s.train := (post_same ..).train rfl
@[simp] theorem post_duplex (s : State) (r : Raise) : (State.post s r).duplex = s.duplex := (post_same ..).duplex rfl
@[simp] theorem post_params (s : State) (r : Raise) : (State.post s r).params = s.params := (post_same ..).params rfl
@[simp] theorem post_xchg (s : State) (r : Raise) : (State.post s r).xchg = s.xchg := (post_same ..).xchg rfl
@[simp] theorem post_req (s : State) (r : Raise) : (State.post s r).req = s.req := (post_same ..).req rfl
@[simp] theorem post_crc (s : State) (r : Raise) : (State.post s r).crc = s.crc := (post_same ..).crc rfl
@[simp] theorem post_bridge (s : State) (r : Raise) : (State.post s r).bridge = s.bridge := (post_same ..).bridge rfl
@[simp] theorem post_update (s : State) (r : Raise) : (State.post s r).update = s.update := (post_same ..).update rfl
@[simp] theorem post_life (s : State) (r : Raise) : (State.post s r).life = s.life := (post_same ..).life rfl
@[simp] theorem post_lifeOlder (s : State) (r : Raise) : (State.post s r).lifeOlder = s.lifeOlder := (post_same ..).lifeOlder rfl
@[simp] theorem post_proofs (s : State) (r : Raise) : (State.post s r).proofs = s.proofs := (post_same ..).proofs rfl
@[simp] theorem post_recorder (s : State) (r : Raise) : (State.post s r).recorder = s.recorder := (post_same ..).recorder rfl
@[simp] theorem post_free (s : State) (r : Raise) : (State.post s r).free = s.free := (post_same ..).free rfl
@[simp] theorem post_pending (s : State) (r : Raise) : (State.post s r).pending = s.pending := (post_same ..).pending

@[simp] theorem raise_ident (s : State) (num : Nat) (payload : List Byte) : (State.raise s num payload).ident = s.ident := (raise_same ..).ident
@[simp] theorem raise_power (s : State) (num : Nat) (payload : List Byte) : (State.raise s num payload).power = s.power := (raise_same ..).power rfl
@[simp] theorem raise_lanes (s : State) (num : Nat) (payload : List Byte) : (State.raise s num payload).lanes = s.lanes := (raise_same ..).lanes rfl
@[simp] theorem raise_platen (s : State) (num : Nat) (payload : List Byte) : (State.raise s num payload).platen = s.platen := (raise_same ..).platen rfl
@[simp] theorem raise_field (s : State) (num : Nat) (payload : List Byte) : (State.raise s num payload).field = s.field := (raise_same ..).field rfl
@[simp] theorem raise_net (s : State) (num : Nat) (payload : List Byte) : (State.raise s num payload).net = s.net := (raise_same ..).net rfl
@[simp] theorem raise_train (s : State) (num : Nat) (payload : List Byte) : (State.raise s num payload).train = s.train := (raise_same ..).train rfl
@[simp] theorem raise_duplex (s : State) (num : Nat) (payload : List Byte) : (State.raise s num payload).duplex = s.duplex := (raise_same ..).duplex rfl
@[simp] theorem raise_params (s : State) (num : Nat) (payload : List Byte) : (State.raise s num payload).params = s.params := (raise_same ..).params rfl
@[simp] theorem raise_xchg (s : State) (num : Nat) (payload : List Byte) : (State.raise s num payload).xchg = s.xchg := (raise_same ..).xchg rfl
@[simp] theorem raise_req (s : State) (num : Nat) (payload : List Byte) : (State.raise s num payload).req = s.req := (raise_same ..).req rfl
@[simp] theorem raise_crc (s : State) (num : Nat) (payload : List Byte) : (State.raise s num payload).crc = s.crc := (raise_same ..).crc rfl
@[simp] theorem raise_bridge (s : State) (num : Nat) (payload : List Byte) : (State.raise s num payload).bridge = s.bridge := (raise_same ..).bridge rfl
@[simp] theorem raise_update (s : State) (num : Nat) (payload : List Byte) : (State.raise s num payload).update = s.update := (raise_same ..).update rfl
@[simp] theorem raise_life (s : State) (num : Nat) (payload : List Byte) : (State.raise s num payload).life = s.life := (raise_same ..).life rfl
@[simp] theorem raise_lifeOlder (s : State) (num : Nat) (payload : List Byte) : (State.raise s num payload).lifeOlder = s.lifeOlder := (raise_same ..).lifeOlder rfl
@[simp] theorem raise_proofs (s : State) (num : Nat) (payload : List Byte) : (State.raise s num payload).proofs = s.proofs := (raise_same ..).proofs rfl
@[simp] theorem raise_free (s : State) (num : Nat) (payload : List Byte) : (State.raise s num payload).free = s.free := (raise_same ..).free rfl
@[simp] theorem raise_pending (s : State) (num : Nat) (payload : List Byte) : (State.raise s num payload).pending = s.pending := (raise_same ..).pending

@[simp] theorem raiseWith_ident (s : State) (num : Nat) (payload : List Byte) (recs : List RecUpd) : (State.raiseWith s num payload recs).ident = s.ident := (raiseWith_same ..).ident
@[simp] theorem raiseWith_power (s : State) (num : Nat) (payload : List Byte) (recs : List RecUpd) : (State.raiseWith s num payload recs).power = s.power := (raiseWith_same ..).power rfl
@[simp] theorem raiseWith_lanes (s : State) (num : Nat) (payload : List Byte) (recs : List RecUpd) : (State.raiseWith s num payload recs).lanes = s.lanes := (raiseWith_same ..).lanes rfl
@[simp] theorem raiseWith_platen (s : State) (num : Nat) (payload : List Byte) (recs : List RecUpd) : (State.raiseWith s num payload recs).platen = s.platen := (raiseWith_same ..).platen rfl
@[simp] theorem raiseWith_field (s : State) (num : Nat) (payload : List Byte) (recs : List RecUpd) : (State.raiseWith s num payload recs).field = s.field := (raiseWith_same ..).field rfl
@[simp] theorem raiseWith_net (s : State) (num : Nat) (payload : List Byte) (recs : List RecUpd) : (State.raiseWith s num payload recs).net = s.net := (raiseWith_same ..).net rfl
@[simp] theorem raiseWith_train (s : State) (num : Nat) (payload : List Byte) (recs : List RecUpd) : (State.raiseWith s num payload recs).train = s.train := (raiseWith_same ..).train rfl
@[simp] theorem raiseWith_duplex (s : State) (num : Nat) (payload : List Byte) (recs : List RecUpd) : (State.raiseWith s num payload recs).duplex = s.duplex := (raiseWith_same ..).duplex rfl
@[simp] theorem raiseWith_params (s : State) (num : Nat) (payload : List Byte) (recs : List RecUpd) : (State.raiseWith s num payload recs).params = s.params := (raiseWith_same ..).params rfl
@[simp] theorem raiseWith_xchg (s : State) (num : Nat) (payload : List Byte) (recs : List RecUpd) : (State.raiseWith s num payload recs).xchg = s.xchg := (raiseWith_same ..).xchg rfl
@[simp] theorem raiseWith_req (s : State) (num : Nat) (payload : List Byte) (recs : List RecUpd) : (State.raiseWith s num payload recs).req = s.req := (raiseWith_same ..).req rfl
@[simp] theorem raiseWith_crc (s : State) (num : Nat) (payload : List Byte) (recs : List RecUpd) : (State.raiseWith s num payload recs).crc = s.crc := (raiseWith_same ..).crc rfl
@[simp] theorem raiseWith_bridge (s : State) (num : Nat) (payload : List Byte) (recs : List RecUpd) : (State.raiseWith s num payload recs).bridge = s.bridge := (raiseWith_same ..).bridge rfl
@[simp] theorem raiseWith_update (s : State) (num : Nat) (payload : List Byte) (recs : List RecUpd) : (State.raiseWith s num payload recs).update = s.update := (raiseWith_same ..).update rfl
@[simp] theorem raiseWith_life (s : State) (num : Nat) (payload : List Byte) (recs : List RecUpd) : (State.raiseWith s num payload recs).life = s.life := (raiseWith_same ..).life rfl
@[simp] theorem raiseWith_lifeOlder (s : State) (num : Nat) (payload : List Byte) (recs : List RecUpd) : (State.raiseWith s num payload recs).lifeOlder = s.lifeOlder := (raiseWith_same ..).lifeOlder rfl
@[simp] theorem raiseWith_proofs (s : State) (num : Nat) (payload : List Byte) (recs : List RecUpd) : (State.raiseWith s num payload recs).proofs = s.proofs := (raiseWith_same ..).proofs rfl
@[simp] theorem raiseWith_free (s : State) (num : Nat) (payload : List Byte) (recs : List RecUpd) : (State.raiseWith s num payload recs).free = s.free := (raiseWith_same ..).free rfl
@[simp] theorem raiseWith_pending (s : State) (num : Nat) (payload : List Byte) (recs : List RecUpd) : (State.raiseWith s num payload recs).pending = s.pending := (raiseWith_same ..).pending

@[simp] theorem enqueue_ident (s : State) (n : Nat) (e : OutEntry) : (State.enqueue s n e).ident = s.ident := (enqueue_same ..).ident
@[simp] theorem enqueue_power (s : State) (n : Nat) (e : OutEntry) : (State.enqueue s n e).power = s.power := (enqueue_same ..).power rfl
@[simp] theorem enqueue_lanes (s : State) (n : Nat) (e : OutEntry) : (State.enqueue s n e).lanes = s.lanes := (enqueue_same ..).lanes rfl
@[simp] theorem enqueue_platen (s : State) (n : Nat) (e : OutEntry) : (State.enqueue s n e).platen = s.platen := (enqueue_same ..).platen rfl
@[simp] theorem enqueue_field (s : State) (n : Nat) (e : OutEntry) : (State.enqueue s n e).field = s.field := (enqueue_same ..).field rfl
@[simp] theorem enqueue_net (s : State) (n : Nat) (e : OutEntry) : (State.enqueue s n e).net = s.net := (enqueue_same ..).net rfl
@[simp] theorem enqueue_train (s : State) (n : Nat) (e : OutEntry) : (State.enqueue s n e).train = s.train := (enqueue_same ..).train rfl
@[simp] theorem enqueue_duplex (s : State) (n : Nat) (e : OutEntry) : (State.enqueue s n e).duplex = s.duplex := (enqueue_same ..).duplex rfl
@[simp] theorem enqueue_params (s : State) (n : Nat) (e : OutEntry) : (State.enqueue s n e).params = s.params := (enqueue_same ..).params rfl
@[simp] theorem enqueue_xchg (s : State) (n : Nat) (e : OutEntry) : (State.enqueue s n e).xchg = s.xchg := (enqueue_same ..).xchg rfl
@[simp] theorem enqueue_req (s : State) (n : Nat) (e : OutEntry) : (State.enqueue s n e).req = s.req := (enqueue_same ..).req rfl
@[simp] theorem enqueue_crc (s : State) (n : Nat) (e : OutEntry) : (State.enqueue s n e).crc = s.crc := (enqueue_same ..).crc rfl
@[simp] theorem enqueue_bridge (s : State) (n : Nat) (e : OutEntry) : (State.enqueue s n e).bridge = s.bridge := (enqueue_same ..).bridge rfl
@[simp] theorem enqueue_update (s : State) (n : Nat) (e : OutEntry) : (State.enqueue s n e).update = s.update := (enqueue_same ..).update rfl
@[simp] theorem enqueue_life (s : State) (n : Nat) (e : OutEntry) : (State.enqueue s n e).life = s.life := (enqueue_same ..).life rfl
@[simp] theorem enqueue_lifeOlder (s : State) (n : Nat) (e : OutEntry) : (State.enqueue s n e).lifeOlder = s.lifeOlder := (enqueue_same ..).lifeOlder rfl
@[simp] theorem enqueue_proofs (s : State) (n : Nat) (e : OutEntry) : (State.enqueue s n e).proofs = s.proofs := (enqueue_same ..).proofs rfl
@[simp] theorem enqueue_recorder (s : State) (n : Nat) (e : OutEntry) : (State.enqueue s n e).recorder = s.recorder := (enqueue_same ..).recorder rfl
@[simp] theorem enqueue_free (s : State) (n : Nat) (e : OutEntry) : (State.enqueue s n e).free = s.free := (enqueue_same ..).free rfl
@[simp] theorem enqueue_pending (s : State) (n : Nat) (e : OutEntry) : (State.enqueue s n e).pending = s.pending := (enqueue_same ..).pending

@[simp] theorem updQueue_ident (s : State) (n : Nat) (f : Queue → Queue) : (State.updQueue s n f).ident = s.ident := (updQueue_same ..).ident
@[simp] theorem updQueue_power (s : State) (n : Nat) (f : Queue → Queue) : (State.updQueue s n f).power = s.power := (updQueue_same ..).power rfl
@[simp] theorem updQueue_lanes (s : State) (n : Nat) (f : Queue → Queue) : (State.updQueue s n f).lanes = s.lanes := (updQueue_same ..).lanes rfl
@[simp] theorem updQueue_platen (s : State) (n : Nat) (f : Queue → Queue) : (State.updQueue s n f).platen = s.platen := (updQueue_same ..).platen rfl
@[simp] theorem updQueue_field (s : State) (n : Nat) (f : Queue → Queue) : (State.updQueue s n f).field = s.field := (updQueue_same ..).field rfl
@[simp] theorem updQueue_net (s : State) (n : Nat) (f : Queue → Queue) : (State.updQueue s n f).net = s.net := (updQueue_same ..).net rfl
@[simp] theorem updQueue_train (s : State) (n : Nat) (f : Queue → Queue) : (State.updQueue s n f).train = s.train := (updQueue_same ..).train rfl
@[simp] theorem updQueue_duplex (s : State) (n : Nat) (f : Queue → Queue) : (State.updQueue s n f).duplex = s.duplex := (updQueue_same ..).duplex rfl
@[simp] theorem updQueue_params (s : State) (n : Nat) (f : Queue → Queue) : (State.updQueue s n f).params = s.params := (updQueue_same ..).params rfl
@[simp] theorem updQueue_xchg (s : State) (n : Nat) (f : Queue → Queue) : (State.updQueue s n f).xchg = s.xchg := (updQueue_same ..).xchg rfl
@[simp] theorem updQueue_req (s : State) (n : Nat) (f : Queue → Queue) : (State.updQueue s n f).req = s.req := (updQueue_same ..).req rfl
@[simp] theorem updQueue_crc (s : State) (n : Nat) (f : Queue → Queue) : (State.updQueue s n f).crc = s.crc := (updQueue_same ..).crc rfl
@[simp] theorem updQueue_bridge (s : State) (n : Nat) (f : Queue → Queue) : (State.updQueue s n f).bridge = s.bridge := (updQueue_same ..).bridge rfl
@[simp] theorem updQueue_update (s : State) (n : Nat) (f : Queue → Queue) : (State.updQueue s n f).update = s.update := (updQueue_same ..).update rfl
@[simp] theorem updQueue_life (s : State) (n : Nat) (f : Queue → Queue) : (State.updQueue s n f).life = s.life := (updQueue_same ..).life rfl
@[simp] theorem updQueue_lifeOlder (s : State) (n : Nat) (f : Queue → Queue) : (State.updQueue s n f).lifeOlder = s.lifeOlder := (updQueue_same ..).lifeOlder rfl
@[simp] theorem updQueue_proofs (s : State) (n : Nat) (f : Queue → Queue) : (State.updQueue s n f).proofs = s.proofs := (updQueue_same ..).proofs rfl
@[simp] theorem updQueue_recorder (s : State) (n : Nat) (f : Queue → Queue) : (State.updQueue s n f).recorder = s.recorder := (updQueue_same ..).recorder rfl
@[simp] theorem updQueue_free (s : State) (n : Nat) (f : Queue → Queue) : (State.updQueue s n f).free = s.free := (updQueue_same ..).free rfl
@[simp] theorem updQueue_pending (s : State) (n : Nat) (f : Queue → Queue) : (State.updQueue s n f).pending = s.pending := (updQueue_same ..).pending

@[simp] theorem keep_ident (s : State) (o : Outstanding) : (State.keep s o).ident = s.ident := (keep_same ..).ident
@[simp] theorem keep_power (s : State) (o : Outstanding) : (State.keep s o).power = s.power := (keep_same ..).power rfl
@[simp] theorem keep_lanes (s : State) (o : Outstanding) : (State.keep s o).lanes = s.lanes := (keep_same ..).lanes rfl
@[simp] theorem keep_platen (s : State) (o : Outstanding) : (State.keep s o).platen = s.platen := (keep_same ..).platen rfl
@[simp] theorem keep_field (s : State) (o : Outstanding) : (State.keep s o).field = s.field := (keep_same ..).field rfl
@[simp] theorem keep_net (s : State) (o : Outstanding) : (State.keep s o).net = s.net := (keep_same ..).net rfl
@[simp] theorem keep_train (s : State) (o : Outstanding) : (State.keep s o).train = s.train := (keep_same ..).train rfl
@[simp] theorem keep_duplex (s : State) (o : Outstanding) : (State.keep s o).duplex = s.duplex := (keep_same ..).duplex rfl
@[simp] theorem keep_params (s : State) (o : Outstanding) : (State.keep s o).params = s.params := (keep_same ..).params rfl
@[simp] theorem keep_xchg (s : State) (o : Outstanding) : (State.keep s o).xchg = s.xchg := (keep_same ..).xchg rfl
@[simp] theorem keep_req (s : State) (o : Outstanding) : (State.keep s o).req = s.req := (keep_same ..).req rfl
@[simp] theorem keep_crc (s : State) (o : Outstanding) : (State.keep s o).crc = s.crc := (keep_same ..).crc rfl
@[simp] theorem keep_bridge (s : State) (o : Outstanding) : (State.keep s o).bridge = s.bridge := (keep_same ..).bridge rfl
@[simp] theorem keep_update (s : State) (o : Outstanding) : (State.keep s o).update = s.update := (keep_same ..).update rfl
@[simp] theorem keep_life (s : State) (o : Outstanding) : (State.keep s o).life = s.life := (keep_same ..).life rfl
@[simp] theorem keep_lifeOlder (s : State) (o : Outstanding) : (State.keep s o).lifeOlder = s.lifeOlder := (keep_same ..).lifeOlder rfl
@[simp] theorem keep_proofs (s : State) (o : Outstanding) : (State.keep s o).proofs = s.proofs := (keep_same ..).proofs rfl
@[simp] theorem keep_recorder (s : State) (o : Outstanding) : (State.keep s o).recorder = s.recorder := (keep_same ..).recorder rfl
@[simp] theorem keep_free (s : State) (o : Outstanding) : (State.keep s o).free = s.free := (keep_same ..).free rfl
@[simp] theorem keep_pending (s : State) (o : Outstanding) : (State.keep s o).pending = s.pending := (keep_same ..).pending

@[simp] theorem badPayload_ident (s : State) (o : Outstanding) : (State.badPayload s o).ident = s.ident := (badPayload_same ..).ident
@[simp] theorem badPayload_power (s : State) (o : Outstanding) : (State.badPayload s o).power = s.power := (badPayload_same ..).power rfl
@[simp] theorem badPayload_lanes (s : State) (o : Outstanding) : (State.badPayload s o).lanes = s.lanes := (badPayload_same ..).lanes rfl
@[simp] theorem badPayload_platen (s : State) (o : Outstanding) : (State.badPayload s o).platen = s.platen := (badPayload_same ..).platen rfl
@[simp] theorem badPayload_field (s : State) (o : Outstanding) : (State.badPayload s o).field = s.field := (badPayload_same ..).field rfl
@[simp] theorem badPayload_net (s : State) (o : Outstanding) : (State.badPayload s o).net = s.net := (badPayload_same ..).net rfl
@[simp] theorem badPayload_train (s : State) (o : Outstanding) : (State.badPayload s o).train = s.train := (badPayload_same ..).train rfl
@[simp] theorem badPayload_duplex (s : State) (o : Outstanding) : (State.badPayload s o).duplex = s.duplex := (badPayload_same ..).duplex rfl
@[simp] theorem badPayload_params (s : State) (o : Outstanding) : (State.badPayload s o).params = s.params := (badPayload_same ..).params rfl
@[simp] theorem badPayload_xchg (s : State) (o : Outstanding) : (State.badPayload s o).xchg = s.xchg := (badPayload_same ..).xchg rfl
@[simp] theorem badPayload_req (s : State) (o : Outstanding) : (State.badPayload s o).req = s.req := (badPayload_same ..).req rfl
@[simp] theorem badPayload_crc (s : State) (o : Outstanding) : (State.badPayload s o).crc = s.crc := (badPayload_same ..).crc rfl
@[simp] theorem badPayload_bridge (s : State) (o : Outstanding) : (State.badPayload s o).bridge = s.bridge := (badPayload_same ..).bridge rfl
@[simp] theorem badPayload_update (s : State) (o : Outstanding) : (State.badPayload s o).update = s.update := (badPayload_same ..).update rfl
@[simp] theorem badPayload_life (s : State) (o : Outstanding) : (State.badPayload s o).life = s.life := (badPayload_same ..).life rfl
@[simp] theorem badPayload_lifeOlder (s : State) (o : Outstanding) : (State.badPayload s o).lifeOlder = s.lifeOlder := (badPayload_same ..).lifeOlder rfl
@[simp] theorem badPayload_proofs (s : State) (o : Outstanding) : (State.badPayload s o).proofs = s.proofs := (badPayload_same ..).proofs rfl
@[simp] theorem badPayload_free (s : State) (o : Outstanding) : (State.badPayload s o).free = s.free := (badPayload_same ..).free rfl
@[simp] theorem badPayload_pending (s : State) (o : Outstanding) : (State.badPayload s o).pending = s.pending := (badPayload_same ..).pending

@[simp] theorem stall_ident (s : State) (e : Entry) : (State.stall s e).ident = s.ident := (stall_same ..).ident
@[simp] theorem stall_power (s : State) (e : Entry) : (State.stall s e).power = s.power := (stall_same ..).power rfl
@[simp] theorem stall_lanes (s : State) (e : Entry) : (State.stall s e).lanes = s.lanes := (stall_same ..).lanes rfl
@[simp] theorem stall_platen (s : State) (e : Entry) : (State.stall s e).platen = s.platen := (stall_same ..).platen rfl
@[simp] theorem stall_field (s : State) (e : Entry) : (State.stall s e).field = s.field := (stall_same ..).field rfl
@[simp] theorem stall_net (s : State) (e : Entry) : (State.stall s e).net = s.net := (stall_same ..).net rfl
@[simp] theorem stall_train (s : State) (e : Entry) : (State.stall s e).train = s.train := (stall_same ..).train rfl
@[simp] theorem stall_duplex (s : State) (e : Entry) : (State.stall s e).duplex = s.duplex := (stall_same ..).duplex rfl
@[simp] theorem stall_params (s : State) (e : Entry) : (State.stall s e).params = s.params := (stall_same ..).params rfl
@[simp] theorem stall_xchg (s : State) (e : Entry) : (State.stall s e).xchg = s.xchg := (stall_same ..).xchg rfl
@[simp] theorem stall_req (s : State) (e : Entry) : (State.stall s e).req = s.req := (stall_same ..).req rfl
@[simp] theorem stall_crc (s : State) (e : Entry) : (State.stall s e).crc = s.crc := (stall_same ..).crc rfl
@[simp] theorem stall_bridge (s : State) (e : Entry) : (State.stall s e).bridge = s.bridge := (stall_same ..).bridge rfl
@[simp] theorem stall_update (s : State) (e : Entry) : (State.stall s e).update = s.update := (stall_same ..).update rfl
@[simp] theorem stall_life (s : State) (e : Entry) : (State.stall s e).life = s.life := (stall_same ..).life rfl
@[simp] theorem stall_lifeOlder (s : State) (e : Entry) : (State.stall s e).lifeOlder = s.lifeOlder := (stall_same ..).lifeOlder rfl
@[simp] theorem stall_proofs (s : State) (e : Entry) : (State.stall s e).proofs = s.proofs := (stall_same ..).proofs rfl
@[simp] theorem stall_free (s : State) (e : Entry) : (State.stall s e).free = s.free := (stall_same ..).free rfl
@[simp] theorem stall_pending (s : State) (e : Entry) : (State.stall s e).pending = s.pending := (stall_same ..).pending

@[simp] theorem freeSlot_ident (s : State) (slot : Nat) : (State.freeSlot s slot).ident = s.ident := (freeSlot_same ..).ident
@[simp] theorem freeSlot_power (s : State) (slot : Nat) : (State.freeSlot s slot).power = s.power := (freeSlot_same ..).power rfl
@[simp] theorem freeSlot_lanes (s : State) (slot : Nat) : (State.freeSlot s slot).lanes = s.lanes := (freeSlot_same ..).lanes rfl
@[simp] theorem freeSlot_platen (s : State) (slot : Nat) : (State.freeSlot s slot).platen = s.platen := (freeSlot_same ..).platen rfl
@[simp] theorem freeSlot_field (s : State) (slot : Nat) : (State.freeSlot s slot).field = s.field := (freeSlot_same ..).field rfl
@[simp] theorem freeSlot_net (s : State) (slot : Nat) : (State.freeSlot s slot).net = s.net := (freeSlot_same ..).net rfl
@[simp] theorem freeSlot_train (s : State) (slot : Nat) : (State.freeSlot s slot).train = s.train := (freeSlot_same ..).train rfl
@[simp] theorem freeSlot_duplex (s : State) (slot : Nat) : (State.freeSlot s slot).duplex = s.duplex := (freeSlot_same ..).duplex rfl
@[simp] theorem freeSlot_host (s : State) (slot : Nat) : (State.freeSlot s slot).host = s.host := (freeSlot_same ..).host rfl
@[simp] theorem freeSlot_params (s : State) (slot : Nat) : (State.freeSlot s slot).params = s.params := (freeSlot_same ..).params rfl
@[simp] theorem freeSlot_xchg (s : State) (slot : Nat) : (State.freeSlot s slot).xchg = s.xchg := (freeSlot_same ..).xchg rfl
@[simp] theorem freeSlot_crc (s : State) (slot : Nat) : (State.freeSlot s slot).crc = s.crc := (freeSlot_same ..).crc rfl
@[simp] theorem freeSlot_bridge (s : State) (slot : Nat) : (State.freeSlot s slot).bridge = s.bridge := (freeSlot_same ..).bridge rfl
@[simp] theorem freeSlot_update (s : State) (slot : Nat) : (State.freeSlot s slot).update = s.update := (freeSlot_same ..).update rfl
@[simp] theorem freeSlot_life (s : State) (slot : Nat) : (State.freeSlot s slot).life = s.life := (freeSlot_same ..).life rfl
@[simp] theorem freeSlot_lifeOlder (s : State) (slot : Nat) : (State.freeSlot s slot).lifeOlder = s.lifeOlder := (freeSlot_same ..).lifeOlder rfl
@[simp] theorem freeSlot_proofs (s : State) (slot : Nat) : (State.freeSlot s slot).proofs = s.proofs := (freeSlot_same ..).proofs rfl
@[simp] theorem freeSlot_recorder (s : State) (slot : Nat) : (State.freeSlot s slot).recorder = s.recorder := (freeSlot_same ..).recorder rfl
@[simp] theorem freeSlot_free (s : State) (slot : Nat) : (State.freeSlot s slot).free = s.free := (freeSlot_same ..).free rfl
@[simp] theorem freeSlot_pending (s : State) (slot : Nat) : (State.freeSlot s slot).pending = s.pending := (freeSlot_same ..).pending

@[simp] theorem writeLife_ident (s : State) (f : Life → Life) : (State.writeLife s f).ident = s.ident := rfl
@[simp] theorem writeLife_power (s : State) (f : Life → Life) : (State.writeLife s f).power = s.power := rfl
@[simp] theorem writeLife_lanes (s : State) (f : Life → Life) : (State.writeLife s f).lanes = s.lanes := rfl
@[simp] theorem writeLife_platen (s : State) (f : Life → Life) : (State.writeLife s f).platen = s.platen := rfl
@[simp] theorem writeLife_field (s : State) (f : Life → Life) : (State.writeLife s f).field = s.field := rfl
@[simp] theorem writeLife_net (s : State) (f : Life → Life) : (State.writeLife s f).net = s.net := rfl
@[simp] theorem writeLife_train (s : State) (f : Life → Life) : (State.writeLife s f).train = s.train := rfl
@[simp] theorem writeLife_duplex (s : State) (f : Life → Life) : (State.writeLife s f).duplex = s.duplex := rfl
@[simp] theorem writeLife_host (s : State) (f : Life → Life) : (State.writeLife s f).host = s.host := rfl
@[simp] theorem writeLife_params (s : State) (f : Life → Life) : (State.writeLife s f).params = s.params := rfl
@[simp] theorem writeLife_xchg (s : State) (f : Life → Life) : (State.writeLife s f).xchg = s.xchg := rfl
@[simp] theorem writeLife_req (s : State) (f : Life → Life) : (State.writeLife s f).req = s.req := rfl
@[simp] theorem writeLife_crc (s : State) (f : Life → Life) : (State.writeLife s f).crc = s.crc := rfl
@[simp] theorem writeLife_bridge (s : State) (f : Life → Life) : (State.writeLife s f).bridge = s.bridge := rfl
@[simp] theorem writeLife_update (s : State) (f : Life → Life) : (State.writeLife s f).update = s.update := rfl
@[simp] theorem writeLife_proofs (s : State) (f : Life → Life) : (State.writeLife s f).proofs = s.proofs := rfl
@[simp] theorem writeLife_recorder (s : State) (f : Life → Life) : (State.writeLife s f).recorder = s.recorder := rfl
@[simp] theorem writeLife_free (s : State) (f : Life → Life) : (State.writeLife s f).free = s.free := rfl
@[simp] theorem writeLife_pending (s : State) (f : Life → Life) : (State.writeLife s f).pending = s.pending := rfl

@[simp] theorem countToken_ident (s : State) (t : List Byte) : (State.countToken s t).ident = s.ident := (countToken_same ..).ident
@[simp] theorem countToken_power (s : State) (t : List Byte) : (State.countToken s t).power = s.power := (countToken_same ..).power rfl
@[simp] theorem countToken_lanes (s : State) (t : List Byte) : (State.countToken s t).lanes = s.lanes := (countToken_same ..).lanes rfl
@[simp] theorem countToken_platen (s : State) (t : List Byte) : (State.countToken s t).platen = s.platen := (countToken_same ..).platen rfl
@[simp] theorem countToken_field (s : State) (t : List Byte) : (State.countToken s t).field = s.field := (countToken_same ..).field rfl
@[simp] theorem countToken_net (s : State) (t : List Byte) : (State.countToken s t).net = s.net := (countToken_same ..).net rfl
@[simp] theorem countToken_train (s : State) (t : List Byte) : (State.countToken s t).train = s.train := (countToken_same ..).train rfl
@[simp] theorem countToken_duplex (s : State) (t : List Byte) : (State.countToken s t).duplex = s.duplex := (countToken_same ..).duplex rfl
@[simp] theorem countToken_host (s : State) (t : List Byte) : (State.countToken s t).host = s.host := (countToken_same ..).host rfl
@[simp] theorem countToken_params (s : State) (t : List Byte) : (State.countToken s t).params = s.params := (countToken_same ..).params rfl
@[simp] theorem countToken_xchg (s : State) (t : List Byte) : (State.countToken s t).xchg = s.xchg := (countToken_same ..).xchg rfl
@[simp] theorem countToken_req (s : State) (t : List Byte) : (State.countToken s t).req = s.req := (countToken_same ..).req rfl
@[simp] theorem countToken_crc (s : State) (t : List Byte) : (State.countToken s t).crc = s.crc := (countToken_same ..).crc rfl
@[simp] theorem countToken_bridge (s : State) (t : List Byte) : (State.countToken s t).bridge = s.bridge := (countToken_same ..).bridge rfl
@[simp] theorem countToken_update (s : State) (t : List Byte) : (State.countToken s t).update = s.update := (countToken_same ..).update rfl
@[simp] theorem countToken_proofs (s : State) (t : List Byte) : (State.countToken s t).proofs = s.proofs := (countToken_same ..).proofs rfl
@[simp] theorem countToken_free (s : State) (t : List Byte) : (State.countToken s t).free = s.free := (countToken_same ..).free rfl
@[simp] theorem countToken_pending (s : State) (t : List Byte) : (State.countToken s t).pending = s.pending := (countToken_same ..).pending

@[simp] theorem refuseToken_ident (s : State) (o : Outstanding) (step : Nat) : (State.refuseToken s o step).ident = s.ident := (refuseToken_same ..).ident
@[simp] theorem refuseToken_power (s : State) (o : Outstanding) (step : Nat) : (State.refuseToken s o step).power = s.power := (refuseToken_same ..).power rfl
@[simp] theorem refuseToken_lanes (s : State) (o : Outstanding) (step : Nat) : (State.refuseToken s o step).lanes = s.lanes := (refuseToken_same ..).lanes rfl
@[simp] theorem refuseToken_platen (s : State) (o : Outstanding) (step : Nat) : (State.refuseToken s o step).platen = s.platen := (refuseToken_same ..).platen rfl
@[simp] theorem refuseToken_field (s : State) (o : Outstanding) (step : Nat) : (State.refuseToken s o step).field = s.field := (refuseToken_same ..).field rfl
@[simp] theorem refuseToken_net (s : State) (o : Outstanding) (step : Nat) : (State.refuseToken s o step).net = s.net := (refuseToken_same ..).net rfl
@[simp] theorem refuseToken_train (s : State) (o : Outstanding) (step : Nat) : (State.refuseToken s o step).train = s.train := (refuseToken_same ..).train rfl
@[simp] theorem refuseToken_duplex (s : State) (o : Outstanding) (step : Nat) : (State.refuseToken s o step).duplex = s.duplex := (refuseToken_same ..).duplex rfl
@[simp] theorem refuseToken_params (s : State) (o : Outstanding) (step : Nat) : (State.refuseToken s o step).params = s.params := (refuseToken_same ..).params rfl
@[simp] theorem refuseToken_xchg (s : State) (o : Outstanding) (step : Nat) : (State.refuseToken s o step).xchg = s.xchg := (refuseToken_same ..).xchg rfl
@[simp] theorem refuseToken_req (s : State) (o : Outstanding) (step : Nat) : (State.refuseToken s o step).req = s.req := (refuseToken_same ..).req rfl
@[simp] theorem refuseToken_crc (s : State) (o : Outstanding) (step : Nat) : (State.refuseToken s o step).crc = s.crc := (refuseToken_same ..).crc rfl
@[simp] theorem refuseToken_bridge (s : State) (o : Outstanding) (step : Nat) : (State.refuseToken s o step).bridge = s.bridge := (refuseToken_same ..).bridge rfl
@[simp] theorem refuseToken_update (s : State) (o : Outstanding) (step : Nat) : (State.refuseToken s o step).update = s.update := (refuseToken_same ..).update rfl
@[simp] theorem refuseToken_life (s : State) (o : Outstanding) (step : Nat) : (State.refuseToken s o step).life = s.life := (refuseToken_same ..).life rfl
@[simp] theorem refuseToken_lifeOlder (s : State) (o : Outstanding) (step : Nat) : (State.refuseToken s o step).lifeOlder = s.lifeOlder := (refuseToken_same ..).lifeOlder rfl
@[simp] theorem refuseToken_proofs (s : State) (o : Outstanding) (step : Nat) : (State.refuseToken s o step).proofs = s.proofs := (refuseToken_same ..).proofs rfl
@[simp] theorem refuseToken_free (s : State) (o : Outstanding) (step : Nat) : (State.refuseToken s o step).free = s.free := (refuseToken_same ..).free rfl
@[simp] theorem refuseToken_pending (s : State) (o : Outstanding) (step : Nat) : (State.refuseToken s o step).pending = s.pending := (refuseToken_same ..).pending

@[simp] theorem updLane_ident (s : State) (l : LaneId) (f : LaneState → LaneState) : (State.updLane s l f).ident = s.ident := (updLane_same ..).ident
@[simp] theorem updLane_power (s : State) (l : LaneId) (f : LaneState → LaneState) : (State.updLane s l f).power = s.power := (updLane_same ..).power rfl
@[simp] theorem updLane_platen (s : State) (l : LaneId) (f : LaneState → LaneState) : (State.updLane s l f).platen = s.platen := (updLane_same ..).platen rfl
@[simp] theorem updLane_field (s : State) (l : LaneId) (f : LaneState → LaneState) : (State.updLane s l f).field = s.field := (updLane_same ..).field rfl
@[simp] theorem updLane_net (s : State) (l : LaneId) (f : LaneState → LaneState) : (State.updLane s l f).net = s.net := (updLane_same ..).net rfl
@[simp] theorem updLane_train (s : State) (l : LaneId) (f : LaneState → LaneState) : (State.updLane s l f).train = s.train := (updLane_same ..).train rfl
@[simp] theorem updLane_duplex (s : State) (l : LaneId) (f : LaneState → LaneState) : (State.updLane s l f).duplex = s.duplex := (updLane_same ..).duplex rfl
@[simp] theorem updLane_host (s : State) (l : LaneId) (f : LaneState → LaneState) : (State.updLane s l f).host = s.host := (updLane_same ..).host rfl
@[simp] theorem updLane_params (s : State) (l : LaneId) (f : LaneState → LaneState) : (State.updLane s l f).params = s.params := (updLane_same ..).params rfl
@[simp] theorem updLane_xchg (s : State) (l : LaneId) (f : LaneState → LaneState) : (State.updLane s l f).xchg = s.xchg := (updLane_same ..).xchg rfl
@[simp] theorem updLane_req (s : State) (l : LaneId) (f : LaneState → LaneState) : (State.updLane s l f).req = s.req := (updLane_same ..).req rfl
@[simp] theorem updLane_crc (s : State) (l : LaneId) (f : LaneState → LaneState) : (State.updLane s l f).crc = s.crc := (updLane_same ..).crc rfl
@[simp] theorem updLane_bridge (s : State) (l : LaneId) (f : LaneState → LaneState) : (State.updLane s l f).bridge = s.bridge := (updLane_same ..).bridge rfl
@[simp] theorem updLane_update (s : State) (l : LaneId) (f : LaneState → LaneState) : (State.updLane s l f).update = s.update := (updLane_same ..).update rfl
@[simp] theorem updLane_life (s : State) (l : LaneId) (f : LaneState → LaneState) : (State.updLane s l f).life = s.life := (updLane_same ..).life rfl
@[simp] theorem updLane_lifeOlder (s : State) (l : LaneId) (f : LaneState → LaneState) : (State.updLane s l f).lifeOlder = s.lifeOlder := (updLane_same ..).lifeOlder rfl
@[simp] theorem updLane_proofs (s : State) (l : LaneId) (f : LaneState → LaneState) : (State.updLane s l f).proofs = s.proofs := (updLane_same ..).proofs rfl
@[simp] theorem updLane_recorder (s : State) (l : LaneId) (f : LaneState → LaneState) : (State.updLane s l f).recorder = s.recorder := (updLane_same ..).recorder rfl
@[simp] theorem updLane_free (s : State) (l : LaneId) (f : LaneState → LaneState) : (State.updLane s l f).free = s.free := (updLane_same ..).free rfl
@[simp] theorem updLane_pending (s : State) (l : LaneId) (f : LaneState → LaneState) : (State.updLane s l f).pending = s.pending := (updLane_same ..).pending

@[simp] theorem setLane_ident (s : State) (l : LaneId) (x : LaneState) : (State.setLane s l x).ident = s.ident := (setLane_same ..).ident
@[simp] theorem setLane_power (s : State) (l : LaneId) (x : LaneState) : (State.setLane s l x).power = s.power := (setLane_same ..).power rfl
@[simp] theorem setLane_platen (s : State) (l : LaneId) (x : LaneState) : (State.setLane s l x).platen = s.platen := (setLane_same ..).platen rfl
@[simp] theorem setLane_field (s : State) (l : LaneId) (x : LaneState) : (State.setLane s l x).field = s.field := (setLane_same ..).field rfl
@[simp] theorem setLane_net (s : State) (l : LaneId) (x : LaneState) : (State.setLane s l x).net = s.net := (setLane_same ..).net rfl
@[simp] theorem setLane_train (s : State) (l : LaneId) (x : LaneState) : (State.setLane s l x).train = s.train := (setLane_same ..).train rfl
@[simp] theorem setLane_duplex (s : State) (l : LaneId) (x : LaneState) : (State.setLane s l x).duplex = s.duplex := (setLane_same ..).duplex rfl
@[simp] theorem setLane_host (s : State) (l : LaneId) (x : LaneState) : (State.setLane s l x).host = s.host := (setLane_same ..).host rfl
@[simp] theorem setLane_params (s : State) (l : LaneId) (x : LaneState) : (State.setLane s l x).params = s.params := (setLane_same ..).params rfl
@[simp] theorem setLane_xchg (s : State) (l : LaneId) (x : LaneState) : (State.setLane s l x).xchg = s.xchg := (setLane_same ..).xchg rfl
@[simp] theorem setLane_req (s : State) (l : LaneId) (x : LaneState) : (State.setLane s l x).req = s.req := (setLane_same ..).req rfl
@[simp] theorem setLane_crc (s : State) (l : LaneId) (x : LaneState) : (State.setLane s l x).crc = s.crc := (setLane_same ..).crc rfl
@[simp] theorem setLane_bridge (s : State) (l : LaneId) (x : LaneState) : (State.setLane s l x).bridge = s.bridge := (setLane_same ..).bridge rfl
@[simp] theorem setLane_update (s : State) (l : LaneId) (x : LaneState) : (State.setLane s l x).update = s.update := (setLane_same ..).update rfl
@[simp] theorem setLane_life (s : State) (l : LaneId) (x : LaneState) : (State.setLane s l x).life = s.life := (setLane_same ..).life rfl
@[simp] theorem setLane_lifeOlder (s : State) (l : LaneId) (x : LaneState) : (State.setLane s l x).lifeOlder = s.lifeOlder := (setLane_same ..).lifeOlder rfl
@[simp] theorem setLane_proofs (s : State) (l : LaneId) (x : LaneState) : (State.setLane s l x).proofs = s.proofs := (setLane_same ..).proofs rfl
@[simp] theorem setLane_recorder (s : State) (l : LaneId) (x : LaneState) : (State.setLane s l x).recorder = s.recorder := (setLane_same ..).recorder rfl
@[simp] theorem setLane_free (s : State) (l : LaneId) (x : LaneState) : (State.setLane s l x).free = s.free := (setLane_same ..).free rfl
@[simp] theorem setLane_pending (s : State) (l : LaneId) (x : LaneState) : (State.setLane s l x).pending = s.pending := (setLane_same ..).pending

@[simp] theorem mapLanes_ident (s : State) (f : LaneId → LaneState → LaneState) : (State.mapLanes s f).ident = s.ident := (mapLanes_same ..).ident
@[simp] theorem mapLanes_power (s : State) (f : LaneId → LaneState → LaneState) : (State.mapLanes s f).power = s.power := (mapLanes_same ..).power rfl
@[simp] theorem mapLanes_platen (s : State) (f : LaneId → LaneState → LaneState) : (State.mapLanes s f).platen = s.platen := (mapLanes_same ..).platen rfl
@[simp] theorem mapLanes_field (s : State) (f : LaneId → LaneState → LaneState) : (State.mapLanes s f).field = s.field := (mapLanes_same ..).field rfl
@[simp] theorem mapLanes_net (s : State) (f : LaneId → LaneState → LaneState) : (State.mapLanes s f).net = s.net := (mapLanes_same ..).net rfl
@[simp] theorem mapLanes_train (s : State) (f : LaneId → LaneState → LaneState) : (State.mapLanes s f).train = s.train := (mapLanes_same ..).train rfl
@[simp] theorem mapLanes_duplex (s : State) (f : LaneId → LaneState → LaneState) : (State.mapLanes s f).duplex = s.duplex := (mapLanes_same ..).duplex rfl
@[simp] theorem mapLanes_host (s : State) (f : LaneId → LaneState → LaneState) : (State.mapLanes s f).host = s.host := (mapLanes_same ..).host rfl
@[simp] theorem mapLanes_params (s : State) (f : LaneId → LaneState → LaneState) : (State.mapLanes s f).params = s.params := (mapLanes_same ..).params rfl
@[simp] theorem mapLanes_xchg (s : State) (f : LaneId → LaneState → LaneState) : (State.mapLanes s f).xchg = s.xchg := (mapLanes_same ..).xchg rfl
@[simp] theorem mapLanes_req (s : State) (f : LaneId → LaneState → LaneState) : (State.mapLanes s f).req = s.req := (mapLanes_same ..).req rfl
@[simp] theorem mapLanes_crc (s : State) (f : LaneId → LaneState → LaneState) : (State.mapLanes s f).crc = s.crc := (mapLanes_same ..).crc rfl
@[simp] theorem mapLanes_bridge (s : State) (f : LaneId → LaneState → LaneState) : (State.mapLanes s f).bridge = s.bridge := (mapLanes_same ..).bridge rfl
@[simp] theorem mapLanes_update (s : State) (f : LaneId → LaneState → LaneState) : (State.mapLanes s f).update = s.update := (mapLanes_same ..).update rfl
@[simp] theorem mapLanes_life (s : State) (f : LaneId → LaneState → LaneState) : (State.mapLanes s f).life = s.life := (mapLanes_same ..).life rfl
@[simp] theorem mapLanes_lifeOlder (s : State) (f : LaneId → LaneState → LaneState) : (State.mapLanes s f).lifeOlder = s.lifeOlder := (mapLanes_same ..).lifeOlder rfl
@[simp] theorem mapLanes_proofs (s : State) (f : LaneId → LaneState → LaneState) : (State.mapLanes s f).proofs = s.proofs := (mapLanes_same ..).proofs rfl
@[simp] theorem mapLanes_recorder (s : State) (f : LaneId → LaneState → LaneState) : (State.mapLanes s f).recorder = s.recorder := (mapLanes_same ..).recorder rfl
@[simp] theorem mapLanes_free (s : State) (f : LaneId → LaneState → LaneState) : (State.mapLanes s f).free = s.free := (mapLanes_same ..).free rfl
@[simp] theorem mapLanes_pending (s : State) (f : LaneId → LaneState → LaneState) : (State.mapLanes s f).pending = s.pending := (mapLanes_same ..).pending

@[simp] theorem updPower_ident (s : State) (f : Power → Power) : (State.updPower s f).ident = s.ident := (updPower_same ..).ident
@[simp] theorem updPower_lanes (s : State) (f : Power → Power) : (State.updPower s f).lanes = s.lanes := (updPower_same ..).lanes rfl
@[simp] theorem updPower_platen (s : State) (f : Power → Power) : (State.updPower s f).platen = s.platen := (updPower_same ..).platen rfl
@[simp] theorem updPower_field (s : State) (f : Power → Power) : (State.updPower s f).field = s.field := (updPower_same ..).field rfl
@[simp] theorem updPower_net (s : State) (f : Power → Power) : (State.updPower s f).net = s.net := (updPower_same ..).net rfl
@[simp] theorem updPower_train (s : State) (f : Power → Power) : (State.updPower s f).train = s.train := (updPower_same ..).train rfl
@[simp] theorem updPower_duplex (s : State) (f : Power → Power) : (State.updPower s f).duplex = s.duplex := (updPower_same ..).duplex rfl
@[simp] theorem updPower_host (s : State) (f : Power → Power) : (State.updPower s f).host = s.host := (updPower_same ..).host rfl
@[simp] theorem updPower_params (s : State) (f : Power → Power) : (State.updPower s f).params = s.params := (updPower_same ..).params rfl
@[simp] theorem updPower_xchg (s : State) (f : Power → Power) : (State.updPower s f).xchg = s.xchg := (updPower_same ..).xchg rfl
@[simp] theorem updPower_req (s : State) (f : Power → Power) : (State.updPower s f).req = s.req := (updPower_same ..).req rfl
@[simp] theorem updPower_crc (s : State) (f : Power → Power) : (State.updPower s f).crc = s.crc := (updPower_same ..).crc rfl
@[simp] theorem updPower_bridge (s : State) (f : Power → Power) : (State.updPower s f).bridge = s.bridge := (updPower_same ..).bridge rfl
@[simp] theorem updPower_update (s : State) (f : Power → Power) : (State.updPower s f).update = s.update := (updPower_same ..).update rfl
@[simp] theorem updPower_life (s : State) (f : Power → Power) : (State.updPower s f).life = s.life := (updPower_same ..).life rfl
@[simp] theorem updPower_lifeOlder (s : State) (f : Power → Power) : (State.updPower s f).lifeOlder = s.lifeOlder := (updPower_same ..).lifeOlder rfl
@[simp] theorem updPower_proofs (s : State) (f : Power → Power) : (State.updPower s f).proofs = s.proofs := (updPower_same ..).proofs rfl
@[simp] theorem updPower_recorder (s : State) (f : Power → Power) : (State.updPower s f).recorder = s.recorder := (updPower_same ..).recorder rfl
@[simp] theorem updPower_free (s : State) (f : Power → Power) : (State.updPower s f).free = s.free := (updPower_same ..).free rfl
@[simp] theorem updPower_pending (s : State) (f : Power → Power) : (State.updPower s f).pending = s.pending := (updPower_same ..).pending

@[simp] theorem updField_ident (s : State) (g : Field → Field) : (State.updField s g).ident = s.ident := (updField_same ..).ident
@[simp] theorem updField_power (s : State) (g : Field → Field) : (State.updField s g).power = s.power := (updField_same ..).power rfl
@[simp] theorem updField_lanes (s : State) (g : Field → Field) : (State.updField s g).lanes = s.lanes := (updField_same ..).lanes rfl
@[simp] theorem updField_platen (s : State) (g : Field → Field) : (State.updField s g).platen = s.platen := (updField_same ..).platen rfl
@[simp] theorem updField_net (s : State) (g : Field → Field) : (State.updField s g).net = s.net := (updField_same ..).net rfl
@[simp] theorem updField_train (s : State) (g : Field → Field) : (State.updField s g).train = s.train := (updField_same ..).train rfl
@[simp] theorem updField_duplex (s : State) (g : Field → Field) : (State.updField s g).duplex = s.duplex := (updField_same ..).duplex rfl
@[simp] theorem updField_host (s : State) (g : Field → Field) : (State.updField s g).host = s.host := (updField_same ..).host rfl
@[simp] theorem updField_params (s : State) (g : Field → Field) : (State.updField s g).params = s.params := (updField_same ..).params rfl
@[simp] theorem updField_xchg (s : State) (g : Field → Field) : (State.updField s g).xchg = s.xchg := (updField_same ..).xchg rfl
@[simp] theorem updField_req (s : State) (g : Field → Field) : (State.updField s g).req = s.req := (updField_same ..).req rfl
@[simp] theorem updField_crc (s : State) (g : Field → Field) : (State.updField s g).crc = s.crc := (updField_same ..).crc rfl
@[simp] theorem updField_bridge (s : State) (g : Field → Field) : (State.updField s g).bridge = s.bridge := (updField_same ..).bridge rfl
@[simp] theorem updField_update (s : State) (g : Field → Field) : (State.updField s g).update = s.update := (updField_same ..).update rfl
@[simp] theorem updField_life (s : State) (g : Field → Field) : (State.updField s g).life = s.life := (updField_same ..).life rfl
@[simp] theorem updField_lifeOlder (s : State) (g : Field → Field) : (State.updField s g).lifeOlder = s.lifeOlder := (updField_same ..).lifeOlder rfl
@[simp] theorem updField_proofs (s : State) (g : Field → Field) : (State.updField s g).proofs = s.proofs := (updField_same ..).proofs rfl
@[simp] theorem updField_recorder (s : State) (g : Field → Field) : (State.updField s g).recorder = s.recorder := (updField_same ..).recorder rfl
@[simp] theorem updField_free (s : State) (g : Field → Field) : (State.updField s g).free = s.free := (updField_same ..).free rfl
@[simp] theorem updField_pending (s : State) (g : Field → Field) : (State.updField s g).pending = s.pending := (updField_same ..).pending

@[simp] theorem setPort_ident (s : State) (p : PortId) (f : Port → Port) : (State.setPort s p f).ident = s.ident := (setPort_same ..).ident
@[simp] theorem setPort_power (s : State) (p : PortId) (f : Port → Port) : (State.setPort s p f).power = s.power := (setPort_same ..).power rfl
@[simp] theorem setPort_lanes (s : State) (p : PortId) (f : Port → Port) : (State.setPort s p f).lanes = s.lanes := (setPort_same ..).lanes rfl
@[simp] theorem setPort_platen (s : State) (p : PortId) (f : Port → Port) : (State.setPort s p f).platen = s.platen := (setPort_same ..).platen rfl
@[simp] theorem setPort_field (s : State) (p : PortId) (f : Port → Port) : (State.setPort s p f).field = s.field := (setPort_same ..).field rfl
@[simp] theorem setPort_train (s : State) (p : PortId) (f : Port → Port) : (State.setPort s p f).train = s.train := (setPort_same ..).train rfl
@[simp] theorem setPort_duplex (s : State) (p : PortId) (f : Port → Port) : (State.setPort s p f).duplex = s.duplex := (setPort_same ..).duplex rfl
@[simp] theorem setPort_host (s : State) (p : PortId) (f : Port → Port) : (State.setPort s p f).host = s.host := (setPort_same ..).host rfl
@[simp] theorem setPort_params (s : State) (p : PortId) (f : Port → Port) : (State.setPort s p f).params = s.params := (setPort_same ..).params rfl
@[simp] theorem setPort_xchg (s : State) (p : PortId) (f : Port → Port) : (State.setPort s p f).xchg = s.xchg := (setPort_same ..).xchg rfl
@[simp] theorem setPort_req (s : State) (p : PortId) (f : Port → Port) : (State.setPort s p f).req = s.req := (setPort_same ..).req rfl
@[simp] theorem setPort_crc (s : State) (p : PortId) (f : Port → Port) : (State.setPort s p f).crc = s.crc := (setPort_same ..).crc rfl
@[simp] theorem setPort_bridge (s : State) (p : PortId) (f : Port → Port) : (State.setPort s p f).bridge = s.bridge := (setPort_same ..).bridge rfl
@[simp] theorem setPort_update (s : State) (p : PortId) (f : Port → Port) : (State.setPort s p f).update = s.update := (setPort_same ..).update rfl
@[simp] theorem setPort_life (s : State) (p : PortId) (f : Port → Port) : (State.setPort s p f).life = s.life := (setPort_same ..).life rfl
@[simp] theorem setPort_lifeOlder (s : State) (p : PortId) (f : Port → Port) : (State.setPort s p f).lifeOlder = s.lifeOlder := (setPort_same ..).lifeOlder rfl
@[simp] theorem setPort_proofs (s : State) (p : PortId) (f : Port → Port) : (State.setPort s p f).proofs = s.proofs := (setPort_same ..).proofs rfl
@[simp] theorem setPort_recorder (s : State) (p : PortId) (f : Port → Port) : (State.setPort s p f).recorder = s.recorder := (setPort_same ..).recorder rfl
@[simp] theorem setPort_free (s : State) (p : PortId) (f : Port → Port) : (State.setPort s p f).free = s.free := (setPort_same ..).free rfl
@[simp] theorem setPort_pending (s : State) (p : PortId) (f : Port → Port) : (State.setPort s p f).pending = s.pending := (setPort_same ..).pending

@[simp] theorem updBridge_ident (s : State) (f : Bridge → Bridge) : (State.updBridge s f).ident = s.ident := (updBridge_same ..).ident
@[simp] theorem updBridge_power (s : State) (f : Bridge → Bridge) : (State.updBridge s f).power = s.power := (updBridge_same ..).power rfl
@[simp] theorem updBridge_lanes (s : State) (f : Bridge → Bridge) : (State.updBridge s f).lanes = s.lanes := (updBridge_same ..).lanes rfl
@[simp] theorem updBridge_platen (s : State) (f : Bridge → Bridge) : (State.updBridge s f).platen = s.platen := (updBridge_same ..).platen rfl
@[simp] theorem updBridge_field (s : State) (f : Bridge → Bridge) : (State.updBridge s f).field = s.field := (updBridge_same ..).field rfl
@[simp] theorem updBridge_net (s : State) (f : Bridge → Bridge) : (State.updBridge s f).net = s.net := (updBridge_same ..).net rfl
@[simp] theorem updBridge_train (s : State) (f : Bridge → Bridge) : (State.updBridge s f).train = s.train := (updBridge_same ..).train rfl
@[simp] theorem updBridge_duplex (s : State) (f : Bridge → Bridge) : (State.updBridge s f).duplex = s.duplex := (updBridge_same ..).duplex rfl
@[simp] theorem updBridge_host (s : State) (f : Bridge → Bridge) : (State.updBridge s f).host = s.host := (updBridge_same ..).host rfl
@[simp] theorem updBridge_params (s : State) (f : Bridge → Bridge) : (State.updBridge s f).params = s.params := (updBridge_same ..).params rfl
@[simp] theorem updBridge_xchg (s : State) (f : Bridge → Bridge) : (State.updBridge s f).xchg = s.xchg := (updBridge_same ..).xchg rfl
@[simp] theorem updBridge_req (s : State) (f : Bridge → Bridge) : (State.updBridge s f).req = s.req := (updBridge_same ..).req rfl
@[simp] theorem updBridge_crc (s : State) (f : Bridge → Bridge) : (State.updBridge s f).crc = s.crc := (updBridge_same ..).crc rfl
@[simp] theorem updBridge_update (s : State) (f : Bridge → Bridge) : (State.updBridge s f).update = s.update := (updBridge_same ..).update rfl
@[simp] theorem updBridge_life (s : State) (f : Bridge → Bridge) : (State.updBridge s f).life = s.life := (updBridge_same ..).life rfl
@[simp] theorem updBridge_lifeOlder (s : State) (f : Bridge → Bridge) : (State.updBridge s f).lifeOlder = s.lifeOlder := (updBridge_same ..).lifeOlder rfl
@[simp] theorem updBridge_proofs (s : State) (f : Bridge → Bridge) : (State.updBridge s f).proofs = s.proofs := (updBridge_same ..).proofs rfl
@[simp] theorem updBridge_recorder (s : State) (f : Bridge → Bridge) : (State.updBridge s f).recorder = s.recorder := (updBridge_same ..).recorder rfl
@[simp] theorem updBridge_free (s : State) (f : Bridge → Bridge) : (State.updBridge s f).free = s.free := (updBridge_same ..).free rfl
@[simp] theorem updBridge_pending (s : State) (f : Bridge → Bridge) : (State.updBridge s f).pending = s.pending := (updBridge_same ..).pending

@[simp] theorem storeProof_ident (s : State) (r : ProofRec) : (State.storeProof s r).ident = s.ident := (storeProof_same ..).ident
@[simp] theorem storeProof_power (s : State) (r : ProofRec) : (State.storeProof s r).power = s.power := (storeProof_same ..).power rfl
@[simp] theorem storeProof_lanes (s : State) (r : ProofRec) : (State.storeProof s r).lanes = s.lanes := (storeProof_same ..).lanes rfl
@[simp] theorem storeProof_platen (s : State) (r : ProofRec) : (State.storeProof s r).platen = s.platen := (storeProof_same ..).platen rfl
@[simp] theorem storeProof_field (s : State) (r : ProofRec) : (State.storeProof s r).field = s.field := (storeProof_same ..).field rfl
@[simp] theorem storeProof_net (s : State) (r : ProofRec) : (State.storeProof s r).net = s.net := (storeProof_same ..).net rfl
@[simp] theorem storeProof_train (s : State) (r : ProofRec) : (State.storeProof s r).train = s.train := (storeProof_same ..).train rfl
@[simp] theorem storeProof_duplex (s : State) (r : ProofRec) : (State.storeProof s r).duplex = s.duplex := (storeProof_same ..).duplex rfl
@[simp] theorem storeProof_host (s : State) (r : ProofRec) : (State.storeProof s r).host = s.host := (storeProof_same ..).host rfl
@[simp] theorem storeProof_params (s : State) (r : ProofRec) : (State.storeProof s r).params = s.params := (storeProof_same ..).params rfl
@[simp] theorem storeProof_xchg (s : State) (r : ProofRec) : (State.storeProof s r).xchg = s.xchg := (storeProof_same ..).xchg rfl
@[simp] theorem storeProof_req (s : State) (r : ProofRec) : (State.storeProof s r).req = s.req := (storeProof_same ..).req rfl
@[simp] theorem storeProof_crc (s : State) (r : ProofRec) : (State.storeProof s r).crc = s.crc := (storeProof_same ..).crc rfl
@[simp] theorem storeProof_bridge (s : State) (r : ProofRec) : (State.storeProof s r).bridge = s.bridge := (storeProof_same ..).bridge rfl
@[simp] theorem storeProof_update (s : State) (r : ProofRec) : (State.storeProof s r).update = s.update := (storeProof_same ..).update rfl
@[simp] theorem storeProof_life (s : State) (r : ProofRec) : (State.storeProof s r).life = s.life := (storeProof_same ..).life rfl
@[simp] theorem storeProof_lifeOlder (s : State) (r : ProofRec) : (State.storeProof s r).lifeOlder = s.lifeOlder := (storeProof_same ..).lifeOlder rfl
@[simp] theorem storeProof_free (s : State) (r : ProofRec) : (State.storeProof s r).free = s.free := (storeProof_same ..).free rfl
@[simp] theorem storeProof_pending (s : State) (r : ProofRec) : (State.storeProof s r).pending = s.pending := (storeProof_same ..).pending

@[simp] theorem fresh_ident (s : State) : (State.fresh s).ident = s.ident := (fresh_same ..).ident
@[simp] theorem fresh_power (s : State) : (State.fresh s).power = s.power := (fresh_same ..).power rfl
@[simp] theorem fresh_lanes (s : State) : (State.fresh s).lanes = s.lanes := (fresh_same ..).lanes rfl
@[simp] theorem fresh_platen (s : State) : (State.fresh s).platen = s.platen := (fresh_same ..).platen rfl
@[simp] theorem fresh_field (s : State) : (State.fresh s).field = s.field := (fresh_same ..).field rfl
@[simp] theorem fresh_net (s : State) : (State.fresh s).net = s.net := (fresh_same ..).net rfl
@[simp] theorem fresh_train (s : State) : (State.fresh s).train = s.train := (fresh_same ..).train rfl
@[simp] theorem fresh_duplex (s : State) : (State.fresh s).duplex = s.duplex := (fresh_same ..).duplex rfl
@[simp] theorem fresh_host (s : State) : (State.fresh s).host = s.host := (fresh_same ..).host rfl
@[simp] theorem fresh_params (s : State) : (State.fresh s).params = s.params := (fresh_same ..).params rfl
@[simp] theorem fresh_xchg (s : State) : (State.fresh s).xchg = s.xchg := (fresh_same ..).xchg rfl
@[simp] theorem fresh_req (s : State) : (State.fresh s).req = s.req := (fresh_same ..).req rfl
@[simp] theorem fresh_crc (s : State) : (State.fresh s).crc = s.crc := (fresh_same ..).crc rfl
@[simp] theorem fresh_bridge (s : State) : (State.fresh s).bridge = s.bridge := (fresh_same ..).bridge rfl
@[simp] theorem fresh_update (s : State) : (State.fresh s).update = s.update := (fresh_same ..).update rfl
@[simp] theorem fresh_life (s : State) : (State.fresh s).life = s.life := (fresh_same ..).life rfl
@[simp] theorem fresh_lifeOlder (s : State) : (State.fresh s).lifeOlder = s.lifeOlder := (fresh_same ..).lifeOlder rfl
@[simp] theorem fresh_proofs (s : State) : (State.fresh s).proofs = s.proofs := (fresh_same ..).proofs rfl
@[simp] theorem fresh_recorder (s : State) : (State.fresh s).recorder = s.recorder := (fresh_same ..).recorder rfl
@[simp] theorem fresh_pending (s : State) : (State.fresh s).pending = s.pending := (fresh_same ..).pending

@[simp] theorem applyParams_ident (s : State) (p : Nat → Bool) : (State.applyParams s p).ident = s.ident := (applyParams_same ..).ident
@[simp] theorem applyParams_power (s : State) (p : Nat → Bool) : (State.applyParams s p).power = s.power := (applyParams_same ..).power rfl
@[simp] theorem applyParams_lanes (s : State) (p : Nat → Bool) : (State.applyParams s p).lanes = s.lanes := (applyParams_same ..).lanes rfl
@[simp] theorem applyParams_platen (s : State) (p : Nat → Bool) : (State.applyParams s p).platen = s.platen := (applyParams_same ..).platen rfl
@[simp] theorem applyParams_field (s : State) (p : Nat → Bool) : (State.applyParams s p).field = s.field := (applyParams_same ..).field rfl
@[simp] theorem applyParams_net (s : State) (p : Nat → Bool) : (State.applyParams s p).net = s.net := (applyParams_same ..).net rfl
@[simp] theorem applyParams_train (s : State) (p : Nat → Bool) : (State.applyParams s p).train = s.train := (applyParams_same ..).train rfl
@[simp] theorem applyParams_duplex (s : State) (p : Nat → Bool) : (State.applyParams s p).duplex = s.duplex := (applyParams_same ..).duplex rfl
@[simp] theorem applyParams_host (s : State) (p : Nat → Bool) : (State.applyParams s p).host = s.host := (applyParams_same ..).host rfl
@[simp] theorem applyParams_xchg (s : State) (p : Nat → Bool) : (State.applyParams s p).xchg = s.xchg := (applyParams_same ..).xchg rfl
@[simp] theorem applyParams_req (s : State) (p : Nat → Bool) : (State.applyParams s p).req = s.req := (applyParams_same ..).req rfl
@[simp] theorem applyParams_crc (s : State) (p : Nat → Bool) : (State.applyParams s p).crc = s.crc := (applyParams_same ..).crc rfl
@[simp] theorem applyParams_bridge (s : State) (p : Nat → Bool) : (State.applyParams s p).bridge = s.bridge := (applyParams_same ..).bridge rfl
@[simp] theorem applyParams_update (s : State) (p : Nat → Bool) : (State.applyParams s p).update = s.update := (applyParams_same ..).update rfl
@[simp] theorem applyParams_life (s : State) (p : Nat → Bool) : (State.applyParams s p).life = s.life := (applyParams_same ..).life rfl
@[simp] theorem applyParams_lifeOlder (s : State) (p : Nat → Bool) : (State.applyParams s p).lifeOlder = s.lifeOlder := (applyParams_same ..).lifeOlder rfl
@[simp] theorem applyParams_proofs (s : State) (p : Nat → Bool) : (State.applyParams s p).proofs = s.proofs := (applyParams_same ..).proofs rfl
@[simp] theorem applyParams_recorder (s : State) (p : Nat → Bool) : (State.applyParams s p).recorder = s.recorder := (applyParams_same ..).recorder rfl
@[simp] theorem applyParams_free (s : State) (p : Nat → Bool) : (State.applyParams s p).free = s.free := (applyParams_same ..).free rfl
@[simp] theorem applyParams_pending (s : State) (p : Nat → Bool) : (State.applyParams s p).pending = s.pending := (applyParams_same ..).pending

@[simp] theorem setCell_ident (s : State) (c : ParamCell) : (State.setCell s c).ident = s.ident := (setCell_same ..).ident
@[simp] theorem setCell_power (s : State) (c : ParamCell) : (State.setCell s c).power = s.power := (setCell_same ..).power rfl
@[simp] theorem setCell_lanes (s : State) (c : ParamCell) : (State.setCell s c).lanes = s.lanes := (setCell_same ..).lanes rfl
@[simp] theorem setCell_platen (s : State) (c : ParamCell) : (State.setCell s c).platen = s.platen := (setCell_same ..).platen rfl
@[simp] theorem setCell_field (s : State) (c : ParamCell) : (State.setCell s c).field = s.field := (setCell_same ..).field rfl
@[simp] theorem setCell_net (s : State) (c : ParamCell) : (State.setCell s c).net = s.net := (setCell_same ..).net rfl
@[simp] theorem setCell_train (s : State) (c : ParamCell) : (State.setCell s c).train = s.train := (setCell_same ..).train rfl
@[simp] theorem setCell_duplex (s : State) (c : ParamCell) : (State.setCell s c).duplex = s.duplex := (setCell_same ..).duplex rfl
@[simp] theorem setCell_host (s : State) (c : ParamCell) : (State.setCell s c).host = s.host := (setCell_same ..).host rfl
@[simp] theorem setCell_xchg (s : State) (c : ParamCell) : (State.setCell s c).xchg = s.xchg := (setCell_same ..).xchg rfl
@[simp] theorem setCell_req (s : State) (c : ParamCell) : (State.setCell s c).req = s.req := (setCell_same ..).req rfl
@[simp] theorem setCell_crc (s : State) (c : ParamCell) : (State.setCell s c).crc = s.crc := (setCell_same ..).crc rfl
@[simp] theorem setCell_bridge (s : State) (c : ParamCell) : (State.setCell s c).bridge = s.bridge := (setCell_same ..).bridge rfl
@[simp] theorem setCell_update (s : State) (c : ParamCell) : (State.setCell s c).update = s.update := (setCell_same ..).update rfl
@[simp] theorem setCell_life (s : State) (c : ParamCell) : (State.setCell s c).life = s.life := (setCell_same ..).life rfl
@[simp] theorem setCell_lifeOlder (s : State) (c : ParamCell) : (State.setCell s c).lifeOlder = s.lifeOlder := (setCell_same ..).lifeOlder rfl
@[simp] theorem setCell_proofs (s : State) (c : ParamCell) : (State.setCell s c).proofs = s.proofs := (setCell_same ..).proofs rfl
@[simp] theorem setCell_recorder (s : State) (c : ParamCell) : (State.setCell s c).recorder = s.recorder := (setCell_same ..).recorder rfl
@[simp] theorem setCell_free (s : State) (c : ParamCell) : (State.setCell s c).free = s.free := (setCell_same ..).free rfl
@[simp] theorem setCell_pending (s : State) (c : ParamCell) : (State.setCell s c).pending = s.pending := (setCell_same ..).pending

@[simp] theorem store_ident (s : State) (id : Nat) (v : Nat) : (State.store s id v).ident = s.ident := (store_same ..).ident
@[simp] theorem store_power (s : State) (id : Nat) (v : Nat) : (State.store s id v).power = s.power := (store_same ..).power rfl
@[simp] theorem store_lanes (s : State) (id : Nat) (v : Nat) : (State.store s id v).lanes = s.lanes := (store_same ..).lanes rfl
@[simp] theorem store_platen (s : State) (id : Nat) (v : Nat) : (State.store s id v).platen = s.platen := (store_same ..).platen rfl
@[simp] theorem store_field (s : State) (id : Nat) (v : Nat) : (State.store s id v).field = s.field := (store_same ..).field rfl
@[simp] theorem store_net (s : State) (id : Nat) (v : Nat) : (State.store s id v).net = s.net := (store_same ..).net rfl
@[simp] theorem store_train (s : State) (id : Nat) (v : Nat) : (State.store s id v).train = s.train := (store_same ..).train rfl
@[simp] theorem store_duplex (s : State) (id : Nat) (v : Nat) : (State.store s id v).duplex = s.duplex := (store_same ..).duplex rfl
@[simp] theorem store_host (s : State) (id : Nat) (v : Nat) : (State.store s id v).host = s.host := (store_same ..).host rfl
@[simp] theorem store_xchg (s : State) (id : Nat) (v : Nat) : (State.store s id v).xchg = s.xchg := (store_same ..).xchg rfl
@[simp] theorem store_req (s : State) (id : Nat) (v : Nat) : (State.store s id v).req = s.req := (store_same ..).req rfl
@[simp] theorem store_crc (s : State) (id : Nat) (v : Nat) : (State.store s id v).crc = s.crc := (store_same ..).crc rfl
@[simp] theorem store_bridge (s : State) (id : Nat) (v : Nat) : (State.store s id v).bridge = s.bridge := (store_same ..).bridge rfl
@[simp] theorem store_update (s : State) (id : Nat) (v : Nat) : (State.store s id v).update = s.update := (store_same ..).update rfl
@[simp] theorem store_life (s : State) (id : Nat) (v : Nat) : (State.store s id v).life = s.life := (store_same ..).life rfl
@[simp] theorem store_lifeOlder (s : State) (id : Nat) (v : Nat) : (State.store s id v).lifeOlder = s.lifeOlder := (store_same ..).lifeOlder rfl
@[simp] theorem store_proofs (s : State) (id : Nat) (v : Nat) : (State.store s id v).proofs = s.proofs := (store_same ..).proofs rfl
@[simp] theorem store_recorder (s : State) (id : Nat) (v : Nat) : (State.store s id v).recorder = s.recorder := (store_same ..).recorder rfl
@[simp] theorem store_free (s : State) (id : Nat) (v : Nat) : (State.store s id v).free = s.free := (store_same ..).free rfl
@[simp] theorem store_pending (s : State) (id : Nat) (v : Nat) : (State.store s id v).pending = s.pending := (store_same ..).pending

end Sys2Proof.Laws
end

