-- ==== Sys2Proof/Laws/Code.lean ====
section
/-! SUPPORT. Arithmetic of the code words (R25, R26). -/

set_option Elab.async false

namespace Sys2Proof.Laws

open Sys2Proof Sys2Proof.Machine

theorem codeA_bounds {set : Nat} (h : isCodeSet set = true) : 0 < codeA set ∧ codeA set ≤ 64901 ∧ codeA set % 2 = 1 ∧ set < 16 := by
  unfold isCodeSet at h
  simp only [Bool.or_eq_true, beq_iff_eq] at h
  rcases h with ((rfl | rfl) | rfl) | rfl <;> decide

theorem heldX_lt {set x : Nat} (h : x < 65536) : heldX set x < 65536 := by unfold heldX; split <;> omega

theorem heldX_heldX {set x : Nat} (h : x < 65536) : heldX set (heldX set x) = x := by
  unfold heldX; split <;> omega

theorem codeCV_lt {x id tag set : Nat} (hx : x < 65536) (h : isCodeSet set = true) : codeCV x id tag set < 4294967296 := by
  obtain ⟨h0, h1, _, _⟩ := codeA_bounds h
  have hb : codeB id (codeA set) < codeA set := Nat.mod_lt _ h0
  have hd : codeD tag (codeA set) < codeA set := Nat.mod_lt _ h0
  have hx' := heldX_lt (set := set) hx
  unfold codeCV
  have : codeA set * heldX set x ≤ 64901 * 65535 := Nat.mul_le_mul h1 (by omega)
  omega

theorem packWord_toNat {cv id tag kind set : Nat} (h1 : cv < 4294967296) (h2 : id < 65536) (h3 : kind < 16) (h4 : set < 16) :
    (packWord cv id tag kind set).toNat = cv * 4294967296 + id * 65536 + tag % 256 * 256 + kind * 16 + set := by
  unfold packWord
  rw [BitVec.toNat_ofNat, Nat.mod_eq_of_lt h1, Nat.mod_eq_of_lt h2, Nat.mod_eq_of_lt h3, Nat.mod_eq_of_lt h4]
  apply Nat.mod_eq_of_lt
  omega

/-- The fields of an encoded word. -/
theorem encode_fields {x id tag kind set : Nat} {w : Word64} (hw : encode x id tag kind set = some w) (hx : x < 65536) (hk : kind < 16) :
    isIdentity id = true ∧ isCodeSet set = true ∧ wordCV w = codeCV x id (tag % 256) set ∧ wordId w = id ∧ wordTag w = tag % 256 ∧
    wordKind w = kind ∧ wordSet w = set := by
  unfold encode at hw
  split at hw
  · next h =>
    simp only [Bool.and_eq_true] at h
    obtain ⟨hi, hs⟩ := h
    injection hw with hw
    obtain ⟨_, _, _, h16⟩ := codeA_bounds hs
    have hi' : id < 65536 := by unfold isIdentity at hi; simp at hi; omega
    have hp := packWord_toNat (codeCV_lt (id := id) (tag := tag % 256) hx hs) hi' hk h16 (tag := tag)
    rw [hw] at hp
    refine ⟨hi, hs, ?_, ?_, ?_, ?_, ?_⟩
    · unfold wordCV; rw [hp]; omega
    · unfold wordId; rw [hp]; omega
    · unfold wordTag; rw [hp]; omega
    · unfold wordKind; rw [hp]; omega
    · unfold wordSet; rw [hp]; omega
  · cases hw

theorem xor_one_cases (m : Nat) : m ^^^ 1 = m + 1 ∨ (m ^^^ 1) + 1 = m := by
  have h1 : (m ^^^ 1) / 2 = m / 2 := by rw [Nat.xor_div_two]; simp
  have h2 : (m ^^^ 1) % 2 = (m + 1) % 2 := Nat.xor_mod_two_eq
  omega

theorem xor_two_pow_cases (n i : Nat) : n ^^^ 2 ^ i = n + 2 ^ i ∨ (n ^^^ 2 ^ i) + 2 ^ i = n := by
  have h1 : (n ^^^ 2 ^ i) / 2 ^ i = n / 2 ^ i ^^^ 1 := by rw [Nat.xor_div_two_pow, Nat.div_self (Nat.two_pow_pos i)]
  have h2 : (n ^^^ 2 ^ i) % 2 ^ i = n % 2 ^ i := by rw [Nat.xor_mod_two_pow, Nat.mod_self, Nat.xor_zero]
  have e1 := Nat.div_add_mod (n ^^^ 2 ^ i) (2 ^ i)
  have e2 := Nat.div_add_mod n (2 ^ i)
  rw [h1, h2] at e1
  rcases xor_one_cases (n / 2 ^ i) with h | h
  · rw [h, Nat.mul_add, Nat.mul_one] at e1
    left; omega
  · rw [← h, Nat.mul_add, Nat.mul_one] at e2
    right; omega

theorem two_pow_not_dvd {a i : Nat} (ha : a % 2 = 1) (h1 : 1 < a) : ¬ a ∣ 2 ^ i := by
  intro h
  have hc : Nat.Coprime a (2 ^ i) := Nat.Coprime.pow_right _ (Nat.coprime_two_right.2 (Nat.odd_iff.2 ha))
  have := Nat.Coprime.eq_one_of_dvd hc h
  omega

theorem flip_fields (w : Word64) (i : Nat) (hi : i < 32) :
    wordCV (w ^^^ (1#64 <<< (32 + i))) = wordCV w ^^^ 2 ^ i ∧ wordId (w ^^^ (1#64 <<< (32 + i))) = wordId w ∧
    wordTag (w ^^^ (1#64 <<< (32 + i))) = wordTag w ∧ wordSet (w ^^^ (1#64 <<< (32 + i))) = wordSet w := by
  have hn : (w ^^^ (1#64 <<< (32 + i))).toNat = w.toNat ^^^ 2 ^ (32 + i) := by
    rw [BitVec.toNat_xor, BitVec.toNat_shiftLeft]
    congr 1
    have : 2 ^ (32 + i) < 2 ^ 64 := Nat.pow_lt_pow_right (by omega) (by omega)
    rw [Nat.shiftLeft_eq]
    simp only [BitVec.toNat_ofNat]
    rw [show (1 : Nat) % 2 ^ 64 = 1 from rfl, Nat.one_mul]
    exact Nat.mod_eq_of_lt this
  have hp : 2 ^ (32 + i) = 4294967296 * 2 ^ i := by rw [Nat.pow_add]
  have hq : (w.toNat ^^^ 2 ^ (32 + i)) / 4294967296 = w.toNat / 4294967296 ^^^ 2 ^ i := by
    have := Nat.xor_div_two_pow (a := w.toNat) (b := 2 ^ (32 + i)) (n := 32)
    rw [show (2 : Nat) ^ 32 = 4294967296 from rfl] at this
    rw [this, hp, Nat.mul_div_cancel_left _ (by omega)]
  have hr : (w.toNat ^^^ 2 ^ (32 + i)) % 4294967296 = w.toNat % 4294967296 := by
    have := Nat.xor_mod_two_pow (a := w.toNat) (b := 2 ^ (32 + i)) (n := 32)
    rw [show (2 : Nat) ^ 32 = 4294967296 from rfl] at this
    rw [this, hp, Nat.mul_mod_right, Nat.xor_zero]
  refine ⟨?_, ?_, ?_, ?_⟩
  · unfold wordCV; rw [hn, hq]
  all_goals
    first | unfold wordId | unfold wordTag | unfold wordSet
    rw [hn]
    omega

end Sys2Proof.Laws
end

