-- ==== Sys2Proof/Laws/Commands.lean ====
section
/-! SUPPORT. The footprint of each command, and of `exec`. -/

set_option Elab.async false

namespace Sys2Proof.Laws

open Sys2Proof Sys2Proof.Machine

theorem execMotStatus_same (e : Entry) (s : State) : Leads 0x40100 s (execMotStatus e s) := by
  refine Leads.next (command_same (fun o v => ?_) rfl)
  try dsimp only
  repeat' first
    | with_reducible exact Same.refl ..
    | with_reducible refine Same.ite ?_ ?_
    | refine Same.chain ?_ (badPayload_same ..) rfl
    | refine Same.chain ?_ (answerFunc_same ..) rfl

theorem execCrcFeed_same (e : Entry) (s : State) : Leads 0x2041100 s (execCrcFeed e s) := by
  refine Leads.next (command_same (fun o v => ?_) rfl)
  try dsimp only
  repeat' first
    | with_reducible exact Same.refl ..
    | with_reducible refine Same.ite ?_ ?_
    | refine Same.chain ?_ (crcFeed_same ..) rfl
    | refine Same.chain ?_ (badPayload_same ..) rfl

theorem execIlkAuxStage_same (e : Entry) (s : State) : Leads 0x1040900 s (execIlkAuxStage e s) := by
  refine Leads.next (command_same (fun o v => ?_) rfl)
  try dsimp only
  repeat' first
    | with_reducible exact Same.refl ..
    | with_reducible refine Same.ite ?_ ?_
    | refine Same.chain ?_ (request_same ..) rfl
    | refine Same.chain ?_ (badPayload_same ..) rfl

theorem execHstPortRestart_same (e : Entry) (s : State) : Leads 0x41300 s (execHstPortRestart e s) := by
  refine Leads.next (command_same (fun o v => ?_) rfl)
  try dsimp only
  repeat' first
    | with_reducible exact Same.refl ..
    | with_reducible refine Same.ite ?_ ?_
    | refine Same.chain ?_ (closeSessions_same ..) rfl
    | refine Same.chain ?_ (applyParams_same ..) rfl
    | refine Same.chain ?_ (answer_same ..) rfl

theorem execLinkDown_same (p : PortId) (cause : Nat) (s : State) : Leads 0x40120 s (execLinkDown p cause s) := by
  unfold execLinkDown
  try dsimp only
  repeat' first
    | exact Same.refl ..
    | refine Leads.next ?_
    | split
    | refine Same.chain ?_ (linkLost_same ..) rfl
    | refine Same.chain ?_ (setPort_same ..) rfl

theorem execGateDriveLoss_same (l : LaneId) (s : State) : Leads 0x4 s (execGateDriveLoss l s) := by
  unfold execGateDriveLoss
  try dsimp only
  repeat' first
    | exact Same.refl ..
    | refine Leads.next ?_
    | split
    | refine Same.chain ?_ (updLane_same ..) rfl

theorem execAuxWindowExpiry_same (authority : Nat) (s : State) : Leads 0x4 s (execAuxWindowExpiry authority s) := by
  unfold execAuxWindowExpiry
  try dsimp only
  repeat' first
    | exact Same.refl ..
    | refine Leads.next ?_
    | split
    | refine Same.chain ?_ (laneOp_same ..) rfl

theorem execIntegrationComplete_same (s : State) : Leads 0x60 s (execIntegrationComplete s) := by
  unfold execIntegrationComplete
  try dsimp only
  repeat' first
    | exact Same.refl ..
    | refine Leads.next ?_
    | split
    | refine Same.chain ?_ (enterRunning_same ..) rfl

theorem execIlkExchangeStatus_same (e : Entry) (s : State) : Leads 0x40100 s (execIlkExchangeStatus e s) := by
  refine Leads.next (command_same (fun o v => ?_) rfl)
  try dsimp only
  repeat' first
    | with_reducible exact Same.refl ..
    | with_reducible refine Same.ite ?_ ?_
    | refine Same.chain ?_ (answer_same ..) rfl

theorem execUpdBegin_same (e : Entry) (helfinor : Sig) (approval : Sig) (unwraps : Bool) (s : State) : Leads 0x44100 s (execUpdBegin e helfinor approval unwraps s) := by
  refine Leads.next (command_same (fun o v => ?_) rfl)
  try dsimp only
  repeat' first
    | with_reducible exact Same.refl ..
    | with_reducible refine Same.ite ?_ ?_
    | refine Same.chain ?_ (refuseColophon_same ..) rfl
    | refine Same.chain ?_ (beginSession_same ..) rfl
    | refine Same.fold (fun t x => ?_) _ ?_
    | split

theorem execPwrStatus_same (e : Entry) (s : State) : Leads 0x40100 s (execPwrStatus e s) := by
  refine Leads.next (command_same (fun o v => ?_) rfl)
  try dsimp only
  repeat' first
    | with_reducible exact Same.refl ..
    | with_reducible refine Same.ite ?_ ?_
    | refine Same.chain ?_ (answer_same ..) rfl

theorem execSideBandPoll_same (slot : Nat) (block : Option (List Byte)) (s : State) : Leads 0x42100 s (execSideBandPoll slot block s) := by
  unfold execSideBandPoll
  try dsimp only
  repeat' first
    | exact Same.refl ..
    | refine Leads.next ?_
    | split
    | refine Same.chain ?_ (pollStep_same ..) rfl

theorem execQProdWrite_same (queue : Nat) (v : Word32) (unknown : List (Nat × Entry)) (s : State) : Leads 0x40100 s (execQProdWrite queue v unknown s) := by
  unfold execQProdWrite
  try dsimp only
  repeat' first
    | exact Same.refl ..
    | refine Leads.next ?_
    | split
    | refine Same.chain ?_ (unknownCommand_same ..) rfl
    | refine Same.chain ?_ (writeProd_same ..) rfl
    | refine Same.fold (fun t x => ?_) _ ?_

theorem execQConsWrite_same (queue : Nat) (v : Word32) (s : State) : Leads 0x2100 s (execQConsWrite queue v s) := by
  unfold execQConsWrite
  try dsimp only
  repeat' first
    | exact Same.refl ..
    | refine Leads.next ?_
    | split
    | refine Same.chain ?_ (writeCons_same ..) rfl

theorem execQCfgWrite_same (queue : Nat) (v : Word32) (s : State) : Leads 0x2100 s (execQCfgWrite queue v s) := by
  unfold execQCfgWrite
  try dsimp only
  repeat' first
    | exact Same.refl ..
    | refine Leads.next ?_
    | split
    | refine Same.chain ?_ (writeCfg_same ..) rfl

theorem execCdcTimeout_same (i : Island) (x : Crossing) (s : State) : Leads 0x40126 s (execCdcTimeout i x s) := by
  unfold execCdcTimeout
  try dsimp only
  repeat' first
    | exact Same.refl ..
    | refine Leads.next ?_
    | split
    | refine Same.chain ?_ (crossingTimeout_same ..) rfl
    | refine Same.chain ?_ (crossingLost_same ..) rfl

theorem execIlkForceClear_same (e : Entry) (s : State) : Leads 0x1040900 s (execIlkForceClear e s) := by
  refine Leads.next (command_same (fun o v => ?_) rfl)
  try dsimp only
  repeat' first
    | with_reducible exact Same.refl ..
    | with_reducible refine Same.ite ?_ ?_
    | refine Same.chain ?_ (file_same ..) rfl
    | refine Same.chain ?_ (badPayload_same ..) rfl
    | refine Same.chain ?_ (answer_same ..) rfl

theorem execOverrunLimit_same (late : List LaneId) (s : State) : Leads 0x401bc s (execOverrunLimit late s) := by
  unfold execOverrunLimit
  try dsimp only
  repeat' first
    | exact Same.refl ..
    | refine Leads.next ?_
    | split
    | refine Same.chain ?_ (enterSafe_same ..) rfl

theorem execOutputOverload_same (vital : Bool) (ch : Nat) (s : State) : Leads 0x40110 s (execOutputOverload vital ch s) := by
  unfold execOutputOverload
  try dsimp only
  repeat' first
    | exact Same.refl ..
    | refine Leads.next ?_
    | split
    | refine Same.chain ?_ (overloadOutput_same ..) rfl

theorem execTunnelTransmitEntry_same (channel : Nat) (e : TunnelEntry) (s : State) : Leads 0x42100 s (execTunnelTransmitEntry channel e s) := by
  unfold execTunnelTransmitEntry
  try dsimp only
  repeat' first
    | exact Same.refl ..
    | refine Leads.next ?_
    | split
    | refine Same.chain ?_ (tunnelIn_same ..) rfl

theorem execRecList_same (e : Entry) (s : State) : Leads 0x40100 s (execRecList e s) := by
  refine Leads.next (command_same (fun o v => ?_) rfl)
  try dsimp only
  repeat' first
    | with_reducible exact Same.refl ..
    | with_reducible refine Same.ite ?_ ?_
    | refine Same.chain ?_ (badPayload_same ..) rfl
    | refine Same.chain ?_ (answer_same ..) rfl

theorem execNetStop_same (e : Entry) (s : State) : Leads 0x40120 s (execNetStop e s) := by
  refine Leads.next (command_same (fun o v => ?_) rfl)
  try dsimp only
  repeat' first
    | with_reducible exact Same.refl ..
    | with_reducible refine Same.ite ?_ ?_
    | refine Same.chain ?_ (stopNet_same ..) rfl
    | refine Same.chain ?_ (answer_same ..) rfl

theorem execGrdStatus_same (e : Entry) (s : State) : Leads 0x40100 s (execGrdStatus e s) := by
  refine Leads.next (command_same (fun o v => ?_) rfl)
  try dsimp only
  repeat' first
    | with_reducible exact Same.refl ..
    | with_reducible refine Same.ite ?_ ?_
    | refine Same.chain ?_ (badPayload_same ..) rfl
    | refine Same.chain ?_ (answerFunc_same ..) rfl

theorem execNetStatus_same (e : Entry) (s : State) : Leads 0x40100 s (execNetStatus e s) := by
  refine Leads.next (command_same (fun o v => ?_) rfl)
  try dsimp only
  repeat' first
    | with_reducible exact Same.refl ..
    | with_reducible refine Same.ite ?_ ?_
    | refine Same.chain ?_ (answer_same ..) rfl

theorem execCrcWrite_same (e : Entry) (s : State) : Leads 0x2041100 s (execCrcWrite e s) := by
  refine Leads.next (command_same (fun o v => ?_) rfl)
  try dsimp only
  repeat' first
    | with_reducible exact Same.refl ..
    | with_reducible refine Same.ite ?_ ?_
    | refine Same.chain ?_ (crcWrite_same ..) rfl
    | refine Same.chain ?_ (badPayload_same ..) rfl

theorem execLinkRetry_same (p : PortId) (s : State) : Leads 0x20 s (execLinkRetry p s) := by
  unfold execLinkRetry
  try dsimp only
  repeat' first
    | exact Same.refl ..
    | refine Leads.next ?_
    | split
    | refine Same.chain ?_ (setPort_same ..) rfl

theorem execHstSessionClose_same (e : Entry) (s : State) : Leads 0x41100 s (execHstSessionClose e s) := by
  refine Leads.next (command_same (fun o v => ?_) rfl)
  try dsimp only
  repeat' first
    | with_reducible exact Same.refl ..
    | with_reducible refine Same.ite ?_ ?_
    | refine Same.chain ?_ (closeSessions_same ..) rfl
    | refine Same.chain ?_ (answer_same ..) rfl

theorem execInaugurationTimeout_same (s : State) : Leads 0x40160 s (execInaugurationTimeout s) := by
  unfold execInaugurationTimeout
  try dsimp only
  repeat' first
    | exact Same.refl ..
    | refine Leads.next ?_
    | split
    | refine Same.chain ?_ (newAttempt_same ..) rfl
    | refine Same.chain ?_ (failAttempt_same ..) rfl

theorem execLaneIsolation_same (s : State) : Leads 0x6810c s (execLaneIsolation s) := by
  unfold execLaneIsolation
  try dsimp only
  repeat' first
    | exact Same.refl ..
    | refine Leads.next ?_
    | split
    | refine Same.chain ?_ (isolate_same ..) rfl

theorem execFrequencyPulse_same (ch : Nat) (p : FreqPulse) (miss : Nat) (s : State) : Leads 0x40010 s (execFrequencyPulse ch p miss s) := by
  unfold execFrequencyPulse
  try dsimp only
  repeat' first
    | exact Same.refl ..
    | refine Leads.next ?_
    | split
    | refine Same.chain ?_ (frequencyPulse_same ..) rfl

theorem execUpdVerify_same (e : Entry) (s : State) : Leads 0x44100 s (execUpdVerify e s) := by
  refine Leads.next (command_same (fun o v => ?_) rfl)
  try dsimp only
  repeat' first
    | with_reducible exact Same.refl ..
    | with_reducible refine Same.ite ?_ ?_
    | refine Same.chain ?_ (beginVerify_same ..) rfl
    | refine withSession_same (fun q t => ?_) (Same.refl ..) rfl

theorem execTrainFailRetry_same (s : State) : Leads 0x40160 s (execTrainFailRetry s) := by
  unfold execTrainFailRetry
  try dsimp only
  repeat' first
    | exact Same.refl ..
    | refine Leads.next ?_
    | split
    | refine Same.chain ?_ (newAttempt_same ..) rfl

theorem execBrgStatus_same (e : Entry) (s : State) : Leads 0x40100 s (execBrgStatus e s) := by
  refine Leads.next (command_same (fun o v => ?_) rfl)
  try dsimp only
  repeat' first
    | with_reducible exact Same.refl ..
    | with_reducible refine Same.ite ?_ ?_
    | refine Same.chain ?_ (answer_same ..) rfl

theorem execReadTimeout_same (tag : Nat) (s : State) : Leads 0x42100 s (execReadTimeout tag s) := by
  unfold execReadTimeout
  try dsimp only
  repeat' first
    | exact Same.refl ..
    | refine Leads.next ?_
    | split
    | refine Same.chain ?_ (endRead_same ..) rfl

theorem execSweepSend_same (s : State) : Leads 0x60 s (execSweepSend s) := by
  unfold execSweepSend
  split
  · refine Leads.ite (Leads.next ?_) (Leads.next (Same.refl ..))
    exact Same.fold (fun t p => sendSweep_same ..) _ (Same.upd _)
  · exact Leads.next (Same.refl ..)

theorem execDarkTestOutput_same (vo : Nat) (d : DarkSample) (s : State) : Leads 0x40010 s (execDarkTestOutput vo d s) := by
  unfold execDarkTestOutput
  try dsimp only
  repeat' first
    | exact Same.refl ..
    | refine Leads.next ?_
    | split
    | refine Same.chain ?_ (sampleOutput_same ..) rfl
    | refine Same.chain ?_ (pulseOutput_same ..) rfl

theorem execAuthLockoutEnd_same (udp : Bool) (s : State) : Leads 0x100 s (execAuthLockoutEnd udp s) := by
  unfold execAuthLockoutEnd
  split
  · exact Leads.next (Same.upd _)
  · exact Leads.next (Same.refl ..)

theorem execNetStart_same (e : Entry) (s : State) : Leads 0x40360 s (execNetStart e s) := by
  refine Leads.next (command_same (fun o v => ?_) rfl)
  try dsimp only
  repeat' first
    | with_reducible exact Same.refl ..
    | with_reducible refine Same.ite ?_ ?_
    | refine Same.chain ?_ (netStart_same ..) rfl
    | refine Same.chain ?_ (badPayload_same ..) rfl

theorem execClockFault_same (i : Island) (s : State) : Leads 0x45dbe s (execClockFault i s) := by
  unfold execClockFault
  try dsimp only
  repeat' first
    | exact Same.refl ..
    | refine Leads.next ?_
    | split
    | refine Same.chain ?_ (clockFaultHeld_same ..) rfl
    | refine Same.chain ?_ (clockFault_same ..) rfl

theorem execAxleSequence_same (even : Nat) (p : AxlePulse) (s : State) : Leads 0x40010 s (execAxleSequence even p s) := by
  unfold execAxleSequence
  try dsimp only
  repeat' first
    | exact Same.refl ..
    | refine Leads.next ?_
    | split
    | refine Same.chain ?_ (axle_same ..) rfl

theorem execRecStatus_same (e : Entry) (s : State) : Leads 0x40100 s (execRecStatus e s) := by
  refine Leads.next (command_same (fun o v => ?_) rfl)
  try dsimp only
  repeat' first
    | with_reducible exact Same.refl ..
    | with_reducible refine Same.ite ?_ ?_
    | refine Same.chain ?_ (answer_same ..) rfl

theorem execTelegramReceive_same (port : Nat) (t : Telegram) (s : State) : Leads 0x42100 s (execTelegramReceive port t s) := by
  unfold execTelegramReceive
  try dsimp only
  repeat' first
    | exact Same.refl ..
    | refine Leads.next ?_
    | split
    | refine Same.chain ?_ (telegramOn_same ..) rfl

theorem execLinkSyncAcquired_same (p : PortId) (s : State) : Leads 0x20 s (execLinkSyncAcquired p s) := by
  unfold execLinkSyncAcquired
  try dsimp only
  repeat' first
    | exact Same.refl ..
    | refine Leads.next ?_
    | split
    | refine Same.chain ?_ (setPort_same ..) rfl

theorem execReset_same (s : State) : Leads 0x113e s (execReset s) := by
  unfold execReset
  try dsimp only
  repeat' first
    | exact Same.refl ..
    | refine Leads.next ?_
    | split
    | refine Same.chain ?_ (acceptReset_same ..) rfl
    | refine Same.chain ?_ (updPower_same ..) rfl

theorem execBackoffExpiry_same (s : State) : Leads 0x20 s (execBackoffExpiry s) := by
  unfold execBackoffExpiry
  try dsimp only
  repeat' first
    | exact Same.refl ..
    | refine Leads.next ?_
    | split
    | refine Same.fold (fun t x => ?_) _ ?_
    | fail_if_no_progress refine Same.chain (k' := 0x20) ?_ (Same.upd _) rfl

theorem execHoldupLow_same (mv : Nat) (s : State) : Leads 0x40102 s (execHoldupLow mv s) := by
  unfold execHoldupLow
  try dsimp only
  repeat' first
    | exact Same.refl ..
    | refine Leads.next ?_
    | split
    | refine Same.chain ?_ (holdupLow_same ..) rfl

theorem execLaneRejoin_same (x : Sample) (s : State) : Leads 0x60dfe s (execLaneRejoin x s) := by
  unfold execLaneRejoin
  try dsimp only
  repeat' first
    | exact Same.refl ..
    | refine Leads.next ?_
    | split
    | refine Same.chain ?_ (rejoinStrobe_same ..) rfl
    | refine Same.chain ?_ (followTarget_same ..) rfl

theorem execExchangeCycle_same (x : Sample) (failed : List LaneId) (s : State) : Leads 0x40cfe s (execExchangeCycle x failed s) := by
  unfold execExchangeCycle
  try dsimp only
  repeat' first
    | exact Same.refl ..
    | refine Leads.next ?_
    | split
    | refine Same.chain ?_ (exchangeStrobe_same ..) rfl
    | refine Same.chain ?_ (followTarget_same ..) rfl

theorem execCdcStatusClear_same (v : Word32) (s : State) : Leads 0x100 s (execCdcStatusClear v s) := by
  unfold execCdcStatusClear
  try dsimp only
  repeat' first
    | exact Same.refl ..
    | refine Leads.next ?_
    | split
    | refine Same.chain ?_ (clearCdc_same ..) rfl

theorem execDupStatus_same (e : Entry) (s : State) : Leads 0x40100 s (execDupStatus e s) := by
  refine Leads.next (command_same (fun o v => ?_) rfl)
  try dsimp only
  repeat' first
    | with_reducible exact Same.refl ..
    | with_reducible refine Same.ite ?_ ?_
    | refine Same.chain ?_ (answer_same ..) rfl

theorem execQueueStall_same (e : Entry) (s : State) : Leads 0x40100 s (execQueueStall e s) := by
  unfold execQueueStall
  try dsimp only
  repeat' first
    | exact Same.refl ..
    | refine Leads.next ?_
    | split
    | refine Same.chain ?_ (stall_same ..) rfl
    | refine Same.chain ?_ (updQueue_same ..) rfl

theorem execIlkRouteSet_same (e : Entry) (s : State) : Leads 0x1040900 s (execIlkRouteSet e s) := by
  refine Leads.next (command_same (fun o v => ?_) rfl)
  try dsimp only
  repeat' first
    | with_reducible exact Same.refl ..
    | with_reducible refine Same.ite ?_ ?_
    | refine Same.chain ?_ (request_same ..) rfl
    | refine Same.chain ?_ (badPayload_same ..) rfl

theorem execIlkRouteCancel_same (e : Entry) (s : State) : Leads 0x1040900 s (execIlkRouteCancel e s) := by
  refine Leads.next (command_same (fun o v => ?_) rfl)
  try dsimp only
  repeat' first
    | with_reducible exact Same.refl ..
    | with_reducible refine Same.ite ?_ ?_
    | refine Same.chain ?_ (request_same ..) rfl
    | refine Same.chain ?_ (badPayload_same ..) rfl

theorem execHstSessionProve_same (e : Entry) (sig : Sig) (s : State) : Leads 0x41100 s (execHstSessionProve e sig s) := by
  refine Leads.next (command_same (fun o v => ?_) rfl)
  try dsimp only
  repeat' first
    | with_reducible exact Same.refl ..
    | with_reducible refine Same.ite ?_ ?_
    | refine Same.chain ?_ (sessionProve_same ..) rfl
    | refine Same.chain ?_ (badPayload_same ..) rfl

theorem execPointLost_same (p : Nat) (s : State) : Leads 0x4 s (execPointLost p s) := by
  unfold execPointLost
  try dsimp only
  repeat' first
    | exact Same.refl ..
    | refine Leads.next ?_
    | split
    | refine Same.chain ?_ (laneOp_same ..) rfl

theorem execUpdAbort_same (e : Entry) (sig : Sig) (s : State) : Leads 0x5c100 s (execUpdAbort e sig s) := by
  refine Leads.next (command_same (fun o v => ?_) rfl)
  try dsimp only
  repeat' first
    | with_reducible exact Same.refl ..
    | with_reducible refine Same.ite ?_ ?_
    | refine Same.chain ?_ (abortToken_same ..) rfl
    | refine Same.chain ?_ (abortUpdate_same ..) rfl
    | refine withToken_same (fun t => ?_) (Same.refl ..) rfl
    | refine withSession_same (fun q t => ?_) (Same.refl ..) rfl

theorem execFrameReceive_same (p : PortId) (f : Frame) (s : State) : Leads 0x20 s (execFrameReceive p f s) := by
  unfold execFrameReceive
  try dsimp only
  repeat' first
    | exact Same.refl ..
    | refine Leads.next ?_
    | split
    | refine Same.chain ?_ (receive_same ..) rfl
    | refine Same.chain ?_ (integrateOn_same ..) rfl
    | refine Same.chain ?_ (forward_same ..) rfl

theorem execPowerFail_same (s : State) : Leads 0x113e s (execPowerFail s) := by
  unfold execPowerFail
  try dsimp only
  repeat' first
    | exact Same.refl ..
    | refine Leads.next ?_
    | split
    | refine Same.chain ?_ (powerFail_same ..) rfl

theorem execSweepTimeout_same (n : Nat) (s : State) : Leads 0x4 s (execSweepTimeout n s) := by
  unfold execSweepTimeout
  try dsimp only
  repeat' first
    | exact Same.refl ..
    | refine Leads.next ?_
    | split
    | refine Same.chain ?_ (laneOp_same ..) rfl

theorem execRecorderBatch_same (s : State) : Leads 0x40100 s (execRecorderBatch s) := by
  unfold execRecorderBatch
  split
  · next h => exact Leads.next ((applyBatch_same (by simpa using h.2.2)).mono rfl)
  · exact Leads.next (Same.refl ..)

theorem takeSweep_same {k : Nat} (s : State) (p : PortId) (code : Nat) (f : Frame) {act : SweepMsg → State → State}
    (ha : ∀ m t, Same k t (act m t)) (e : 0x20 ||| k = k) : Same k s (s.takeSweep p code f act) := by
  unfold State.takeSweep
  split
  · exact (setPort_same ..).mono e
  · exact Same.ite (((setPort_same ..).mono e).chain (ha ..) (Nat.or_self k)) ((setPort_same ..).mono e)
  · exact Same.refl ..

theorem stopIn_same (s : State) (p : PortId) (f : Frame) : Same 0x40160 s (State.stopIn s p f) := by
  unfold State.stopIn
  split
  · exact (setPort_same ..).mono rfl
  · dsimp only
    refine Same.ite (Same.chain ?_ (loneLine_same ..) rfl) ((setPort_same ..).mono rfl)
    exact ((setPort_same ..).mono rfl).chain (beginAttempt_same ..) rfl
  · exact Same.refl ..

theorem execSweepFrame_same (p : PortId) (f : Frame) (s : State) : Leads 0x40160 s (execSweepFrame p f s) := by
  unfold execSweepFrame
  exact Leads.ite (Leads.next (takeSweep_same _ _ _ _ (fun m t => sweepIn_same ..) rfl)) (Leads.next (Same.refl ..))

theorem execIlkExchangeCommit_same (e : Entry) (s : State) : Leads 0x40500 s (execIlkExchangeCommit e s) := by
  refine Leads.next (command_same (fun o v => ?_) rfl)
  try dsimp only
  repeat' first
    | with_reducible exact Same.refl ..
    | with_reducible refine Same.ite ?_ ?_
    | refine Same.chain ?_ (commitExchange_same ..) rfl
    | refine Same.chain ?_ (badPayload_same ..) rfl

theorem execUpdConfirm_same (e : Entry) (sig : Sig) (s : State) : Leads 0x5c100 s (execUpdConfirm e sig s) := by
  refine Leads.next (command_same (fun o v => ?_) rfl)
  try dsimp only
  repeat' first
    | with_reducible exact Same.refl ..
    | with_reducible refine Same.ite ?_ ?_
    | refine Same.chain ?_ (confirm_same ..) rfl
    | refine withToken_same (fun t => ?_) (Same.refl ..) rfl
    | refine withSession_same (fun q t => ?_) (Same.refl ..) rfl

theorem execCycleCountRead_same (stopped : Bool) (s : State) : Leads 0x40102 s (execCycleCountRead stopped s) := by
  unfold execCycleCountRead
  try dsimp only
  repeat' first
    | exact Same.refl ..
    | refine Leads.next ?_
    | split
    | refine Same.chain ?_ (crossingTimeout_same ..) rfl
    | refine Same.chain ?_ (abort_same ..) rfl

theorem execVsRange_same (mv : Nat) (s : State) : Leads 0x40102 s (execVsRange mv s) := by
  unfold execVsRange
  try dsimp only
  repeat' first
    | exact Same.refl ..
    | refine Leads.next ?_
    | split
    | refine Same.chain ?_ (raiseWith_same ..) rfl
    | refine Same.chain ?_ (updPower_same ..) rfl

theorem execWarningTimeExpiry_same (x : Nat) (s : State) : Leads 0x4 s (execWarningTimeExpiry x s) := by
  unfold execWarningTimeExpiry
  try dsimp only
  repeat' first
    | exact Same.refl ..
    | refine Leads.next ?_
    | split
    | refine Same.chain ?_ (laneOp_same ..) rfl

theorem execLaneRailFault_same (l : LaneId) (s : State) : Leads 0x401be s (execLaneRailFault l s) := by
  unfold execLaneRailFault
  try dsimp only
  repeat' first
    | exact Same.refl ..
    | refine Leads.next ?_
    | split
    | refine Same.chain ?_ (holdLane_same ..) rfl

theorem execPendingSessionExpiry_same (session : Nat) (s : State) : Leads 0x41100 s (execPendingSessionExpiry session s) := by
  unfold execPendingSessionExpiry
  try dsimp only
  repeat' first
    | exact Same.refl ..
    | refine Leads.next ?_
    | split
    | refine Same.chain ?_ (closeSessions_same ..) rfl

theorem execIlkForceList_same (e : Entry) (s : State) : Leads 0x40100 s (execIlkForceList e s) := by
  refine Leads.next (command_same (fun o v => ?_) rfl)
  try dsimp only
  repeat' first
    | with_reducible exact Same.refl ..
    | with_reducible refine Same.ite ?_ ?_
    | refine Same.chain ?_ (answer_same ..) rfl

theorem execEndChange_same (e : Nat) (s : State) : Leads 0x40160 s (execEndChange e s) := by
  unfold execEndChange
  try dsimp only
  repeat' first
    | exact Same.refl ..
    | refine Leads.next ?_
    | split
    | refine Same.chain ?_ (newAttempt_same ..) rfl
    | refine Same.fold (fun t x => ?_) _ ?_
    | fail_if_no_progress refine Same.chain (k' := 0x40160) ?_ (Same.upd _) rfl

theorem execIlkRouteReclear_same (e : Entry) (s : State) : Leads 0x1040900 s (execIlkRouteReclear e s) := by
  refine Leads.next (command_same (fun o v => ?_) rfl)
  try dsimp only
  repeat' first
    | with_reducible exact Same.refl ..
    | with_reducible refine Same.ite ?_ ?_
    | refine Same.chain ?_ (request_same ..) rfl
    | refine Same.chain ?_ (badPayload_same ..) rfl

theorem execSimultaneityExpiry_same (f : Nat) (s : State) : Leads 0x4 s (execSimultaneityExpiry f s) := by
  unfold execSimultaneityExpiry
  try dsimp only
  repeat' first
    | exact Same.refl ..
    | refine Leads.next ?_
    | split
    | refine Same.chain ?_ (laneOp_same ..) rfl

theorem execFieldLink_same (s : State) : Leads 0x40110 s (execFieldLink s) := by
  unfold execFieldLink
  try dsimp only
  repeat' first
    | exact Same.refl ..
    | refine Leads.next ?_
    | split
    | refine Same.chain ?_ (loseField_same ..) rfl

theorem execRecClear_same (e : Entry) (sig : Sig) (s : State) : Leads 0x1058100 s (execRecClear e sig s) := by
  refine Leads.next (command_same (fun o v => ?_) rfl)
  try dsimp only
  repeat' first
    | with_reducible exact Same.refl ..
    | with_reducible refine Same.ite ?_ ?_
    | refine Same.chain ?_ (recClear_same ..) rfl
    | refine withToken_same (fun t => ?_) (Same.refl ..) rfl

theorem execStrobeTimeout_same (l : LaneId) (s : State) : Leads 0x401bc s (execStrobeTimeout l s) := by
  unfold execStrobeTimeout
  try dsimp only
  repeat' first
    | exact Same.refl ..
    | refine Leads.next ?_
    | split
    | refine Same.chain ?_ (askSafe_same ..) rfl

theorem execGuardianTrip_same (p : PortId) (s : State) : Leads 0x40120 s (execGuardianTrip p s) := by
  unfold execGuardianTrip
  try dsimp only
  repeat' first
    | exact Same.refl ..
    | refine Leads.next ?_
    | split
    | refine Same.chain ?_ (guardianTrip_same ..) rfl

theorem execPermitExpiry_same (l : LaneId) (item : Nat) (s : State) : Leads 0x10 s (execPermitExpiry l item s) := by
  unfold execPermitExpiry
  try dsimp only
  repeat' first
    | exact Same.refl ..
    | refine Leads.next ?_
    | split
    | refine Same.fold (fun t x => ?_) _ ?_
    | fail_if_no_progress refine Same.chain (k' := 0x10) ?_ (Same.upd _) rfl

theorem execCrcOpen_same (e : Entry) (s : State) : Leads 0x2041100 s (execCrcOpen e s) := by
  refine Leads.next (command_same (fun o v => ?_) rfl)
  try dsimp only
  repeat' first
    | with_reducible exact Same.refl ..
    | with_reducible refine Same.ite ?_ ?_
    | refine Same.chain ?_ (crcOpen_same ..) rfl
    | refine Same.chain ?_ (badPayload_same ..) rfl

theorem execVerificationComplete_same (digest : Digest) (chunks : ChunkReads) (s : State) : Leads 0x44100 s (execVerificationComplete digest chunks s) := by
  unfold execVerificationComplete
  try dsimp only
  repeat' first
    | exact Same.refl ..
    | refine Leads.next ?_
    | split
    | refine Same.chain ?_ (verified_same ..) rfl

theorem execCrossingFail_same (x : Nat) (s : State) : Leads 0x4 s (execCrossingFail x s) := by
  unfold execCrossingFail
  try dsimp only
  repeat' first
    | exact Same.refl ..
    | refine Leads.next ?_
    | split
    | refine Same.chain ?_ (laneOp_same ..) rfl

theorem execAuxNotCounted_same (authority : Nat) (s : State) : Leads 0x4 s (execAuxNotCounted authority s) := by
  unfold execAuxNotCounted
  try dsimp only
  repeat' first
    | exact Same.refl ..
    | refine Leads.next ?_
    | split
    | refine Same.chain ?_ (laneOp_same ..) rfl

theorem execUpdExpired_same (s : State) : Leads 0x44100 s (execUpdExpired s) := by
  unfold execUpdExpired
  try dsimp only
  repeat' first
    | exact Same.refl ..
    | refine Leads.next ?_
    | split
    | refine Same.chain ?_ (raiseWith_same ..) rfl
    | refine Same.fold (fun t x => ?_) _ ?_
    | fail_if_no_progress refine Same.chain (k' := 0x44100) ?_ (Same.upd _) rfl

theorem execCrcClose_same (e : Entry) (s : State) : Leads 0x41100 s (execCrcClose e s) := by
  refine Leads.next (command_same (fun o v => ?_) rfl)
  try dsimp only
  repeat' first
    | with_reducible exact Same.refl ..
    | with_reducible refine Same.ite ?_ ?_
    | refine Same.chain ?_ (badPayload_same ..) rfl
    | refine Same.chain ?_ (answer_same ..) rfl
    | refine Same.fold (fun t x => ?_) _ ?_
    | split
    | fail_if_no_progress refine Same.chain (k' := 0x41100) ?_ (Same.upd _) rfl

theorem execNetCounters_same (e : Entry) (s : State) : Leads 0x40100 s (execNetCounters e s) := by
  refine Leads.next (command_same (fun o v => ?_) rfl)
  try dsimp only
  repeat' first
    | with_reducible exact Same.refl ..
    | with_reducible refine Same.ite ?_ ?_
    | refine Same.chain ?_ (answer_same ..) rfl

theorem execResetRelease_same (f : StartFacts) (s : State) : Leads 0x67fffe s (execResetRelease f s) := by
  unfold execResetRelease
  try dsimp only
  repeat' first
    | exact Same.refl ..
    | refine Leads.next ?_
    | split
    | refine Same.chain ?_ (start_same ..) rfl
    | refine Same.chain ?_ (updPower_same ..) rfl

theorem execIcmpEcho_same (target : Nat) (data : List Byte) (s : State) : Leads 0x100 s (execIcmpEcho target data s) := by
  unfold execIcmpEcho
  try dsimp only
  repeat' first
    | exact Same.refl ..
    | refine Leads.next ?_
    | split
    | refine Same.chain ?_ (portSend_same ..) rfl

theorem execPointStroke_same (p : Nat) (s : State) : Leads 0x4 s (execPointStroke p s) := by
  unfold execPointStroke
  try dsimp only
  repeat' first
    | exact Same.refl ..
    | refine Leads.next ?_
    | split
    | refine Same.chain ?_ (laneOp_same ..) rfl

theorem execFieldSupplyOutOfRange_same (bank : Nat) (mv : Nat) (s : State) : Leads 0x40110 s (execFieldSupplyOutOfRange bank mv s) := by
  unfold execFieldSupplyOutOfRange
  try dsimp only
  repeat' first
    | exact Same.refl ..
    | refine Leads.next ?_
    | split
    | refine Same.chain ?_ (supplyChange_same ..) rfl

theorem execBrgStop_same (e : Entry) (s : State) : Leads 0x42100 s (execBrgStop e s) := by
  refine Leads.next (command_same (fun o v => ?_) rfl)
  try dsimp only
  repeat' first
    | with_reducible exact Same.refl ..
    | with_reducible refine Same.ite ?_ ?_
    | refine Same.chain ?_ (stopBridge_same ..) rfl
    | refine Same.chain ?_ (answer_same ..) rfl

theorem execIlkExchangeAbort_same (e : Entry) (s : State) : Leads 0x40500 s (execIlkExchangeAbort e s) := by
  refine Leads.next (command_same (fun o v => ?_) rfl)
  try dsimp only
  repeat' first
    | with_reducible exact Same.refl ..
    | with_reducible refine Same.ite ?_ ?_
    | refine Same.chain ?_ (abortExchange_same ..) rfl

theorem execCycleClose_same (s : State) : Leads 0x44d6c s (execCycleClose s) := by
  unfold execCycleClose
  try dsimp only
  repeat' first
    | exact Same.refl ..
    | refine Leads.next ?_
    | split
    | refine Same.chain ?_ (closeCycle_same ..) rfl

theorem execTrnComposition_same (e : Entry) (s : State) : Leads 0x40100 s (execTrnComposition e s) := by
  refine Leads.next (command_same (fun o v => ?_) rfl)
  try dsimp only
  repeat' first
    | with_reducible exact Same.refl ..
    | with_reducible refine Same.ite ?_ ?_
    | refine Same.chain ?_ (answer_same ..) rfl

theorem execNoAgree_same (s : State) : Leads 0x40140 s (execNoAgree s) := by
  unfold execNoAgree
  try dsimp only
  repeat' first
    | exact Same.refl ..
    | refine Leads.next ?_
    | split
    | refine Same.chain ?_ (failAttempt_same ..) rfl

theorem execUpdChunk_same (e : Entry) (tagOk : Bool) (s : State) : Leads 0x44100 s (execUpdChunk e tagOk s) := by
  refine Leads.next (command_same (fun o v => ?_) rfl)
  try dsimp only
  repeat' first
    | with_reducible exact Same.refl ..
    | with_reducible refine Same.ite ?_ ?_
    | refine Same.chain ?_ (chunk_same ..) rfl
    | refine Same.chain ?_ (badPayload_same ..) rfl
    | refine withSession_same (fun q t => ?_) (Same.refl ..) rfl

theorem execLcsKeyWrite_same (e : Entry) (sig : Sig) (s : State) : Leads 0x58100 s (execLcsKeyWrite e sig s) := by
  refine Leads.next (command_same (fun o v => ?_) rfl)
  try dsimp only
  repeat' first
    | with_reducible exact Same.refl ..
    | with_reducible refine Same.ite ?_ ?_
    | refine Same.chain ?_ (lcsKeyWrite_same ..) rfl
    | refine withToken_same (fun t => ?_) (Same.refl ..) rfl

theorem execGuardFeedback_same (f : Nat) (s : State) : Leads 0x4 s (execGuardFeedback f s) := by
  unfold execGuardFeedback
  try dsimp only
  repeat' first
    | exact Same.refl ..
    | refine Leads.next ?_
    | split
    | refine Same.chain ?_ (laneOp_same ..) rfl

theorem execDupSwitchBackFail_same (s : State) : Leads 0x40180 s (execDupSwitchBackFail s) := by
  unfold execDupSwitchBackFail
  try dsimp only
  repeat' first
    | exact Same.refl ..
    | refine Leads.next ?_
    | split
    | refine Same.chain ?_ (raise_same ..) rfl
    | refine Same.fold (fun t x => ?_) _ ?_
    | fail_if_no_progress refine Same.chain (k' := 0x40180) ?_ (Same.upd _) rfl

theorem execRefereeDecide_same (s : State) : Leads 0x80 s (execRefereeDecide s) := by
  unfold execRefereeDecide
  try dsimp only
  repeat' first
    | exact Same.refl ..
    | refine Leads.next ?_
    | split
    | refine Same.fold (fun t x => ?_) _ ?_
    | fail_if_no_progress refine Same.chain (k' := 0x80) ?_ (Same.upd _) rfl

theorem execStopFrame_same (p : PortId) (f : Frame) (s : State) : Leads 0x40160 s (execStopFrame p f s) := by
  unfold execStopFrame
  exact Leads.ite (Leads.next (stopIn_same ..)) (Leads.next (Same.refl ..))

theorem execGalleyReceived_same (copy : LaneId) (lane : LaneId) (bad : List (Nat × Word64)) (s : State) : Leads 0x401bc s (execGalleyReceived copy lane bad s) := by
  unfold execGalleyReceived
  try dsimp only
  repeat' first
    | exact Same.refl ..
    | refine Leads.next ?_
    | split
    | refine Same.chain ?_ (deliver_same ..) rfl

theorem execFieldSupplyInRange_same (bank : Nat) (mv : Nat) (s : State) : Leads 0x40110 s (execFieldSupplyInRange bank mv s) := by
  unfold execFieldSupplyInRange
  try dsimp only
  repeat' first
    | exact Same.refl ..
    | refine Leads.next ?_
    | split
    | refine Same.chain ?_ (supplyChange_same ..) rfl

theorem execDupColdTakeover_same (f : StartFacts) (s : State) : Leads 0x67fffe s (execDupColdTakeover f s) := by
  unfold execDupColdTakeover
  try dsimp only
  repeat' first
    | exact Same.refl ..
    | refine Leads.next ?_
    | split
    | refine Same.chain ?_ (coldTakeover_same ..) rfl

theorem execUpdStatus_same (e : Entry) (s : State) : Leads 0x40100 s (execUpdStatus e s) := by
  refine Leads.next (command_same (fun o v => ?_) rfl)
  try dsimp only
  repeat' first
    | with_reducible exact Same.refl ..
    | with_reducible refine Same.ite ?_ ?_
    | refine Same.chain ?_ (answer_same ..) rfl

theorem execLinkQualification_same (p : PortId) (q : QualResult) (s : State) : Leads 0x40320 s (execLinkQualification p q s) := by
  unfold execLinkQualification
  try dsimp only
  repeat' first
    | exact Same.refl ..
    | refine Leads.next ?_
    | split
    | refine Same.chain ?_ (qualify_same ..) rfl

theorem execNodeLost_same (entry : Nat) (s : State) : Leads 0x40120 s (execNodeLost entry s) := by
  unfold execNodeLost
  try dsimp only
  repeat' first
    | exact Same.refl ..
    | refine Leads.next ?_
    | split
    | refine Same.chain ?_ (nodeLost_same ..) rfl

theorem execOpeningLoweringExpiry_same (x : Nat) (s : State) : Leads 0x4 s (execOpeningLoweringExpiry x s) := by
  unfold execOpeningLoweringExpiry
  try dsimp only
  repeat' first
    | exact Same.refl ..
    | refine Leads.next ?_
    | split
    | refine Same.chain ?_ (laneOp_same ..) rfl

theorem execStewardCtrlRestart_same (v : Word32) (backplane : Bool) (s : State) : Leads 0x45d00 s (execStewardCtrlRestart v backplane s) := by
  unfold execStewardCtrlRestart
  try dsimp only
  repeat' first
    | exact Same.refl ..
    | refine Leads.next ?_
    | split
    | refine Same.chain ?_ (stewardRestart_same ..) rfl

theorem execMarkAccepted_same (s : State) : Leads 0x80 s (execMarkAccepted s) := by
  unfold execMarkAccepted
  try dsimp only
  repeat' first
    | exact Same.refl ..
    | refine Leads.next ?_
    | split
    | refine Same.fold (fun t x => ?_) _ ?_
    | fail_if_no_progress refine Same.chain (k' := 0x80) ?_ (Same.upd _) rfl

theorem execElmBlockSet_same (e : Entry) (s : State) : Leads 0x1040900 s (execElmBlockSet e s) := by
  refine Leads.next (command_same (fun o v => ?_) rfl)
  try dsimp only
  repeat' first
    | with_reducible exact Same.refl ..
    | with_reducible refine Same.ite ?_ ?_
    | refine Same.chain ?_ (request_same ..) rfl
    | refine Same.chain ?_ (badPayload_same ..) rfl

theorem execKern_same (missed : List PortId) (s : State) : Leads 0x40120 s (execKern missed s) := by
  unfold execKern
  try dsimp only
  repeat' first
    | exact Same.refl ..
    | refine Leads.next ?_
    | split
    | refine Same.chain ?_ (runKern_same ..) rfl

theorem execMinislot_same (heard : Option Nat) (s : State) : Leads 0x2020 s (execMinislot heard s) := by
  unfold execMinislot
  try dsimp only
  repeat' first
    | exact Same.refl ..
    | refine Leads.next ?_
    | split
    | refine Same.chain ?_ (minislotStep_same ..) rfl

theorem execElmPointMove_same (e : Entry) (s : State) : Leads 0x1040900 s (execElmPointMove e s) := by
  refine Leads.next (command_same (fun o v => ?_) rfl)
  try dsimp only
  repeat' first
    | with_reducible exact Same.refl ..
    | with_reducible refine Same.ite ?_ ?_
    | refine Same.chain ?_ (request_same ..) rfl
    | refine Same.chain ?_ (badPayload_same ..) rfl

theorem execAutoNegotiation_same (p : PortId) (page : BasePage) (s : State) : Leads 0x20 s (execAutoNegotiation p page s) := by
  unfold execAutoNegotiation
  try dsimp only
  repeat' first
    | exact Same.refl ..
    | refine Leads.next ?_
    | split
    | refine Same.chain ?_ (setPort_same ..) rfl

theorem execCrossingLightsRestored_same (x : Nat) (s : State) : Leads 0x4 s (execCrossingLightsRestored x s) := by
  unfold execCrossingLightsRestored
  try dsimp only
  repeat' first
    | exact Same.refl ..
    | refine Leads.next ?_
    | split
    | refine Same.chain ?_ (laneOp_same ..) rfl

theorem execSignalM0Restore_same (g : Nat) (s : State) : Leads 0x4 s (execSignalM0Restore g s) := by
  unfold execSignalM0Restore
  try dsimp only
  repeat' first
    | exact Same.refl ..
    | refine Leads.next ?_
    | split
    | refine Same.chain ?_ (laneOp_same ..) rfl

theorem execColdstart_same (heard : ColdstartHeard) (s : State) : Leads 0x60 s (execColdstart heard s) := by
  unfold execColdstart
  try dsimp only
  repeat' first
    | exact Same.refl ..
    | refine Leads.next ?_
    | split
    | refine Same.chain ?_ (coldstartStep_same ..) rfl

theorem execDarkTestBankPath_same (bank : Nat) (path : Nat) (conducting : List Nat) (s : State) : Leads 0x40010 s (execDarkTestBankPath bank path conducting s) := by
  unfold execDarkTestBankPath
  try dsimp only
  repeat' first
    | exact Same.refl ..
    | refine Leads.next ?_
    | split
    | refine Same.chain ?_ (pathSlot_same ..) rfl

theorem execRecorderClearComplete_same (s : State) : Leads 0x40100 s (execRecorderClearComplete s) := by
  unfold execRecorderClearComplete
  split
  · next c e =>
    split
    · exact Leads.next ((completeClear_same e).mono rfl)
    · exact Leads.next (Same.refl ..)
  · exact Leads.next (Same.refl ..)

theorem execReceiveBufferUpdate_same (entry : Nat) (s : State) : Leads 0x40120 s (execReceiveBufferUpdate entry s) := by
  unfold execReceiveBufferUpdate
  try dsimp only
  repeat' first
    | exact Same.refl ..
    | refine Leads.next ?_
    | split
    | refine Same.chain ?_ (compareCopies_same ..) rfl

theorem execEvaluationDeadline_same (late : List LaneId) (s : State) : Leads 0x401bc s (execEvaluationDeadline late s) := by
  unfold execEvaluationDeadline
  try dsimp only
  repeat' first
    | exact Same.refl ..
    | refine Leads.next ?_
    | split
    | refine Same.chain ?_ (overrun_same ..) rfl
    | refine Same.chain ?_ (enterSafe_same ..) rfl

theorem execExternalEnergyProcedure_same (bank : Nat) (s : State) : Leads 0x4 s (execExternalEnergyProcedure bank s) := by
  unfold execExternalEnergyProcedure
  try dsimp only
  repeat' first
    | exact Same.refl ..
    | refine Leads.next ?_
    | split
    | refine Same.chain ?_ (laneOp_same ..) rfl

theorem execNetworkClockReturn_same (s : State) : Leads 0x22 s (execNetworkClockReturn s) := by
  unfold execNetworkClockReturn
  try dsimp only
  repeat' first
    | exact Same.refl ..
    | refine Leads.next ?_
    | split
    | refine Same.chain ?_ (netClockBack_same ..) rfl

theorem execUdpDatagram_same (bytes : Nat) (opcode : Nat) (e : Entry) (s : State) : Leads 0x40100 s (execUdpDatagram bytes opcode e s) := by
  unfold execUdpDatagram
  dsimp only
  split
  · exact Leads.next (Same.refl ..)
  · split
    · exact Leads.next (Same.chain ((answer_same ..).mono rfl) (recordBatch_same ..) rfl)
    · exact Leads.next ((datagram_same ..).mono rfl)

theorem execBankOverload_same (bank : Nat) (s : State) : Leads 0x40110 s (execBankOverload bank s) := by
  unfold execBankOverload
  try dsimp only
  repeat' first
    | exact Same.refl ..
    | refine Leads.next ?_
    | split
    | refine Same.chain ?_ (overloadBank_same ..) rfl

theorem execProofTimeout_same (r : ProofReading) (s : State) : Leads 0x6013e s (execProofTimeout r s) := by
  unfold execProofTimeout
  try dsimp only
  repeat' first
    | exact Same.refl ..
    | refine Leads.next ?_
    | split
    | refine Same.chain ?_ (endProof_same ..) rfl

theorem execSessionIdleExpiry_same (session : Nat) (s : State) : Leads 0x41100 s (execSessionIdleExpiry session s) := by
  unfold execSessionIdleExpiry
  try dsimp only
  repeat' first
    | exact Same.refl ..
    | refine Leads.next ?_
    | split
    | refine Same.chain ?_ (closeSessions_same ..) rfl

theorem execLcsStatus_same (e : Entry) (s : State) : Leads 0x40100 s (execLcsStatus e s) := by
  refine Leads.next (command_same (fun o v => ?_) rfl)
  try dsimp only
  repeat' first
    | with_reducible exact Same.refl ..
    | with_reducible refine Same.ite ?_ ?_
    | refine Same.chain ?_ (answer_same ..) rfl

theorem execResetStuck_same (s : State) : Leads 0x2 s (execResetStuck s) := by
  unfold execResetStuck
  try dsimp only
  repeat' first
    | exact Same.refl ..
    | refine Leads.next ?_
    | split
    | refine Same.chain ?_ (updPower_same ..) rfl

theorem execQuoinScrubFault_same (l : LaneId) (row : Nat) (s : State) : Leads 0x40804 s (execQuoinScrubFault l row s) := by
  unfold execQuoinScrubFault
  try dsimp only
  repeat' first
    | exact Same.refl ..
    | refine Leads.next ?_
    | split
    | refine Same.chain ?_ (scrubFault_same ..) rfl

theorem execOverlapReleaseExpiry_same (o : Nat) (s : State) : Leads 0x4 s (execOverlapReleaseExpiry o s) := by
  unfold execOverlapReleaseExpiry
  try dsimp only
  repeat' first
    | exact Same.refl ..
    | refine Leads.next ?_
    | split
    | refine Same.chain ?_ (laneOp_same ..) rfl

theorem execCrcRead_same (e : Entry) (s : State) : Leads 0x40100 s (execCrcRead e s) := by
  refine Leads.next (command_same (fun o v => ?_) rfl)
  try dsimp only
  repeat' first
    | with_reducible exact Same.refl ..
    | with_reducible refine Same.ite ?_ ?_
    | refine Same.chain ?_ (badPayload_same ..) rfl
    | refine Same.chain ?_ (answer_same ..) rfl
    | refine Same.fold (fun t x => ?_) _ ?_
    | split

theorem execTelegramSent_same (port : Nat) (s : State) : Leads 0x2000 s (execTelegramSent port s) := by
  unfold execTelegramSent
  try dsimp only
  repeat' first
    | exact Same.refl ..
    | refine Leads.next ?_
    | split
    | refine Same.chain ?_ (telegramDone_same ..) rfl

theorem execListenTimeout_same (s : State) : Leads 0x20 s (execListenTimeout s) := by
  unfold execListenTimeout
  try dsimp only
  repeat' first
    | exact Same.refl ..
    | refine Leads.next ?_
    | split
    | refine Same.fold (fun t x => ?_) _ ?_
    | fail_if_no_progress refine Same.chain (k' := 0x20) ?_ (Same.upd _) rfl

theorem execRouteStalled_same (r : Nat) (s : State) : Leads 0x4 s (execRouteStalled r s) := by
  unfold execRouteStalled
  try dsimp only
  repeat' first
    | exact Same.refl ..
    | refine Leads.next ?_
    | split
    | refine Same.chain ?_ (laneOp_same ..) rfl

theorem execResultFrame_same (p : PortId) (f : Frame) (s : State) : Leads 0x40160 s (execResultFrame p f s) := by
  unfold execResultFrame
  exact Leads.ite (Leads.next (takeSweep_same _ _ _ _ (fun m t => resultIn_same ..) rfl)) (Leads.next (Same.refl ..))

theorem execFormeLoad_same (image : Image) (sigs : Sig × Sig) (faults : List (LaneId × Bool)) (s : State) : Leads 0x40504 s (execFormeLoad image sigs faults s) := by
  unfold execFormeLoad
  try dsimp only
  repeat' first
    | exact Same.refl ..
    | refine Leads.next ?_
    | split
    | refine Same.chain ?_ (formeLoad_same ..) rfl

theorem execBrgStart_same (e : Entry) (s : State) : Leads 0x42300 s (execBrgStart e s) := by
  refine Leads.next (command_same (fun o v => ?_) rfl)
  try dsimp only
  repeat' first
    | with_reducible exact Same.refl ..
    | with_reducible refine Same.ite ?_ ?_
    | refine Same.chain ?_ (brgStart_same ..) rfl
    | refine Same.chain ?_ (badPayload_same ..) rfl

theorem execBrgPollStatus_same (e : Entry) (s : State) : Leads 0x40100 s (execBrgPollStatus e s) := by
  refine Leads.next (command_same (fun o v => ?_) rfl)
  try dsimp only
  repeat' first
    | with_reducible exact Same.refl ..
    | with_reducible refine Same.ite ?_ ?_
    | refine Same.chain ?_ (pollReport_same ..) rfl
    | refine Same.chain ?_ (badPayload_same ..) rfl

theorem execGuardDiscrepancy_same (f : Nat) (s : State) : Leads 0x4 s (execGuardDiscrepancy f s) := by
  unfold execGuardDiscrepancy
  try dsimp only
  repeat' first
    | exact Same.refl ..
    | refine Leads.next ?_
    | split
    | refine Same.chain ?_ (laneOp_same ..) rfl

theorem execPcieReset_same (linkStays : Bool) (s : State) : Leads 0x45500 s (execPcieReset linkStays s) := by
  unfold execPcieReset
  try dsimp only
  repeat' first
    | exact Same.refl ..
    | refine Leads.next ?_
    | split
    | refine Same.chain ?_ (pcieReset_same ..) rfl

theorem execStewardBack_same (s : State) : Leads 0x40100 s (execStewardBack s) := by
  unfold execStewardBack
  try dsimp only
  repeat' first
    | exact Same.refl ..
    | refine Leads.next ?_
    | split
    | refine Same.chain ?_ (stewardServes_same ..) rfl

theorem execNoSync_same (s : State) : Leads 0x20 s (execNoSync s) := by
  unfold execNoSync
  try dsimp only
  repeat' first
    | exact Same.refl ..
    | refine Leads.next ?_
    | split
    | refine Same.fold (fun t x => ?_) _ ?_
    | fail_if_no_progress refine Same.chain (k' := 0x20) ?_ (Same.upd _) rfl

theorem execSysIdentify_same (e : Entry) (s : State) : Leads 0x40100 s (execSysIdentify e s) := by
  refine Leads.next (command_same (fun o v => ?_) rfl)
  try dsimp only
  repeat' first
    | with_reducible exact Same.refl ..
    | with_reducible refine Same.ite ?_ ?_
    | refine Same.chain ?_ (answer_same ..) rfl

theorem execUpdAttest_same (e : Entry) (s : State) : Leads 0x1044100 s (execUpdAttest e s) := by
  refine Leads.next (command_same (fun o v => ?_) rfl)
  try dsimp only
  repeat' first
    | with_reducible exact Same.refl ..
    | with_reducible refine Same.ite ?_ ?_
    | refine Same.chain ?_ (badPayload_same ..) rfl
    | refine Same.chain ?_ (attest_same ..) rfl

theorem execReservedAccess_same (offset : Nat) (write : Bool) (wide : Bool) (s : State) : Leads 0x100 s (execReservedAccess offset write wide s) := by
  unfold execReservedAccess
  try dsimp only
  repeat' first
    | exact Same.refl ..
    | refine Leads.next ?_
    | split
    | refine Same.chain ?_ (reservedAt_same ..) rfl

theorem execArpRequest_same (target : Nat) (s : State) : Leads 0x100 s (execArpRequest target s) := by
  unfold execArpRequest
  try dsimp only
  repeat' first
    | exact Same.refl ..
    | refine Leads.next ?_
    | split
    | refine Same.chain ?_ (portSend_same ..) rfl

theorem execHstSessionOpen_same (e : Entry) (s : State) : Leads 0x840300 s (execHstSessionOpen e s) := by
  refine Leads.next (command_same (fun o v => ?_) rfl)
  try dsimp only
  repeat' first
    | with_reducible exact Same.refl ..
    | with_reducible refine Same.ite ?_ ?_
    | refine Same.chain ?_ (sessionOpen_same ..) rfl
    | refine Same.chain ?_ (badPayload_same ..) rfl

theorem execMsixVectorUnmask_same (vector : Nat) (s : State) : Leads 0x100 s (execMsixVectorUnmask vector s) := by
  unfold execMsixVectorUnmask
  split
  · exact Leads.next (Same.upd _)
  · exact Leads.next (Same.refl ..)

theorem execWireBreak_same (ch : Nat) (s : State) : Leads 0x40010 s (execWireBreak ch s) := by
  unfold execWireBreak
  try dsimp only
  repeat' first
    | exact Same.refl ..
    | refine Leads.next ?_
    | split
    | refine Same.chain ?_ (updField_same ..) rfl
    | refine Same.chain ?_ (recordBatch_same ..) rfl

theorem execTrainProofRequest_same (s : State) : Leads 0x4 s (execTrainProofRequest s) := by
  unfold execTrainProofRequest
  try dsimp only
  repeat' first
    | exact Same.refl ..
    | refine Leads.next ?_
    | split
    | refine Same.chain ?_ (inLanes_same ..) rfl

theorem execThermalRetry_same (wholeBank : Bool) (n : Nat) (s : State) : Leads 0x10 s (execThermalRetry wholeBank n s) := by
  unfold execThermalRetry
  try dsimp only
  repeat' first
    | exact Same.refl ..
    | refine Leads.next ?_
    | split
    | refine Same.chain ?_ (updField_same ..) rfl

theorem execDupSwitchBack_same (e : Entry) (sig : Sig) (s : State) : Leads 0x58180 s (execDupSwitchBack e sig s) := by
  refine Leads.next (command_same (fun o v => ?_) rfl)
  try dsimp only
  repeat' first
    | with_reducible exact Same.refl ..
    | with_reducible refine Same.ite ?_ ?_
    | refine Same.chain ?_ (switchBack_same ..) rfl
    | refine withToken_same (fun t => ?_) (Same.refl ..) rfl

theorem execPrfRun_same (e : Entry) (s : State) : Leads 0x60134 s (execPrfRun e s) := by
  refine Leads.next (command_same (fun o v => ?_) rfl)
  try dsimp only
  repeat' first
    | with_reducible exact Same.refl ..
    | with_reducible refine Same.ite ?_ ?_
    | refine Same.chain ?_ (prfRun_same ..) rfl
    | refine Same.chain ?_ (badPayload_same ..) rfl

theorem execTunnelSegment_same (g : Segment) (s : State) : Leads 0x42100 s (execTunnelSegment g s) := by
  unfold execTunnelSegment
  try dsimp only
  repeat' first
    | exact Same.refl ..
    | refine Leads.next ?_
    | split
    | refine Same.chain ?_ (segmentIn_same ..) rfl
    | refine Same.chain ?_ (peerReset_same ..) rfl
    | refine Same.chain ?_ (updBridge_same ..) rfl

theorem execCreditReport_same (channel : Nat) (peer : Nat) (s : State) : Leads 0x2000 s (execCreditReport channel peer s) := by
  unfold execCreditReport
  try dsimp only
  repeat' first
    | exact Same.refl ..
    | refine Leads.next ?_
    | split
    | refine Same.chain ?_ (updBridge_same ..) rfl

theorem execSysRestart_same (e : Entry) (f : StartFacts) (s : State) : Leads 0x67fffe s (execSysRestart e f s) := by
  refine Leads.next (command_same (fun o v => ?_) rfl)
  try dsimp only
  repeat' first
    | with_reducible exact Same.refl ..
    | with_reducible refine Same.ite ?_ ?_
    | refine Same.chain ?_ (sysRestart_same ..) rfl
    | refine Same.chain ?_ (badPayload_same ..) rfl

theorem execLcsTransition_same (e : Entry) (sig : Sig) (s : State) : Leads 0x7c5bc s (execLcsTransition e sig s) := by
  refine Leads.next (command_same (fun o v => ?_) rfl)
  try dsimp only
  repeat' first
    | with_reducible exact Same.refl ..
    | with_reducible refine Same.ite ?_ ?_
    | refine Same.chain ?_ (lcsTransition_same ..) rfl
    | refine withToken_same (fun t => ?_) (Same.refl ..) rfl

theorem execIlkAuxCounters_same (e : Entry) (s : State) : Leads 0x40100 s (execIlkAuxCounters e s) := by
  refine Leads.next (command_same (fun o v => ?_) rfl)
  try dsimp only
  repeat' first
    | with_reducible exact Same.refl ..
    | with_reducible refine Same.ite ?_ ?_
    | refine Same.chain ?_ (answer_same ..) rfl

theorem execProofDeferred_same (s : State) : Leads 0x40100 s (execProofDeferred s) := by
  unfold execProofDeferred
  try dsimp only
  repeat' first
    | exact Same.refl ..
    | refine Leads.next ?_
    | split
    | refine Same.chain ?_ (raise_same ..) rfl

theorem execPrfResult_same (e : Entry) (s : State) : Leads 0x40100 s (execPrfResult e s) := by
  refine Leads.next (command_same (fun o v => ?_) rfl)
  try dsimp only
  repeat' first
    | with_reducible exact Same.refl ..
    | with_reducible refine Same.ite ?_ ?_
    | refine Same.chain ?_ (badPayload_same ..) rfl
    | refine Same.chain ?_ (answer_same ..) rfl

theorem execStaticSlotTransmit_same (slot : Nat) (devs : List (PortId × Int)) (s : State) : Leads 0x20 s (execStaticSlotTransmit slot devs s) := by
  unfold execStaticSlotTransmit
  try dsimp only
  repeat' first
    | exact Same.refl ..
    | refine Leads.next ?_
    | split
    | refine Same.chain ?_ (transmitStatic_same ..) rfl

theorem execInServiceProofRequest_same (s : State) : Leads 0x20000 s (execInServiceProofRequest s) := by
  unfold execInServiceProofRequest
  try dsimp only
  repeat' first
    | exact Same.refl ..
    | refine Leads.next ?_
    | split
    | refine Same.fold (fun t x => ?_) _ ?_
    | fail_if_no_progress refine Same.chain (k' := 0x20000) ?_ (Same.upd _) rfl

theorem execIpReassemblyTimeout_same (id : Nat) (s : State) : Leads 0x100 s (execIpReassemblyTimeout id s) := by
  unfold execIpReassemblyTimeout
  try dsimp only
  repeat' first
    | exact Same.refl ..
    | refine Leads.next ?_
    | split
    | refine Same.fold (fun t x => ?_) _ ?_
    | fail_if_no_progress refine Same.chain (k' := 0x100) ?_ (Same.upd _) rfl

theorem execBusMasterEnableChange_same (enabled : Bool) (d0 : Bool) (s : State) : Leads 0x2100 s (execBusMasterEnableChange enabled d0 s) := by
  unfold execBusMasterEnableChange
  split
  · refine Leads.next (Same.chain ?_ (drainAll_same ..) rfl)
    exact Same.upd _
  · exact Leads.next (Same.refl ..)

theorem execLinkTraining_same (partnerGen2 : Bool) (s : State) : Leads 0x100 s (execLinkTraining partnerGen2 s) := by
  unfold execLinkTraining
  try dsimp only
  repeat' first
    | exact Same.refl ..
    | refine Leads.next ?_
    | split
    | refine Same.fold (fun t x => ?_) _ ?_
    | fail_if_no_progress refine Same.chain (k' := 0x100) ?_ (Same.upd _) rfl

theorem execRegisterWrite_same (offset : Nat) (v : Word32) (enables : Nat) (high : Option Word32) (s : State) : Leads 0x47d00 s (execRegisterWrite offset v enables high s) := by
  unfold execRegisterWrite
  try dsimp only
  repeat' first
    | exact Same.refl ..
    | refine Leads.next ?_
    | split
    | refine Same.chain ?_ (writeRegister_same ..) rfl

theorem execNetworkCycleBoundary_same (s : State) : Leads 0x4e9e2 s (execNetworkCycleBoundary s) := by
  unfold execNetworkCycleBoundary
  try dsimp only
  repeat' first
    | exact Same.refl ..
    | refine Leads.next ?_
    | split
    | refine Same.chain ?_ (duplexBoundary_same ..) rfl
    | refine Same.chain ?_ (boundary_same ..) rfl

theorem execBrgWriteError_same (tag : Nat) (detail : Nat) (s : State) : Leads 0x42100 s (execBrgWriteError tag detail s) := by
  unfold execBrgWriteError
  try dsimp only
  repeat' first
    | exact Same.refl ..
    | refine Leads.next ?_
    | split
    | refine Same.chain ?_ (endWrite_same ..) rfl

theorem execTempHigh_same (die : Nat) (celsius : Nat) (s : State) : Leads 0x40102 s (execTempHigh die celsius s) := by
  unfold execTempHigh
  try dsimp only
  repeat' first
    | exact Same.refl ..
    | refine Leads.next ?_
    | split
    | refine Same.chain ?_ (raiseWith_same ..) rfl
    | refine Same.chain ?_ (updPower_same ..) rfl

theorem execBrgDiscard_same (channel : Nat) (s : State) : Leads 0x42100 s (execBrgDiscard channel s) := by
  unfold execBrgDiscard
  try dsimp only
  repeat' first
    | exact Same.refl ..
    | refine Leads.next ?_
    | split
    | refine Same.chain ?_ (discard_same ..) rfl
    | refine Same.chain ?_ (updBridge_same ..) rfl

theorem execIlkAuxWithdraw_same (e : Entry) (s : State) : Leads 0x1040900 s (execIlkAuxWithdraw e s) := by
  refine Leads.next (command_same (fun o v => ?_) rfl)
  try dsimp only
  repeat' first
    | with_reducible exact Same.refl ..
    | with_reducible refine Same.ite ?_ ?_
    | refine Same.chain ?_ (request_same ..) rfl
    | refine Same.chain ?_ (badPayload_same ..) rfl

theorem execTrnInaugurate_same (e : Entry) (s : State) : Leads 0x40160 s (execTrnInaugurate e s) := by
  refine Leads.next (command_same (fun o v => ?_) rfl)
  try dsimp only
  repeat' first
    | with_reducible exact Same.refl ..
    | with_reducible refine Same.ite ?_ ?_
    | refine Same.chain ?_ (inaugurate_same ..) rfl

theorem execProofComplete_same (r : ProofReading) (s : State) : Leads 0x6013e s (execProofComplete r s) := by
  unfold execProofComplete
  try dsimp only
  repeat' first
    | exact Same.refl ..
    | refine Leads.next ?_
    | split
    | refine Same.chain ?_ (endProof_same ..) rfl

theorem execBrgReasmTimeout_same (channel : Nat) (peer : Nat) (s : State) : Leads 0x42100 s (execBrgReasmTimeout channel peer s) := by
  unfold execBrgReasmTimeout
  try dsimp only
  repeat' first
    | exact Same.refl ..
    | refine Leads.next ?_
    | split
    | refine Same.chain ?_ (updBridge_same ..) rfl
    | refine Same.chain ?_ (raise_same ..) rfl

theorem execRecRead_same (e : Entry) (during : Nat) (s : State) : Leads 0x40100 s (execRecRead e during s) := by
  refine Leads.next (command_same (fun o v => ?_) rfl)
  try dsimp only
  repeat' first
    | with_reducible exact Same.refl ..
    | with_reducible refine Same.ite ?_ ?_
    | refine Same.chain ?_ (badPayload_same ..) rfl
    | refine Same.chain ?_ (applyBatches_same ..) rfl
    | refine Same.chain ?_ (answer_same ..) rfl

theorem execHoldupOk_same (mv : Nat) (s : State) : Leads 0x2 s (execHoldupOk mv s) := by
  unfold execHoldupOk
  try dsimp only
  repeat' first
    | exact Same.refl ..
    | refine Leads.next ?_
    | split
    | refine Same.chain ?_ (updPower_same ..) rfl

theorem execCycleStrobe_same (x : Sample) (s : State) : Leads 0x60dfe s (execCycleStrobe x s) := by
  unfold execCycleStrobe
  try dsimp only
  repeat' first
    | exact Same.refl ..
    | refine Leads.next ?_
    | split
    | refine Same.chain ?_ (strobe_same ..) rfl
    | refine Same.chain ?_ (followTarget_same ..) rfl

theorem execPeerReset_same (g : Segment) (s : State) : Leads 0x42100 s (execPeerReset g s) := by
  unfold execPeerReset
  try dsimp only
  repeat' first
    | exact Same.refl ..
    | refine Leads.next ?_
    | split
    | refine Same.chain ?_ (peerReset_same ..) rfl

theorem execTrnStatus_same (e : Entry) (s : State) : Leads 0x40100 s (execTrnStatus e s) := by
  refine Leads.next (command_same (fun o v => ?_) rfl)
  try dsimp only
  repeat' first
    | with_reducible exact Same.refl ..
    | with_reducible refine Same.ite ?_ ?_
    | refine Same.chain ?_ (answer_same ..) rfl

theorem execTimerExpiry_same (t : Nat) (s : State) : Leads 0x4 s (execTimerExpiry t s) := by
  unfold execTimerExpiry
  try dsimp only
  repeat' first
    | exact Same.refl ..
    | refine Leads.next ?_
    | split
    | refine Same.chain ?_ (laneOp_same ..) rfl

theorem execApproachLockExpiry_same (r : Nat) (s : State) : Leads 0x4 s (execApproachLockExpiry r s) := by
  unfold execApproachLockExpiry
  try dsimp only
  repeat' first
    | exact Same.refl ..
    | refine Leads.next ?_
    | split
    | refine Same.chain ?_ (laneOp_same ..) rfl

theorem execGalleyWindowClose_same (copy : LaneId) (s : State) : Leads 0x401bc s (execGalleyWindowClose copy s) := by
  unfold execGalleyWindowClose
  try dsimp only
  repeat' first
    | exact Same.refl ..
    | refine Leads.next ?_
    | split
    | refine Same.chain ?_ (copyVote_same ..) rfl

theorem execSysParamGet_same (e : Entry) (s : State) : Leads 0x40100 s (execSysParamGet e s) := by
  refine Leads.next (command_same (fun o v => ?_) rfl)
  try dsimp only
  repeat' first
    | with_reducible exact Same.refl ..
    | with_reducible refine Same.ite ?_ ?_
    | refine Same.chain ?_ (badPayload_same ..) rfl
    | refine Same.chain ?_ (answerUnknown_same ..) rfl
    | refine Same.chain ?_ (answer_same ..) rfl
    | refine Same.fold (fun t x => ?_) _ ?_
    | split

theorem execStandstillProven_same (f : Nat) (s : State) : Leads 0x4 s (execStandstillProven f s) := by
  unfold execStandstillProven
  try dsimp only
  repeat' first
    | exact Same.refl ..
    | refine Leads.next ?_
    | split
    | refine Same.chain ?_ (laneOp_same ..) rfl

theorem execUpdActivate_same (e : Entry) (f : StartFacts) (s : State) : Leads 0x67fffe s (execUpdActivate e f s) := by
  refine Leads.next (command_same (fun o v => ?_) rfl)
  try dsimp only
  repeat' first
    | with_reducible exact Same.refl ..
    | with_reducible refine Same.ite ?_ ?_
    | refine Same.chain ?_ (activate_same ..) rfl
    | refine withSession_same (fun q t => ?_) (Same.refl ..) rfl

theorem execIlkForceSet_same (e : Entry) (sig : Sig) (s : State) : Leads 0x1058900 s (execIlkForceSet e sig s) := by
  refine Leads.next (command_same (fun o v => ?_) rfl)
  try dsimp only
  repeat' first
    | with_reducible exact Same.refl ..
    | with_reducible refine Same.ite ?_ ?_
    | refine Same.chain ?_ (forceSet_same ..) rfl

theorem execExchangePrepared_same (s : State) : Leads 0x40500 s (execExchangePrepared s) := by
  unfold execExchangePrepared
  try dsimp only
  repeat' first
    | exact Same.refl ..
    | refine Leads.next ?_
    | split
    | refine Same.chain ?_ (exchangePrepared_same ..) rfl

theorem execSysParamSet_same (e : Entry) (s : State) : Leads 0x40300 s (execSysParamSet e s) := by
  refine Leads.next (command_same (fun o v => ?_) rfl)
  try dsimp only
  repeat' first
    | with_reducible exact Same.refl ..
    | with_reducible refine Same.ite ?_ ?_
    | refine Same.chain ?_ (store_same ..) rfl
    | refine Same.chain ?_ (badPayload_same ..) rfl
    | refine Same.chain ?_ (answerUnknown_same ..) rfl
    | refine Same.chain ?_ (answer_same ..) rfl
    | refine Same.fold (fun t x => ?_) _ ?_
    | split

theorem execCheckpointSeal_same (l : LaneId) (s : State) : Leads 0x4 s (execCheckpointSeal l s) := by
  unfold execCheckpointSeal
  try dsimp only
  repeat' first
    | exact Same.refl ..
    | refine Leads.next ?_
    | split
    | refine Same.chain ?_ (sealCheckpoint_same ..) rfl

theorem execIlkExchangePrepare_same (e : Entry) (s : State) : Leads 0x1040504 s (execIlkExchangePrepare e s) := by
  refine Leads.next (command_same (fun o v => ?_) rfl)
  try dsimp only
  repeat' first
    | with_reducible exact Same.refl ..
    | with_reducible refine Same.ite ?_ ?_
    | refine Same.chain ?_ (prepare_same ..) rfl
    | refine Same.chain ?_ (badPayload_same ..) rfl

theorem execFldBlockClear_same (e : Entry) (sig : Sig) (s : State) : Leads 0x1058900 s (execFldBlockClear e sig s) := by
  refine Leads.next (command_same (fun o v => ?_) rfl)
  try dsimp only
  repeat' first
    | with_reducible exact Same.refl ..
    | with_reducible refine Same.ite ?_ ?_
    | refine Same.chain ?_ (blockClear_same ..) rfl

theorem execHstSessionList_same (e : Entry) (s : State) : Leads 0xc0100 s (execHstSessionList e s) := by
  refine Leads.next (command_same (fun o v => ?_) rfl)
  try dsimp only
  repeat' first
    | with_reducible exact Same.refl ..
    | with_reducible refine Same.ite ?_ ?_
    | refine Same.chain ?_ (answer_same ..) rfl
    | refine Same.fold (fun t x => ?_) _ ?_
    | split
    | fail_if_no_progress refine Same.chain (k' := 0xc0100) ?_ (Same.upd _) rfl

theorem execTelegramGap_same (_port : Nat) (s : State) : Leads 0x0 s (execTelegramGap _port s) := by
  unfold execTelegramGap
  try dsimp only
  repeat' first
    | exact Same.refl ..
    | refine Leads.next ?_

theorem execReportSigned_same (s : State) : Leads 0x4100 s (execReportSigned s) := by
  unfold execReportSigned
  try dsimp only
  repeat' first
    | exact Same.refl ..
    | refine Leads.next ?_
    | split
    | refine Same.chain ?_ (answerOut_same ..) rfl
    | refine Same.fold (fun t x => ?_) _ ?_
    | fail_if_no_progress refine Same.chain (k' := 0x4100) ?_ (Same.upd _) rfl

theorem execPowerUp_same (f : StartFacts) (s : State) : Leads 0x67fffe s (execPowerUp f s) := by
  unfold execPowerUp
  try dsimp only
  repeat' first
    | exact Same.refl ..
    | refine Leads.next ?_
    | split
    | refine Same.chain ?_ (powerUpHeld_same ..) rfl
    | refine Same.chain ?_ (powerUp_same ..) rfl

/-- What each command may change, as the bits of `Same`. -/
def footprint : Instr → Nat
  | .powerUp _ => 0x67fffe
  | .powerFail => 0x113e
  | .vsRange _ => 0x40102
  | .reset => 0x113e
  | .resetRelease _ => 0x67fffe
  | .resetStuck => 0x2
  | .holdupOk _ => 0x2
  | .holdupLow _ => 0x40102
  | .clockFault _ => 0x45dbe
  | .laneRailFault _ => 0x401be
  | .tempHigh _ _ => 0x40102
  | .cdcTimeout _ _ => 0x40126
  | .strobeTimeout _ => 0x401bc
  | .cycleStrobe _ => 0x60dfe
  | .quoinScrubFault _ _ => 0x40804
  | .timerExpiry _ => 0x4
  | .approachLockExpiry _ => 0x4
  | .overlapReleaseExpiry _ => 0x4
  | .routeStalled _ => 0x4
  | .pointStroke _ => 0x4
  | .pointLost _ => 0x4
  | .signalM0Restore _ => 0x4
  | .sweepTimeout _ => 0x4
  | .warningTimeExpiry _ => 0x4
  | .crossingFail _ => 0x4
  | .crossingLightsRestored _ => 0x4
  | .openingLoweringExpiry _ => 0x4
  | .guardDiscrepancy _ => 0x4
  | .guardFeedback _ => 0x4
  | .standstillProven _ => 0x4
  | .simultaneityExpiry _ => 0x4
  | .auxWindowExpiry _ => 0x4
  | .auxNotCounted _ => 0x4
  | .evaluationDeadline _ => 0x401bc
  | .overrunLimit _ => 0x401bc
  | .galleyReceived _ _ _ => 0x401bc
  | .galleyWindowClose _ => 0x401bc
  | .permitExpiry _ _ => 0x10
  | .gateDriveLoss _ => 0x4
  | .cycleClose => 0x44d6c
  | .exchangeCycle _ _ => 0x40cfe
  | .inServiceProofRequest => 0x20000
  | .proofDeferred => 0x40100
  | .laneIsolation => 0x6810c
  | .proofComplete _ => 0x6013e
  | .proofTimeout _ => 0x6013e
  | .laneRejoin _ => 0x60dfe
  | .darkTestOutput _ _ => 0x40010
  | .darkTestBankPath _ _ _ => 0x40010
  | .externalEnergyProcedure _ => 0x4
  | .axleSequence _ _ => 0x40010
  | .wireBreak _ => 0x40010
  | .fieldSupplyOutOfRange _ _ => 0x40110
  | .fieldSupplyInRange _ _ => 0x40110
  | .outputOverload _ _ => 0x40110
  | .thermalRetry _ _ => 0x10
  | .bankOverload _ => 0x40110
  | .fieldLink => 0x40110
  | .linkSyncAcquired _ => 0x20
  | .autoNegotiation _ _ => 0x20
  | .linkQualification _ _ => 0x40320
  | .linkDown _ _ => 0x40120
  | .linkRetry _ => 0x20
  | .staticSlotTransmit _ _ => 0x20
  | .minislot _ => 0x2020
  | .frameReceive _ _ => 0x20
  | .receiveBufferUpdate _ => 0x40120
  | .networkCycleBoundary => 0x4e9e2
  | .kern _ => 0x40120
  | .noSync => 0x20
  | .guardianTrip _ => 0x40120
  | .listenTimeout => 0x20
  | .coldstart _ => 0x60
  | .backoffExpiry => 0x20
  | .integrationComplete => 0x60
  | .nodeLost _ => 0x40120
  | .endChange _ => 0x40160
  | .stopFrame _ _ => 0x40160
  | .sweepSend => 0x60
  | .sweepFrame _ _ => 0x40160
  | .resultFrame _ _ => 0x40160
  | .noAgree => 0x40140
  | .inaugurationTimeout => 0x40160
  | .trainFailRetry => 0x40160
  | .trainProofRequest => 0x4
  | .refereeDecide => 0x80
  | .markAccepted => 0x80
  | .dupColdTakeover _ => 0x67fffe
  | .dupSwitchBackFail => 0x40180
  | .ilkRouteSet _ => 0x1040900
  | .ilkRouteCancel _ => 0x1040900
  | .ilkRouteReclear _ => 0x1040900
  | .elmPointMove _ => 0x1040900
  | .elmBlockSet _ => 0x1040900
  | .ilkAuxStage _ => 0x1040900
  | .ilkAuxWithdraw _ => 0x1040900
  | .ilkAuxCounters _ => 0x40100
  | .ilkExchangePrepare _ => 0x1040504
  | .formeLoad _ _ _ => 0x40504
  | .exchangePrepared => 0x40500
  | .ilkExchangeCommit _ => 0x40500
  | .ilkExchangeAbort _ => 0x40500
  | .ilkExchangeStatus _ => 0x40100
  | .ilkForceSet _ _ => 0x1058900
  | .ilkForceClear _ => 0x1040900
  | .ilkForceList _ => 0x40100
  | .fldBlockClear _ _ => 0x1058900
  | .motStatus _ => 0x40100
  | .grdStatus _ => 0x40100
  | .sysRestart _ _ => 0x67fffe
  | .sysParamGet _ => 0x40100
  | .sysParamSet _ => 0x40300
  | .sysIdentify _ => 0x40100
  | .netStart _ => 0x40360
  | .netStop _ => 0x40120
  | .netStatus _ => 0x40100
  | .netCounters _ => 0x40100
  | .trnStatus _ => 0x40100
  | .trnComposition _ => 0x40100
  | .trnInaugurate _ => 0x40160
  | .dupStatus _ => 0x40100
  | .dupSwitchBack _ _ => 0x58180
  | .hstSessionOpen _ => 0x840300
  | .hstSessionProve _ _ => 0x41100
  | .hstSessionClose _ => 0x41100
  | .hstSessionList _ => 0xc0100
  | .hstPortRestart _ => 0x41300
  | .pendingSessionExpiry _ => 0x41100
  | .authLockoutEnd _ => 0x100
  | .sessionIdleExpiry _ => 0x41100
  | .crcOpen _ => 0x2041100
  | .crcFeed _ => 0x2041100
  | .crcRead _ => 0x40100
  | .crcWrite _ => 0x2041100
  | .crcClose _ => 0x41100
  | .brgStart _ => 0x42300
  | .brgStop _ => 0x42100
  | .brgStatus _ => 0x40100
  | .brgPollStatus _ => 0x40100
  | .updBegin _ _ _ _ => 0x44100
  | .updChunk _ _ => 0x44100
  | .updStatus _ => 0x40100
  | .updVerify _ => 0x44100
  | .verificationComplete _ _ => 0x44100
  | .updActivate _ _ => 0x67fffe
  | .updConfirm _ _ => 0x5c100
  | .updAbort _ _ => 0x5c100
  | .updAttest _ => 0x1044100
  | .updExpired => 0x44100
  | .lcsTransition _ _ => 0x7c5bc
  | .lcsKeyWrite _ _ => 0x58100
  | .lcsStatus _ => 0x40100
  | .prfRun _ => 0x60134
  | .prfResult _ => 0x40100
  | .recList _ => 0x40100
  | .recRead _ _ => 0x40100
  | .recClear _ _ => 0x1058100
  | .recStatus _ => 0x40100
  | .recorderBatch => 0x40100
  | .pwrStatus _ => 0x40100
  | .queueStall _ => 0x40100
  | .qProdWrite _ _ _ => 0x40100
  | .qConsWrite _ _ => 0x2100
  | .qCfgWrite _ _ => 0x2100
  | .stewardCtrlRestart _ _ => 0x45d00
  | .cdcStatusClear _ => 0x100
  | .cycleCountRead _ => 0x40102
  | .registerWrite _ _ _ _ => 0x47d00
  | .reservedAccess _ _ _ => 0x100
  | .msixVectorUnmask _ => 0x100
  | .pcieReset _ => 0x45500
  | .linkTraining _ => 0x100
  | .udpDatagram _ _ _ => 0x40100
  | .arpRequest _ => 0x100
  | .icmpEcho _ _ => 0x100
  | .ipReassemblyTimeout _ => 0x100
  | .tunnelTransmitEntry _ _ => 0x42100
  | .tunnelSegment _ => 0x42100
  | .peerReset _ => 0x42100
  | .creditReport _ _ => 0x2000
  | .brgReasmTimeout _ _ => 0x42100
  | .readTimeout _ => 0x42100
  | .brgWriteError _ _ => 0x42100
  | .brgDiscard _ => 0x42100
  | .telegramReceive _ _ => 0x42100
  | .telegramGap _ => 0x0
  | .sideBandPoll _ _ => 0x42100
  | .busMasterEnableChange _ _ => 0x2100
  | .networkClockReturn => 0x22
  | .checkpointSeal _ => 0x4
  | .telegramSent _ => 0x2000
  | .frequencyPulse _ _ _ => 0x40010
  | .recorderClearComplete => 0x40100
  | .stewardBack => 0x40100
  | .reportSigned => 0x4100

/-- Every command answers a next state, within its footprint. -/
theorem exec_leads (c : Instr) (s : State) : Leads (footprint c) s (exec c s) := by
  cases c with
  | powerUp f => exact execPowerUp_same f s
  | powerFail => exact execPowerFail_same s
  | vsRange mv => exact execVsRange_same mv s
  | reset => exact execReset_same s
  | resetRelease f => exact execResetRelease_same f s
  | resetStuck => exact execResetStuck_same s
  | holdupOk mv => exact execHoldupOk_same mv s
  | holdupLow mv => exact execHoldupLow_same mv s
  | clockFault i0 => exact execClockFault_same i0 s
  | laneRailFault l => exact execLaneRailFault_same l s
  | tempHigh die celsius => exact execTempHigh_same die celsius s
  | cdcTimeout i0 x => exact execCdcTimeout_same i0 x s
  | strobeTimeout l => exact execStrobeTimeout_same l s
  | cycleStrobe x => exact execCycleStrobe_same x s
  | quoinScrubFault l row => exact execQuoinScrubFault_same l row s
  | timerExpiry t => exact execTimerExpiry_same t s
  | approachLockExpiry r => exact execApproachLockExpiry_same r s
  | overlapReleaseExpiry o => exact execOverlapReleaseExpiry_same o s
  | routeStalled r => exact execRouteStalled_same r s
  | pointStroke p => exact execPointStroke_same p s
  | pointLost p => exact execPointLost_same p s
  | signalM0Restore g => exact execSignalM0Restore_same g s
  | sweepTimeout n => exact execSweepTimeout_same n s
  | warningTimeExpiry x => exact execWarningTimeExpiry_same x s
  | crossingFail x => exact execCrossingFail_same x s
  | crossingLightsRestored x => exact execCrossingLightsRestored_same x s
  | openingLoweringExpiry x => exact execOpeningLoweringExpiry_same x s
  | guardDiscrepancy f => exact execGuardDiscrepancy_same f s
  | guardFeedback f => exact execGuardFeedback_same f s
  | standstillProven f => exact execStandstillProven_same f s
  | simultaneityExpiry f => exact execSimultaneityExpiry_same f s
  | auxWindowExpiry authority => exact execAuxWindowExpiry_same authority s
  | auxNotCounted authority => exact execAuxNotCounted_same authority s
  | evaluationDeadline late => exact execEvaluationDeadline_same late s
  | overrunLimit late => exact execOverrunLimit_same late s
  | galleyReceived copy lane bad => exact execGalleyReceived_same copy lane bad s
  | galleyWindowClose copy => exact execGalleyWindowClose_same copy s
  | permitExpiry l item => exact execPermitExpiry_same l item s
  | gateDriveLoss l => exact execGateDriveLoss_same l s
  | cycleClose => exact execCycleClose_same s
  | exchangeCycle x failed => exact execExchangeCycle_same x failed s
  | inServiceProofRequest => exact execInServiceProofRequest_same s
  | proofDeferred => exact execProofDeferred_same s
  | laneIsolation => exact execLaneIsolation_same s
  | proofComplete r => exact execProofComplete_same r s
  | proofTimeout r => exact execProofTimeout_same r s
  | laneRejoin x => exact execLaneRejoin_same x s
  | darkTestOutput vo d => exact execDarkTestOutput_same vo d s
  | darkTestBankPath bank path conducting => exact execDarkTestBankPath_same bank path conducting s
  | externalEnergyProcedure bank => exact execExternalEnergyProcedure_same bank s
  | axleSequence even p => exact execAxleSequence_same even p s
  | wireBreak channel => exact execWireBreak_same channel s
  | fieldSupplyOutOfRange bank mv => exact execFieldSupplyOutOfRange_same bank mv s
  | fieldSupplyInRange bank mv => exact execFieldSupplyInRange_same bank mv s
  | outputOverload vital channel => exact execOutputOverload_same vital channel s
  | thermalRetry wholeBank n => exact execThermalRetry_same wholeBank n s
  | bankOverload bank => exact execBankOverload_same bank s
  | fieldLink => exact execFieldLink_same s
  | linkSyncAcquired p => exact execLinkSyncAcquired_same p s
  | autoNegotiation p page => exact execAutoNegotiation_same p page s
  | linkQualification p q => exact execLinkQualification_same p q s
  | linkDown p cause => exact execLinkDown_same p cause s
  | linkRetry p => exact execLinkRetry_same p s
  | staticSlotTransmit slot gateOk => exact execStaticSlotTransmit_same slot gateOk s
  | minislot heard => exact execMinislot_same heard s
  | frameReceive p f => exact execFrameReceive_same p f s
  | receiveBufferUpdate entry => exact execReceiveBufferUpdate_same entry s
  | networkCycleBoundary => exact execNetworkCycleBoundary_same s
  | kern missed => exact execKern_same missed s
  | noSync => exact execNoSync_same s
  | guardianTrip p => exact execGuardianTrip_same p s
  | listenTimeout => exact execListenTimeout_same s
  | coldstart heard => exact execColdstart_same heard s
  | backoffExpiry => exact execBackoffExpiry_same s
  | integrationComplete => exact execIntegrationComplete_same s
  | nodeLost entry => exact execNodeLost_same entry s
  | endChange e => exact execEndChange_same e s
  | stopFrame p m => exact execStopFrame_same p m s
  | sweepSend => exact execSweepSend_same s
  | sweepFrame p m => exact execSweepFrame_same p m s
  | resultFrame p m => exact execResultFrame_same p m s
  | noAgree => exact execNoAgree_same s
  | inaugurationTimeout => exact execInaugurationTimeout_same s
  | trainFailRetry => exact execTrainFailRetry_same s
  | trainProofRequest => exact execTrainProofRequest_same s
  | refereeDecide => exact execRefereeDecide_same s
  | markAccepted => exact execMarkAccepted_same s
  | dupColdTakeover f => exact execDupColdTakeover_same f s
  | dupSwitchBackFail => exact execDupSwitchBackFail_same s
  | ilkRouteSet e => exact execIlkRouteSet_same e s
  | ilkRouteCancel e => exact execIlkRouteCancel_same e s
  | ilkRouteReclear e => exact execIlkRouteReclear_same e s
  | elmPointMove e => exact execElmPointMove_same e s
  | elmBlockSet e => exact execElmBlockSet_same e s
  | ilkAuxStage e => exact execIlkAuxStage_same e s
  | ilkAuxWithdraw e => exact execIlkAuxWithdraw_same e s
  | ilkAuxCounters e => exact execIlkAuxCounters_same e s
  | ilkExchangePrepare e => exact execIlkExchangePrepare_same e s
  | formeLoad image sigs faults => exact execFormeLoad_same image sigs faults s
  | exchangePrepared => exact execExchangePrepared_same s
  | ilkExchangeCommit e => exact execIlkExchangeCommit_same e s
  | ilkExchangeAbort e => exact execIlkExchangeAbort_same e s
  | ilkExchangeStatus e => exact execIlkExchangeStatus_same e s
  | ilkForceSet e sig => exact execIlkForceSet_same e sig s
  | ilkForceClear e => exact execIlkForceClear_same e s
  | ilkForceList e => exact execIlkForceList_same e s
  | fldBlockClear e sig => exact execFldBlockClear_same e sig s
  | motStatus e => exact execMotStatus_same e s
  | grdStatus e => exact execGrdStatus_same e s
  | sysRestart e f => exact execSysRestart_same e f s
  | sysParamGet e => exact execSysParamGet_same e s
  | sysParamSet e => exact execSysParamSet_same e s
  | sysIdentify e => exact execSysIdentify_same e s
  | netStart e => exact execNetStart_same e s
  | netStop e => exact execNetStop_same e s
  | netStatus e => exact execNetStatus_same e s
  | netCounters e => exact execNetCounters_same e s
  | trnStatus e => exact execTrnStatus_same e s
  | trnComposition e => exact execTrnComposition_same e s
  | trnInaugurate e => exact execTrnInaugurate_same e s
  | dupStatus e => exact execDupStatus_same e s
  | dupSwitchBack e sig => exact execDupSwitchBack_same e sig s
  | hstSessionOpen e => exact execHstSessionOpen_same e s
  | hstSessionProve e sig => exact execHstSessionProve_same e sig s
  | hstSessionClose e => exact execHstSessionClose_same e s
  | hstSessionList e => exact execHstSessionList_same e s
  | hstPortRestart e => exact execHstPortRestart_same e s
  | pendingSessionExpiry session => exact execPendingSessionExpiry_same session s
  | authLockoutEnd udp => exact execAuthLockoutEnd_same udp s
  | sessionIdleExpiry session => exact execSessionIdleExpiry_same session s
  | crcOpen e => exact execCrcOpen_same e s
  | crcFeed e => exact execCrcFeed_same e s
  | crcRead e => exact execCrcRead_same e s
  | crcWrite e => exact execCrcWrite_same e s
  | crcClose e => exact execCrcClose_same e s
  | brgStart e => exact execBrgStart_same e s
  | brgStop e => exact execBrgStop_same e s
  | brgStatus e => exact execBrgStatus_same e s
  | brgPollStatus e => exact execBrgPollStatus_same e s
  | updBegin e helfinor approval unwraps => exact execUpdBegin_same e helfinor approval unwraps s
  | updChunk e tagOk => exact execUpdChunk_same e tagOk s
  | updStatus e => exact execUpdStatus_same e s
  | updVerify e => exact execUpdVerify_same e s
  | verificationComplete digest chunks => exact execVerificationComplete_same digest chunks s
  | updActivate e f => exact execUpdActivate_same e f s
  | updConfirm e sig => exact execUpdConfirm_same e sig s
  | updAbort e sig => exact execUpdAbort_same e sig s
  | updAttest e => exact execUpdAttest_same e s
  | updExpired => exact execUpdExpired_same s
  | lcsTransition e sig => exact execLcsTransition_same e sig s
  | lcsKeyWrite e sig => exact execLcsKeyWrite_same e sig s
  | lcsStatus e => exact execLcsStatus_same e s
  | prfRun e => exact execPrfRun_same e s
  | prfResult e => exact execPrfResult_same e s
  | recList e => exact execRecList_same e s
  | recRead e during => exact execRecRead_same e during s
  | recClear e sig => exact execRecClear_same e sig s
  | recStatus e => exact execRecStatus_same e s
  | recorderBatch => exact execRecorderBatch_same s
  | pwrStatus e => exact execPwrStatus_same e s
  | queueStall e => exact execQueueStall_same e s
  | qProdWrite queue v unknown => exact execQProdWrite_same queue v unknown s
  | qConsWrite queue v => exact execQConsWrite_same queue v s
  | qCfgWrite queue v => exact execQCfgWrite_same queue v s
  | stewardCtrlRestart v backplane => exact execStewardCtrlRestart_same v backplane s
  | cdcStatusClear v => exact execCdcStatusClear_same v s
  | cycleCountRead stopped => exact execCycleCountRead_same stopped s
  | registerWrite offset v enables high => exact execRegisterWrite_same offset v enables high s
  | reservedAccess offset write wide => exact execReservedAccess_same offset write wide s
  | msixVectorUnmask vector => exact execMsixVectorUnmask_same vector s
  | pcieReset linkStays => exact execPcieReset_same linkStays s
  | linkTraining partnerGen2 => exact execLinkTraining_same partnerGen2 s
  | udpDatagram bytes opcode e => exact execUdpDatagram_same bytes opcode e s
  | arpRequest target => exact execArpRequest_same target s
  | icmpEcho target data => exact execIcmpEcho_same target data s
  | ipReassemblyTimeout id => exact execIpReassemblyTimeout_same id s
  | tunnelTransmitEntry channel e => exact execTunnelTransmitEntry_same channel e s
  | tunnelSegment g => exact execTunnelSegment_same g s
  | peerReset g => exact execPeerReset_same g s
  | creditReport channel peer => exact execCreditReport_same channel peer s
  | brgReasmTimeout channel peer => exact execBrgReasmTimeout_same channel peer s
  | readTimeout tag => exact execReadTimeout_same tag s
  | brgWriteError tag detail => exact execBrgWriteError_same tag detail s
  | brgDiscard channel => exact execBrgDiscard_same channel s
  | telegramReceive port t => exact execTelegramReceive_same port t s
  | telegramGap port => exact execTelegramGap_same port s
  | sideBandPoll slot block => exact execSideBandPoll_same slot block s
  | busMasterEnableChange enabled d0 => exact execBusMasterEnableChange_same enabled d0 s
  | networkClockReturn => exact execNetworkClockReturn_same s
  | checkpointSeal l => exact execCheckpointSeal_same l s
  | telegramSent port => exact execTelegramSent_same port s
  | frequencyPulse channel pulse miss => exact execFrequencyPulse_same channel pulse miss s
  | recorderClearComplete => exact execRecorderClearComplete_same s
  | stewardBack => exact execStewardBack_same s
  | reportSigned => exact execReportSigned_same s

end Sys2Proof.Laws
end

