-- ==== Sys2Proof/Laws/Lanes.lean ====
section
/-! SUPPORT. Reading the three lanes, and the other per-lane values, after an update. -/

set_option Elab.async false

namespace Sys2Proof.Laws

open Sys2Proof Sys2Proof.Machine

theorem get_mapL {α β : Type} (f : LaneId → α → β) (t : Tri α) (l : LaneId) : (t.mapL f).get l = f l (t.get l) := by cases l <;> rfl

theorem map_get {α β : Type} (f : α → β) (t : Tri α) (l : LaneId) : (t.map f).get l = f (t.get l) := by cases l <;> rfl

theorem get_set_self {α : Type} (t : Tri α) (l : LaneId) (a : α) : (t.set l a).get l = a := by cases l <;> rfl

theorem get_set_ne {α : Type} (t : Tri α) (l k : LaneId) (a : α) (h : k ≠ l) : (t.set l a).get k = t.get k := by
  cases l <;> cases k <;> first | rfl | exact absurd rfl h

theorem get_upd_self {α : Type} (t : Tri α) (l : LaneId) (f : α → α) : (t.upd l f).get l = f (t.get l) := by cases l <;> rfl

theorem get_upd_ne {α : Type} (t : Tri α) (l k : LaneId) (f : α → α) (h : k ≠ l) : (t.upd l f).get k = t.get k := by
  cases l <;> cases k <;> first | rfl | exact absurd rfl h

theorem updLane_get_self (s : State) (l : LaneId) (f : LaneState → LaneState) : (s.updLane l f).lanes.get l = f (s.lanes.get l) := by
  cases l <;> rfl

theorem updLane_get_ne (s : State) (l k : LaneId) (f : LaneState → LaneState) (h : k ≠ l) : (s.updLane l f).lanes.get k = s.lanes.get k := by
  cases l <;> cases k <;> first | rfl | exact absurd rfl h

theorem mapLanes_get (s : State) (f : LaneId → LaneState → LaneState) (l : LaneId) : (s.mapLanes f).lanes.get l = f l (s.lanes.get l) := by
  cases l <;> rfl

theorem laneIn_congr {s t : State} (hp : t.platen.lanes = s.platen.lanes) (l : LaneId) (hh : (t.lanes.get l).held = (s.lanes.get l).held) :
    t.laneIn l = s.laneIn l := by unfold State.laneIn; rw [hp, hh]

theorem port_get_set_self {α : Type} (t : Quad α) (p : PortId) (a : α) : (t.set p a).get p = a := by cases p <;> rfl

theorem port_get_set_ne {α : Type} (t : Quad α) (p q : PortId) (a : α) (h : q ≠ p) : (t.set p a).get q = t.get q := by
  cases p <;> cases q <;> first | rfl | exact absurd rfl h

theorem port_get_upd_self {α : Type} (t : Quad α) (p : PortId) (f : α → α) : (t.upd p f).get p = f (t.get p) := by cases p <;> rfl

theorem port_get_upd_ne {α : Type} (t : Quad α) (p q : PortId) (f : α → α) (h : q ≠ p) : (t.upd p f).get q = t.get q := by
  cases p <;> cases q <;> first | rfl | exact absurd rfl h

end Sys2Proof.Laws
end

