-- ==== Sys2Proof/Laws/Store.lean ====
section
/-! SUPPORT. The word store (R77): writing keeps the canonical form, a read after a write gives what was written, and no other address
changes. -/

set_option Elab.async false

namespace Sys2Proof.Laws

open Sys2Proof Sys2Proof.Machine

variable {α : Type}

/-- Every key of the list is above a bound. -/
def Above (n : Nat) (l : List (Nat × α)) : Prop := ∀ p ∈ l, n < p.1

theorem kvSorted_cons {a : Nat} {x : α} {l : List (Nat × α)} : kvSorted ((a, x) :: l) = true ↔ Above a l ∧ kvSorted l = true := by
  induction l generalizing a x with
  | nil => simp [kvSorted, Above]
  | cons p l ih =>
    obtain ⟨b, y⟩ := p
    simp only [kvSorted, Bool.and_eq_true, decide_eq_true_eq]
    constructor
    · rintro ⟨h, g⟩
      refine ⟨fun q hq => ?_, g⟩
      rcases List.mem_cons.1 hq with rfl | hq
      · exact h
      · exact Nat.lt_trans h ((ih.1 g).1 q hq)
    · exact fun h => ⟨h.1 _ (List.mem_cons_self ..), h.2⟩

theorem kvSet_above {n a : Nat} {x : α} : ∀ {l : List (Nat × α)}, Above n l → n < a → Above n (kvSet l a x)
  | [], _, h => by simpa [kvSet, Above] using h
  | (b, y) :: l, g, h => by
    have gb := g (b, y) (List.mem_cons_self ..)
    have gl : Above n l := fun q hq => g q (List.mem_cons_of_mem _ hq)
    unfold kvSet
    split
    · intro q hq
      rcases List.mem_cons.1 hq with rfl | hq
      · exact h
      · exact g q hq
    · split
      · intro q hq
        rcases List.mem_cons.1 hq with rfl | hq
        · exact h
        · exact gl q hq
      · intro q hq
        rcases List.mem_cons.1 hq with rfl | hq
        · exact gb
        · exact kvSet_above gl h q hq

theorem kvSet_sorted {a : Nat} {x : α} : ∀ {l : List (Nat × α)}, kvSorted l = true → kvSorted (kvSet l a x) = true
  | [], _ => rfl
  | (b, y) :: l, h => by
    obtain ⟨hb, hl⟩ := kvSorted_cons.1 h
    unfold kvSet
    split
    · next g =>
      refine kvSorted_cons.2 ⟨fun q hq => ?_, h⟩
      rcases List.mem_cons.1 hq with rfl | hq
      · exact g
      · exact Nat.lt_trans g (hb q hq)
    · split
      · next e => exact kvSorted_cons.2 ⟨e ▸ hb, hl⟩
      · exact kvSorted_cons.2 ⟨kvSet_above hb (by omega), kvSet_sorted hl⟩

theorem kvDel_mem {a : Nat} {q : Nat × α} : ∀ {l : List (Nat × α)}, q ∈ kvDel l a → q ∈ l
  | [], h => h
  | (b, y) :: l, h => by
    unfold kvDel at h
    split at h
    · exact List.mem_cons_of_mem _ h
    · rcases List.mem_cons.1 h with rfl | h
      · exact List.mem_cons_self ..
      · exact List.mem_cons_of_mem _ (kvDel_mem h)

theorem kvDel_sorted {a : Nat} : ∀ {l : List (Nat × α)}, kvSorted l = true → kvSorted (kvDel l a) = true
  | [], _ => rfl
  | (b, y) :: l, h => by
    obtain ⟨hb, hl⟩ := kvSorted_cons.1 h
    unfold kvDel
    split
    · exact hl
    · exact kvSorted_cons.2 ⟨fun q hq => hb q (kvDel_mem hq), kvDel_sorted hl⟩

theorem kvSet_mem {a : Nat} {x : α} {q : Nat × α} : ∀ {l : List (Nat × α)}, q ∈ kvSet l a x → q = (a, x) ∨ q ∈ l
  | [], h => by simpa [kvSet] using h
  | (b, y) :: l, h => by
    unfold kvSet at h
    split at h
    · rcases List.mem_cons.1 h with h | h
      · exact .inl h
      · exact .inr h
    · split at h
      · rcases List.mem_cons.1 h with h | h
        · exact .inl h
        · exact .inr (List.mem_cons_of_mem _ h)
      · rcases List.mem_cons.1 h with rfl | h
        · exact .inr (List.mem_cons_self ..)
        · rcases kvSet_mem h with h | h
          · exact .inl h
          · exact .inr (List.mem_cons_of_mem _ h)

/-- A write keeps the canonical form. -/
theorem storeSet_wf {st : List (Nat × Word64)} (h : storeWf st = true) (a : Nat) (w : Word64) : storeWf (storeSet st a w) = true := by
  simp only [storeWf, Bool.and_eq_true, List.all_eq_true] at h ⊢
  unfold storeSet
  split
  · exact ⟨kvDel_sorted h.1, fun p hp => h.2 p (kvDel_mem hp)⟩
  · next g =>
    refine ⟨kvSet_sorted h.1, fun p hp => ?_⟩
    rcases kvSet_mem hp with rfl | hp
    · simpa using g
    · exact h.2 p hp

theorem kvGet_above {a : Nat} : ∀ {l : List (Nat × α)}, Above a l → kvGet l a = none
  | [], _ => rfl
  | (b, y) :: l, h => by
    have hb : a < b := h (b, y) (List.mem_cons_self ..)
    unfold kvGet
    rw [if_neg (by omega)]
    exact kvGet_above (fun q hq => h q (List.mem_cons_of_mem _ hq))

theorem kvGet_kvSet {a c : Nat} {x : α} : ∀ (l : List (Nat × α)), kvGet (kvSet l a x) c = if a = c then some x else kvGet l c
  | [] => by simp [kvSet, kvGet]
  | (b, y) :: l => by
    unfold kvSet
    split
    · simp only [kvGet]
    · split
      · next e => subst e; simp only [kvGet]; split <;> rfl
      · next g e =>
        simp only [kvGet, kvGet_kvSet l]
        split
        · next h => rw [if_neg (by omega)]
        · rfl

theorem kvGet_kvDel {a c : Nat} : ∀ {l : List (Nat × α)}, kvSorted l = true → kvGet (kvDel l a) c = if a = c then none else kvGet l c
  | [], _ => by simp [kvDel, kvGet]
  | (b, y) :: l, h => by
    obtain ⟨hb, hl⟩ := kvSorted_cons.1 h
    unfold kvDel
    split
    · next e =>
      subst e
      split
      · next e => subst e; exact kvGet_above hb
      · next e => simp only [kvGet, if_neg e]
    · next e =>
      simp only [kvGet, kvGet_kvDel hl]
      split
      · next h => rw [if_neg (by omega)]
      · rfl

/-- A read after a write: the word written at its own address, and at any other what stood there. -/
theorem storeGet_storeSet {st : List (Nat × Word64)} (h : storeWf st = true) (a c : Nat) (w : Word64) :
    storeGet (storeSet st a w) c = if a = c then w else storeGet st c := by
  simp only [storeWf, Bool.and_eq_true] at h
  unfold storeGet storeSet kvGetD
  split
  · next g => rw [kvGet_kvDel h.1]; split <;> simp [g]
  · rw [kvGet_kvSet]; split <;> rfl

theorem reset_storesWf : State.reset.storesWf = true := by decide

end Sys2Proof.Laws
end

