-- ==== Sys2Proof/Laws/Cycle.lean ====
section
/-! SUPPORT. What the operations of the interlocking cycle and of the proofs leave: one lemma for each. -/

set_option Elab.async false

namespace Sys2Proof.Laws

open Sys2Proof Sys2Proof.Machine

theorem forme_isSome (s : State) : s.forme.isSome = true ↔ s.runsNothing = false ∧ ∃ l, (s.lanes.get l).forme.isSome = true := by
  unfold State.forme
  cases h : s.runsNothing
  · rw [if_neg (by simp), List.findSome?_isSome_iff]
    constructor
    · rintro ⟨l, -, h⟩; exact ⟨rfl, l, h⟩
    · rintro ⟨-, l, h⟩; exact ⟨l, List.mem_append_right _ (by cases l <;> decide), h⟩
  · simp

theorem runCycle_platen (s : State) (f : Forme) (x : Sample) (failed : List LaneId) (b : Bool) (ns : Nat) :
    (s.runCycle f x failed b ns).platen = { s.platen with stretched := false, emitted := x.emitted } := by
  unfold State.runCycle
  dsimp only
  rw [(proofResult_same _).platen rfl]
  show { State.platen _ with stretched := false, emitted := x.emitted } = _
  rw [(duplexStrobe_same _ _).platen rfl, (evaluateLanes_same ..).platen rfl]
  split
  · rw [(freezeRequests_same _).platen rfl, (recordBatch_same ..).platen rfl, (sealField_same ..).platen rfl]
  · show { State.platen _ with stretched := false, emitted := x.emitted } = _
    rw [(recordBatch_same ..).platen rfl, (sealField_same ..).platen rfl]

/-- What reaches the evaluation of a cycle. -/
theorem runCycle_lanes (s : State) (f : Forme) (x : Sample) (failed : List LaneId) (b : Bool) (ns : Nat) :
    ∃ u stuck findings fell, (s.runCycle f x failed b ns).lanes = (State.evaluateLanes u x stuck findings fell failed).lanes ∧
      u.lanes = s.lanes ∧ u.platen = s.platen ∧ (s.runCycle f x failed b ns).req = u.req ∧ u.duplex = s.duplex ∧
      (b = false → u.req = { s.req with frozen := [] }) ∧
      (b = true → ∃ v : State, v.lanes = s.lanes ∧ v.platen = s.platen ∧ v.req = s.req ∧ v.duplex = s.duplex ∧ u.req = v.freezeRequests.req) := by
  let w := (s.sealField f x ns).recordBatch ((List.range 4).flatMap (fun d => List.replicate (memoryViolations x d) (recCount 0x0740 d)))
  have el : w.lanes = s.lanes := by rw [(recordBatch_same ..).lanes rfl, (sealField_same ..).lanes rfl]
  have ep : w.platen = s.platen := by rw [(recordBatch_same ..).platen rfl, (sealField_same ..).platen rfl]
  have er : w.req = s.req := by rw [(recordBatch_same ..).req rfl, (sealField_same ..).req rfl]
  have ed : w.duplex = s.duplex := by rw [(recordBatch_same ..).duplex rfl, (sealField_same ..).duplex rfl]
  refine ⟨if b then w.freezeRequests else { w with req := { w.req with frozen := [] } },
    (s.sealField f x ns).field.stuckOpen.filter (fun p => !s.field.stuckOpen.contains p), s.field.findings,
    f.lineFell { (s.sealField f x ns).field with sealed := s.field.sealed }, ?_, ?_, ?_, ?_, ?_, ?_, ?_⟩
  pick_goal 4
  · unfold State.runCycle
    dsimp only
    rw [(proofResult_same _).req rfl]
    show State.req _ = _
    rw [(duplexStrobe_same _ _).req rfl, (evaluateLanes_same ..).req rfl]
  · unfold State.runCycle
    dsimp only
    rw [(proofResult_same _).lanes rfl]
    show State.lanes _ = _
    rw [(duplexStrobe_same _ _).lanes rfl]
  · split
    · rw [(freezeRequests_same _).lanes rfl, el]
    · exact el
  · split
    · rw [(freezeRequests_same _).platen rfl, ep]
    · exact ep
  · split
    · rw [(freezeRequests_same _).duplex rfl, ed]
    · exact ed
  · rintro rfl
    show ({ State.req _ with frozen := [] } : Requests) = _; rw [er]
  · rintro rfl
    exact ⟨w, el, ep, er, ed, rfl⟩

/-- Of the power state a cycle changes the two measured voltages alone (R406). -/
theorem runCycle_power (s : State) (f : Forme) (x : Sample) (failed : List LaneId) (b : Bool) (ns : Nat) :
    (s.runCycle f x failed b ns).power =
      { s.power with vsMv := x.vsMv.getD s.power.vsMv, holdupMv := x.holdupMv.getD s.power.holdupMv } := by
  unfold State.runCycle
  dsimp only
  rw [(proofResult_same _).power rfl]
  show State.power _ = _
  rw [(duplexStrobe_same _ _).power rfl, (evaluateLanes_same ..).power rfl]
  split
  · rw [(freezeRequests_same _).power rfl, (recordBatch_same ..).power rfl]; rfl
  · show State.power _ = _
    rw [(recordBatch_same ..).power rfl]; rfl

/-- What an evaluation leaves of a lane's own: the slots and the reset line. -/
theorem evaluateLanes_get (s : State) (x : Sample) (a b : List (Nat × Nat)) (c : List Nat) (failed : List LaneId) (l : LaneId) :
    (s.laneIn l = false → (s.evaluateLanes x a b c failed).lanes.get l = s.lanes.get l) ∧
    ((s.evaluateLanes x a b c failed).lanes.get l).slot0 = (s.lanes.get l).slot0 ∧
    ((s.evaluateLanes x a b c failed).lanes.get l).slot1 = (s.lanes.get l).slot1 ∧
    ((s.evaluateLanes x a b c failed).lanes.get l).held = (s.lanes.get l).held ∧
    ((s.evaluateLanes x a b c failed).lanes.get l).gate = (s.lanes.get l).gate ∧
    ((s.evaluateLanes x a b c failed).lanes.get l).half0 = (s.lanes.get l).half0 ∧
    ((s.evaluateLanes x a b c failed).lanes.get l).half1 = (s.lanes.get l).half1 ∧
    (s.laneIn l = true → ∀ f, (s.lanes.get l).forme = some f →
      (l ∈ failed → ((s.evaluateLanes x a b c failed).lanes.get l).galley = none) ∧
      (l ∉ failed → l ∉ x.sram → ∃ ws, ((s.evaluateLanes x a b c failed).lanes.get l).galley = some ws)) := by
  unfold State.evaluateLanes State.mapLanes
  simp only [get_mapL]
  refine ⟨fun h => by rw [h]; rfl, ?_, ?_, ?_, ?_, ?_, ?_, ?_⟩
  · split
    · rfl
    · split
      · rfl
      · simp only [LaneState.currents, LaneState.suffer]
        split <;> split <;> rfl
  · split
    · rfl
    · split
      · rfl
      · simp only [LaneState.currents, LaneState.suffer]
        split <;> split <;> rfl
  · split
    · rfl
    · split
      · rfl
      · simp only [LaneState.currents, LaneState.suffer]
        split <;> split <;> rfl
  · split
    · rfl
    · split
      · rfl
      · simp only [LaneState.currents, LaneState.suffer]
        split <;> split <;> rfl
  · split
    · rfl
    · split
      · rfl
      · simp only [LaneState.currents, LaneState.suffer]
        split <;> split <;> rfl
  · split
    · rfl
    · split
      · rfl
      · simp only [LaneState.currents, LaneState.suffer]
        split <;> split <;> rfl
  · intro h f hf
    rw [h, hf]
    refine ⟨fun hm => by simp [hm], fun hm hx => ?_⟩
    have hx' : x.sram.contains l = false := by simpa using hx
    dsimp only [LaneState.currents, LaneState.suffer]
    rw [hx']
    have hm' : failed.contains l = false := by simpa using hm
    simp only [hm', Bool.false_eq_true, if_false, Bool.not_true]
    split <;> exact ⟨_, rfl⟩

/-- The strobe of a cycle that opens, once its forme is known: what the cycle leaves. -/
theorem cycle_facts (s u : State) (b c : Bool) (f : Forme) (x : Sample) (failed : List LaneId) (ns : Nat)
    (hn : u.net = (s.openCycle b).net) (hp : ∃ m, u.platen = { (s.openCycle b).platen with lanes := m }) :
    (u.runCycle f x failed c ns).net.count = s.net.strobeCount ∧ (u.runCycle f x failed c ns).net.atStart = false ∧
      (u.runCycle f x failed c ns).net.phase = 0 ∧ (u.runCycle f x failed c ns).net.snapshot = s.net.buffers ∧
      (u.runCycle f x failed c ns).net.ports = s.net.ports ∧ (u.runCycle f x failed c ns).net.mode = s.net.mode ∧
      (u.runCycle f x failed c ns).platen.cycleOpen = true ∧ (u.runCycle f x failed c ns).platen.complete = false ∧
      (u.runCycle f x failed c ns).platen.stretched = false ∧ (u.runCycle f x failed c ns).platen.copies = .all .empty ∧
      (u.runCycle f x failed c ns).platen.safe = s.platen.safe ∧ (u.runCycle f x failed c ns).platen.lengthened = b := by
  obtain ⟨m, hp⟩ := hp
  have e := (runCycle_same u f x failed c ns).net rfl
  rw [e, runCycle_platen, hn, hp]
  exact ⟨rfl, rfl, rfl, rfl, rfl, rfl, rfl, rfl, rfl, rfl, rfl, rfl⟩

theorem exchange_forme (st : LaneState) (l : LaneId) (k b : Bool) (n : Nat) (h : st.forme.isSome = true) :
    (st.exchange l k b n).forme.isSome = true := by
  unfold LaneState.exchange
  split
  · next old new ho hn =>
    show (st.swapRun).forme.isSome = true
    unfold LaneState.waitingForme LaneState.running at hn
    unfold LaneState.swapRun LaneState.running
    by_cases h0 : st.slot0.state = .running
    · simp only [h0, if_true, Option.bind_some, LaneState.slot] at hn
      simp [h0, LaneState.setSlot, LaneState.forme, LaneState.slot, show st.slot1.forme = some new from hn]
    · by_cases h1 : st.slot1.state = .running
      · simp only [h0, h1, if_false, if_true, Option.bind_some, LaneState.slot] at hn
        simp [h0, h1, LaneState.setSlot, LaneState.forme, LaneState.slot, show st.slot0.forme = some new from hn]
      · simp [h0, h1] at hn
  · exact h

theorem exchange_slots (st : LaneState) (l : LaneId) (k b : Bool) (n : Nat) (h : st.forme.isSome = true) (w : st.waitingForme.isSome = true) :
    (st.exchange l k b n).slot0 = st.swapRun.slot0 ∧ (st.exchange l k b n).slot1 = st.swapRun.slot1 := by
  unfold LaneState.exchange
  split
  · exact ⟨rfl, rfl⟩
  · next hh =>
    obtain ⟨f, hf⟩ := Option.isSome_iff_exists.1 h
    obtain ⟨g, hg⟩ := Option.isSome_iff_exists.1 w
    exact absurd hg (hh f g hf)

theorem exchange_held (st : LaneState) (l : LaneId) (k b : Bool) (n : Nat) : (st.exchange l k b n).held = st.held := by
  unfold LaneState.exchange
  split
  · show (st.swapRun).held = _
    unfold LaneState.swapRun
    split
    · rfl
    · simp only [LaneState.setSlot]; split <;> split <;> rfl
  · rfl

theorem openCycle_lane (s : State) (b : Bool) (l : LaneId) : (s.openCycle b).lanes.get l = { s.lanes.get l with galley := none } := by
  cases l <;> rfl

theorem openCycle_laneIn (s : State) (b : Bool) (l : LaneId) : (s.openCycle b).laneIn l = s.laneIn l :=
  laneIn_congr (by rfl) l (by rw [openCycle_lane])

theorem exchangeLanes_get (s : State) (failed : List LaneId) (l : LaneId) : (s.exchangeLanes failed).lanes.get l =
    if s.laneIn l then (s.lanes.get l).exchange l s.keepsVital (failed.contains l) s.net.count else s.lanes.get l := by
  unfold State.exchangeLanes State.mapLanes; rw [get_mapL]

theorem exchangeLanes_laneIn (s : State) (failed : List LaneId) (l : LaneId) : (s.exchangeLanes failed).laneIn l = s.laneIn l :=
  laneIn_congr (by rfl) l (by rw [exchangeLanes_get]; split; exact exchange_held ..; rfl)

theorem forme_congr {s t : State} (hp : t.platen.lanes = s.platen.lanes) (hr : t.runsNothing = s.runsNothing)
    (h : ∀ l, (t.lanes.get l).forme = (s.lanes.get l).forme ∧ (t.lanes.get l).held = (s.lanes.get l).held) : t.forme = s.forme := by
  unfold State.forme State.lanesIn
  have e : t.laneIn = s.laneIn := funext fun l => laneIn_congr hp l (h l).2
  rw [e, hr]
  congr 2
  exact funext fun l => (h l).1

theorem swapRun_galley (st : LaneState) (g : Option (List Word64)) :
    ({ st with galley := g } : LaneState).swapRun = { st.swapRun with galley := g } := by
  unfold LaneState.swapRun
  have e : LaneState.running { st with galley := g } = st.running := rfl
  rw [e]
  split
  · rfl
  · unfold LaneState.setSlot; dsimp only; split <;> split <;> rfl

theorem followTarget_alone (s : State) : ∃ x, s.followTarget = { s with xchg := x } := by
  unfold State.followTarget
  repeat' split
  all_goals first
    | exact ⟨s.xchg, rfl⟩
    | exact ⟨_, rfl⟩

theorem freezeRequests_single (s : State) (h : s.isDuplex = false) :
    s.freezeRequests.req = { s.req with frozen := s.req.waiting, waiting := [] } := by
  unfold State.freezeRequests; rw [h]; rfl

/-- What the work of step 9 leaves of a lane until its shadow is taken. -/
def ShadowKept (a b : LaneState) : Prop :=
  b.half0 = a.half0 ∧ b.half1 = a.half1 ∧ b.writing = a.writing ∧ b.lastHalf = a.lastHalf ∧ b.core = a.core ∧ b.held = a.held

theorem sealRunning_kept (st : LaneState) : ShadowKept st st.sealRunning := by
  unfold LaneState.sealRunning
  split
  · exact ⟨rfl, rfl, rfl, rfl, rfl, rfl⟩
  · unfold LaneState.setSlot; split <;> exact ⟨rfl, rfl, rfl, rfl, rfl, rfl⟩

/-- The state in which the shadows are taken. -/
theorem closeCycle_before (s : State) : ∃ u : State, s.closeCycle = { u.closeLanes with platen := u.platen.close, req := { u.req with frozen := [] } } ∧
    u.platen = s.platen ∧ ∀ l, ShadowKept (s.lanes.get l) (u.lanes.get l) := by
  have h0 : ∀ l, ShadowKept (s.lanes.get l) ((s.closeRows).lanes.get l) := by
    intro l
    unfold State.closeRows
    dsimp only
    split
    · exact ⟨rfl, rfl, rfl, rfl, rfl, rfl⟩
    · next k _ =>
      by_cases h : l = k
      · subst h; rw [updLane_get_self]; exact ⟨rfl, rfl, rfl, rfl, rfl, rfl⟩
      · rw [updLane_get_ne _ _ _ _ h]; exact ⟨rfl, rfl, rfl, rfl, rfl, rfl⟩
  have h1 : ∀ v : State, (∀ l, ShadowKept (s.lanes.get l) (v.lanes.get l)) → ∀ l, ShadowKept (s.lanes.get l) (v.exchangeDone.lanes.get l) := by
    intro v hv l
    unfold State.exchangeDone
    rw [(alignForme_same _).lanes rfl, (raise_same ..).lanes rfl]
    show ShadowKept _ ((State.mapLanes _ _).lanes.get l)
    unfold State.mapLanes
    simp only [get_mapL]
    split
    · obtain ⟨a, b, c, d, e, f⟩ := hv l
      obtain ⟨a', b', c', d', e', f'⟩ := sealRunning_kept (v.lanes.get l)
      exact ⟨a'.trans a, b'.trans b, c'.trans c, d'.trans d, e'.trans e, f'.trans f⟩
    · exact hv l
  have hl : (s.closeRows.closeFuncs.copyWords.handOver.takeDescriptor.recheck).lanes = s.closeRows.lanes := by
    rw [(recheck_same _).lanes rfl, (takeDescriptor_same _).lanes rfl, (handOver_same _).lanes rfl, (copyWords_same _).lanes rfl,
      (closeFuncs_same _).lanes rfl]
  have hp : (s.closeRows.closeFuncs.copyWords.handOver.takeDescriptor.recheck).platen = s.platen := by
    rw [(recheck_same _).platen rfl, (takeDescriptor_same _).platen rfl, (handOver_same _).platen rfl, (copyWords_same _).platen rfl,
      (closeFuncs_same _).platen rfl, (closeRows_same _).platen rfl]
  have e : s.closeCycle = (fun w : State => (fun u : State => ({ u.closeLanes with platen := u.closeLanes.platen.close, req := { u.closeLanes.req with frozen := [] } } : State))
      (if w.exchanging then w.exchangeDone else w)) (s.closeRows.closeFuncs.copyWords.handOver.takeDescriptor.recheck) := rfl
  rw [e]
  generalize s.closeRows.closeFuncs.copyWords.handOver.takeDescriptor.recheck = w at hl hp
  refine ⟨if w.exchanging then w.exchangeDone else w, rfl, ?_, ?_⟩
  · split
    · rw [(exchangeDone_same _).platen rfl, hp]
    · exact hp
  · split
    · exact h1 _ (by rw [hl]; exact h0)
    · rw [hl]; exact h0

theorem setHalf_get (st : LaneState) (n : Nat) (h : Checkpoint) :
    (st.setHalf n h).half n = h ∧ (n = 0 → (st.setHalf n h).half1 = st.half1) ∧ (n ≠ 0 → (st.setHalf n h).half0 = st.half0) ∧
    (st.setHalf n h).writing = st.writing ∧ (st.setHalf n h).lastHalf = st.lastHalf ∧ (st.setHalf n h).core = st.core ∧
    (st.setHalf n h).records = st.records ∧ (st.setHalf n h).events = st.events := by
  unfold LaneState.setHalf
  by_cases e : n = 0 <;> simp [e, LaneState.half]

theorem snapshot_facts (st : LaneState) : ∃ n, n = (st.writing.map (·.1)).getD (1 - st.lastHalf) ∧ st.snapshot.writing = some (n, st.core) ∧
    (st.snapshot.half n).isSealed = false ∧ (n = 1 → st.snapshot.half0 = st.half0) ∧ (n = 0 → st.snapshot.half1 = st.half1) ∧
    st.snapshot.core = st.core ∧ st.snapshot.records = st.records ∧ st.snapshot.events = st.events := by
  refine ⟨_, rfl, ?_⟩
  unfold LaneState.snapshot LaneState.oldHalf LaneState.setHalf
  by_cases e : (st.writing.map (·.1)).getD (1 - st.lastHalf) = 0 <;> simp [e, LaneState.half]

theorem exclude_copies (s : State) (l : LaneId) (r : Nat) : (s.exclude l r).platen.copies = s.platen.copies := by
  unfold State.exclude; dsimp only; rw [(raiseWith_same ..).platen rfl]; rfl

theorem enterSafe_copies (s : State) (c : Nat) : (s.enterSafe c).platen.copies = s.platen.copies := by
  unfold State.enterSafe; split
  · rfl
  · dsimp only; rw [(raiseWith_same ..).platen rfl]

theorem judgeLanes_copies (s : State) (f : Forme) : (s.judgeLanes f).platen.copies = s.platen.copies := by
  unfold State.judgeLanes
  split
  · rfl
  · dsimp only
    have h : ∀ (l : List (LaneId × Nat)) (t : State), (l.foldl (fun t p => if (s.reaching).contains p.1 then t.exclude p.1 p.2 else t) t).platen.copies = t.platen.copies := by
      intro l
      induction l with
      | nil => intro t; rfl
      | cons p l ih =>
        intro t
        rw [List.foldl_cons, ih]
        split
        · exact exclude_copies ..
        · rfl
    rw [h, (recordBatch_same ..).platen rfl]

theorem finishVote_copies (s : State) (f : Forme) : (s.finishVote f).platen.copies = s.platen.copies := by
  have h1 : ∀ (u : State) (o : Tri (List Word64)), (u.latchOut f o).platen = u.platen := fun u o => (latchOut_same ..).platen rfl
  unfold State.finishVote
  dsimp only
  repeat' split
  all_goals first
    | (rw [h1]; done)
    | (rw [h1]; exact enterSafe_copies ..)
    | (rw [h1]; exact judgeLanes_copies ..)

theorem endVote_copies (s : State) (f : Forme) : (s.endVote f).platen.copies = s.platen.copies := by
  unfold State.endVote
  split
  · rw [finishVote_copies]; rfl
  · rfl

theorem laneOp_get {s : State} {l : LaneId} {f : Forme} (hr : s.power.running = true) (hl : s.laneIn l = true) (hf : (s.lanes.get l).forme = some f)
    (op : Env → Ev → Ev) : (s.laneOp op).lanes.get l = (s.lanes.get l).take (op (s.envOf l f) (Ev.start (s.lanes.get l).core)) := by
  unfold State.laneOp
  rw [if_pos hr]
  unfold State.inLanes
  rw [mapLanes_get, if_pos hl, hf]

theorem inLanes_alone (s : State) (op : Env → Ev → Ev) : ∃ ls, s.laneOp op = { s with lanes := ls } ∧
    (∀ l, s.laneIn l = false ∨ (s.lanes.get l).forme = none ∨ s.power.running = false → ls.get l = s.lanes.get l) ∧
      (∀ l, (ls.get l).held = (s.lanes.get l).held ∧ (ls.get l).gate = (s.lanes.get l).gate ∧ (ls.get l).slot0 = (s.lanes.get l).slot0 ∧
        (ls.get l).slot1 = (s.lanes.get l).slot1 ∧ (ls.get l).half0 = (s.lanes.get l).half0 ∧ (ls.get l).half1 = (s.lanes.get l).half1 ∧
        (ls.get l).galley = (s.lanes.get l).galley ∧ (s.lanes.get l).events <+: (ls.get l).events ∧
        (s.lanes.get l).records <+: (ls.get l).records ∧ (s.lanes.get l).recs <+: (ls.get l).recs) := by
  have same : ∀ st : LaneState, st.held = st.held ∧ st.gate = st.gate ∧ st.slot0 = st.slot0 ∧ st.slot1 = st.slot1 ∧ st.half0 = st.half0 ∧
      st.half1 = st.half1 ∧ st.galley = st.galley ∧ st.events <+: st.events ∧ st.records <+: st.records ∧ st.recs <+: st.recs := fun st =>
    ⟨rfl, rfl, rfl, rfl, rfl, rfl, rfl, List.prefix_refl _, List.prefix_refl _, List.prefix_refl _⟩
  by_cases hr : s.power.running = true
  · refine ⟨(s.inLanes op).lanes, ?_, ?_, ?_⟩
    · unfold State.laneOp; rw [if_pos hr]; rfl
    · intro l h
      unfold State.inLanes
      rw [mapLanes_get]
      rcases h with h | h | h
      · rw [h]; rfl
      · rw [h]; split <;> rfl
      · rw [hr] at h; cases h
    · intro l
      unfold State.inLanes
      rw [mapLanes_get]
      split
      · split
        · exact same _
        · exact ⟨rfl, rfl, rfl, rfl, rfl, rfl, rfl, List.prefix_append _ _, List.prefix_append _ _, List.prefix_append _ _⟩
      · exact same _
  · refine ⟨s.lanes, ?_, fun _ _ => rfl, fun l => same _⟩
    unfold State.laneOp; rw [if_neg hr]

theorem ofMembers4 (a b c d : Bool) : ofMembers [a, b, c, d] = 0 ↔ a = false ∧ b = false ∧ c = false ∧ d = false := by
  cases a <;> cases b <;> cases c <;> cases d <;> decide

theorem isolationOk_iff {s : State} (hr : s.power.running = true) : s.isolationOk = true ↔ s.platen.cycleOpen = false ∧ s.forme.isSome = true ∧
    s.platen.safe = false ∧ s.xchg.state = .idle ∧ s.platen.overrunRun = 0 ∧ ∀ m, s.platen.lanes.get m = .inService 0 ∧ (s.lanes.get m).held = false := by
  unfold State.isolationOk
  simp only [hr, Bool.true_and, Bool.and_eq_true, Bool.not_eq_true', beq_iff_eq, List.all_eq_true]
  constructor
  · rintro ⟨⟨⟨⟨⟨a, b⟩, c⟩, d⟩, e⟩, f⟩
    exact ⟨a, b, c, d, e, fun m => f m (by cases m <;> decide)⟩
  · rintro ⟨a, b, c, d, e, f⟩
    exact ⟨⟨⟨⟨⟨a, b⟩, c⟩, d⟩, e⟩, fun m _ => f m⟩

theorem exclude_facts (s : State) (l : LaneId) (r : Nat) : (s.exclude l r).platen.lanes = s.platen.lanes.set l .excluded ∧
    ((s.exclude l r).lanes.get l).gate = false ∧ ((s.exclude l r).lanes.get l).held = true ∧ (s.exclude l r).proofs = s.proofs ∧
    ((s.exclude l r).lanes.get l).half0 = (s.lanes.get l).half0 ∧ ((s.exclude l r).lanes.get l).half1 = (s.lanes.get l).half1 := by
  have hl : (s.exclude l r).lanes = s.lanes.set l { s.lanes.get l with held := true, gate := false, writing := none } := by
    unfold State.exclude; dsimp only; rw [(raiseWith_same ..).lanes rfl]; rfl
  refine ⟨?_, ?_, ?_, ?_, ?_, ?_⟩
  · unfold State.exclude; dsimp only; rw [(raiseWith_same ..).platen rfl]; rfl
  · rw [hl, get_set_self]
  · rw [hl, get_set_self]
  · unfold State.exclude; dsimp only; rw [(raiseWith_same ..).proofs rfl]; rfl
  · rw [hl, get_set_self]
  · rw [hl, get_set_self]

theorem isolate_eq (s : State) (l : LaneId) (k : Nat) : ∃ u : State, s.isolate l k = u.raise evProofStarted (leBytes 2 (1 + l.num) ++ leBytes 1 k) ∧
    u.lanes = s.lanes.set l { s.lanes.get l with gate := false, writing := none } ∧ u.platen = { s.platen with lanes := s.platen.lanes.set l .isolated } ∧
    u.proofs = { s.proofs with running := some (1 + l.num, k), requested := none, nextLane := if k = 2 then nextLane l else s.proofs.nextLane } ∧
    u.field = s.field ∧ u.net = s.net ∧ u.host = s.host ∧ u.life = (if k = 2 then { s.life with inServiceS := 0 } else s.life) :=
  ⟨_, rfl, rfl, rfl, rfl, rfl, rfl, rfl, rfl⟩

theorem endProof_proofs (s : State) (r : ProofReading) (k : Nat) (late : Bool) :
    (s.endProof r k late).proofs.running = none ∧ ProofReading.record r k late s.recorder.seq ∈ (s.endProof r k late).proofs.results ∧
    (∀ l, blockLane r.block = some l → s.platen.lanes.get l = .isolated →
      ((ProofReading.record r k late s.recorder.seq).verdict = 0 → (s.endProof r k late).proofs.rejoin = some l ∧ (s.endProof r k late).platen = s.platen) ∧
      ((ProofReading.record r k late s.recorder.seq).verdict ≠ 0 → (s.endProof r k late).platen.lanes.get l = .excluded ∧
        ((s.endProof r k late).lanes.get l).gate = false)) := by
  have hst : ∀ u : State, ∀ x, (u.storeProof x).proofs = u.proofs.store x ∧ (u.storeProof x).platen = u.platen := fun u x =>
    ⟨(recordBatch_same _ _).proofs rfl, (recordBatch_same _ _).platen rfl⟩
  have hpass : ∀ u : State, ∀ b, (u.blockPasses b).proofs.running = u.proofs.running ∧ (u.blockPasses b).proofs.results = u.proofs.results := by
    intro u b
    unfold State.blockPasses
    split
    · split <;> exact ⟨rfl, rfl⟩
    · split
      · exact ⟨rfl, rfl⟩
      · unfold State.freeBank; split <;> exact ⟨rfl, rfl⟩
    · split
      · exact ⟨rfl, rfl⟩
      · exact ⟨rfl, rfl⟩
    · exact ⟨rfl, rfl⟩
  unfold State.endProof
  dsimp only
  by_cases hv : (ProofReading.record r k late s.recorder.seq).verdict = 0
  · rw [if_pos hv]
    refine ⟨?_, ?_, ?_⟩
    · rw [(raise_same ..).proofs rfl, (hpass _ _).1, (hst _ _).1]; rfl
    · rw [(raise_same ..).proofs rfl, (hpass _ _).2, (hst _ _).1]
      exact List.mem_append_right _ (List.mem_singleton.2 rfl)
    · intro l hl hi
      refine ⟨fun _ => ?_, fun h => absurd hv h⟩
      have : ∀ u : State, u.platen = s.platen → (u.blockPasses r.block).proofs.rejoin = some l ∧ (u.blockPasses r.block).platen = s.platen := by
        intro u hu
        unfold State.blockPasses
        rw [hl]
        dsimp only
        rw [if_pos (by rw [hu]; exact hi)]
        exact ⟨rfl, hu⟩
      have h2 := this (({ s with proofs := { s.proofs with running := none } } : State).storeProof (ProofReading.record r k late s.recorder.seq)) (hst _ _).2
      refine ⟨?_, ?_⟩
      · rw [(raise_same ..).proofs rfl]; exact h2.1
      · rw [(raise_same ..).platen rfl]; exact h2.2
  · rw [if_neg hv]
    refine ⟨?_, ?_, ?_⟩
    · rw [(raise_same ..).proofs rfl, (blockFails_same _ _).proofs rfl, (hst _ _).1]; rfl
    · rw [(raise_same ..).proofs rfl, (blockFails_same _ _).proofs rfl, (hst _ _).1]
      exact List.mem_append_right _ (List.mem_singleton.2 rfl)
    · intro l hl hi
      refine ⟨fun h => absurd h hv, fun _ => ?_⟩
      rw [(raise_same ..).platen rfl, (raise_same ..).lanes rfl]
      unfold State.blockFails
      rw [hl]
      dsimp only
      rw [if_pos (by rw [(hst _ _).2]; exact hi)]
      obtain ⟨a, b, -⟩ := exclude_facts (({ s with proofs := { s.proofs with running := none } } : State).storeProof (ProofReading.record r k late s.recorder.seq)) l 8
      exact ⟨by rw [a, get_set_self], b⟩

end Sys2Proof.Laws
end

