-- ==== Sys2Proof/Laws/Limits.lean ====
section
/-! SUPPORT. The limits of R36, R310 and R317: no command brings the tables of the host side above them. -/

set_option Elab.async false

namespace Sys2Proof.Laws

open Sys2Proof Sys2Proof.Machine

/-- Commands outstanding. -/
abbrev outLen (s : State) : Nat := s.host.outstanding.length

theorem out_le {k : Nat} {s t : State} {n : Nat} (g : outLen s ≤ n) (h : Same k s t) (b : k.testBit 24 = false) : outLen t ≤ n :=
  Nat.le_trans (h.outstanding b) g

theorem keep_out {s : State} {o : Outstanding} {n : Nat} (g : outLen s ≤ n) : outLen (s.keep o) ≤ n + 1 := by
  simpa [State.keep, outLen] using g

theorem file_out {s : State} {o : Outstanding} {k : ReqKind} {key tok n : Nat} (g : outLen s ≤ n) :
    outLen (s.file o k key tok) ≤ n + 1 := keep_out g

theorem request_out {s : State} {o : Outstanding} {k : ReqKind} {n : Nat} (g : outLen s ≤ n) : outLen (s.request o k) ≤ n + 1 := by
  unfold State.request
  dsimp only
  repeat' split
  all_goals first
    | exact file_out g
    | exact Nat.le_succ_of_le (out_le g (answer_same ..) rfl)
    | exact Nat.le_succ_of_le (out_le g (noSlot_same ..) rfl)

theorem withToken_out {s : State} {o : Outstanding} {ks : List Nat} {t : List Byte} {sig : Sig} {run : State → State} {n : Nat}
    (g : outLen s ≤ n) (hr : ∀ v, outLen v ≤ n → outLen (run v) ≤ n + 1) : outLen (s.withToken o ks t sig run) ≤ n + 1 := by
  unfold State.withToken
  repeat' split
  · exact Nat.le_succ_of_le (out_le g (badPayload_same ..) rfl)
  · exact hr _ (out_le g (countToken_same ..) rfl)
  · exact Nat.le_succ_of_le (out_le g (refuseToken_same ..) rfl)

theorem forceSet_out {s : State} {o : Outstanding} {b : List Byte} {sig : Sig} {n : Nat} (g : outLen s ≤ n) :
    outLen (s.forceSet o b sig) ≤ n + 1 := by
  unfold State.forceSet
  dsimp only
  repeat' split
  all_goals first
    | exact file_out g
    | exact Nat.le_succ_of_le (out_le g (answer_same ..) rfl)
    | exact Nat.le_succ_of_le (out_le g (badPayload_same ..) rfl)
    | refine withToken_out g (fun v hv => ?_)
      repeat' split
      all_goals first
        | exact file_out hv
        | exact Nat.le_succ_of_le (out_le hv (answer_same ..) rfl)

theorem blockClear_out {s : State} {o : Outstanding} {b : List Byte} {sig : Sig} {n : Nat} (g : outLen s ≤ n) :
    outLen (s.blockClear o b sig) ≤ n + 1 := by
  unfold State.blockClear
  dsimp only
  repeat' split
  all_goals first
    | exact Nat.le_succ_of_le (out_le g (answer_same ..) rfl)
    | exact Nat.le_succ_of_le (out_le g (badPayload_same ..) rfl)
    | refine withToken_out g (fun v hv => ?_)
      repeat' split
      all_goals first
        | exact file_out hv
        | exact Nat.le_succ_of_le (out_le hv (noSlot_same ..) rfl)
        | exact Nat.le_succ_of_le (out_le hv (answer_same ..) rfl)

theorem prepare_out {s : State} {o : Outstanding} {d : Digest} {n : Nat} (g : outLen s ≤ n) : outLen (s.prepare o d) ≤ n + 1 := by
  unfold State.prepare
  repeat' split
  · exact Nat.le_succ_of_le (out_le g (answer_same ..) rfl)
  · exact Nat.le_succ_of_le (out_le g (answer_same ..) rfl)
  · refine Nat.le_succ_of_le (out_le ?_ (answer_same ..) rfl)
    exact g
  · exact keep_out (show outLen s.unsealFree ≤ n from out_le g (unsealFree_same s) rfl)

theorem attest_out {s : State} {o : Outstanding} {l : List Byte} {n : Nat} (g : outLen s ≤ n) : outLen (s.attest o l) ≤ n + 1 := by
  unfold State.attest
  repeat' split
  all_goals first
    | exact keep_out g
    | exact Nat.le_succ_of_le (out_le g (answer_same ..) rfl)

theorem recClear_out {s : State} {o : Outstanding} {l : List Byte} {n : Nat} (g : outLen s ≤ n) : outLen (s.recClear o l) ≤ n + 1 := by
  unfold State.recClear
  dsimp only
  split
  · exact keep_out g
  · exact Nat.le_succ_of_le (out_le (out_le g (answer_same ..) rfl) (raise_same ..) rfl)

/-- A command whose effect keeps at most one more command outstanding never exceeds 256 (R310). -/
theorem command_out {s : State} {op : Nat} {needs needsUdp : Bool} {e : Entry} {run : Outstanding → State → State} (hs : outLen s ≤ 256)
    (hr : ∀ o v n, outLen v ≤ n → outLen (run o v) ≤ n + 1) : outLen (s.command op needs needsUdp e run) ≤ 256 := by
  have hd : outLen (s.dequeue e) ≤ outLen s := (dequeue_same s e).outstanding rfl
  unfold State.command
  dsimp only
  split
  · exact hs
  · exact out_le hs (stall_same ..) rfl
  · split
    · exact out_le (out_le (Nat.le_trans hd hs) (answer_same ..) rfl) (recordBatch_same ..) rfl
    · exact out_le (Nat.le_trans hd hs) (answer_same ..) rfl
  · refine out_le (out_le ?_ (answer_same ..) rfl) (recordBatch_same ..) rfl
    exact Nat.le_trans hd hs
  · next h =>
    have : ¬ 256 ≤ outLen s := by
      intro c
      unfold State.vet at h
      repeat' split at h
      all_goals cases h
    have := hr (outstandingOf op e none) (s.dequeue e) 255 (by omega)
    omega

theorem exec_outstanding (c : Instr) {s t : State} (h : exec c s = .next t) (hs : outLen s ≤ 256) : outLen t ≤ 256 := by
  obtain ⟨t', h', g⟩ := exec_leads c s
  obtain rfl : t = t' := by
    have := h.symm.trans h'
    injection this
  by_cases b : (footprint c).testBit 24 = false
  · exact Nat.le_trans (g.outstanding b) hs
  · cases c <;> first
      | (exact absurd (by simp only [footprint]; decide) b)
      | skip
    all_goals
      injection h with h
      subst h
      refine command_out hs (fun o v n hv => ?_)
      try dsimp only
      repeat' split
      all_goals first
        | exact Nat.le_succ_of_le (out_le hv (badPayload_same ..) rfl)
        | exact Nat.le_succ_of_le (out_le hv (answer_same ..) rfl)
        | exact request_out hv
        | exact file_out hv
        | exact forceSet_out hv
        | exact blockClear_out hv
        | exact prepare_out hv
        | exact attest_out hv
        | exact withToken_out hv (fun v hv => recClear_out hv)

/-! ### Sessions (R317) -/

theorem sess_le {k : Nat} {s t : State} {n : Nat} (g : s.host.sessions.length ≤ n) (h : Same k s t) (b : k.testBit 23 = false) :
    t.host.sessions.length ≤ n := Nat.le_trans (h.sessions b) g

theorem sessionOpen_sess {s : State} {o : Outstanding} {e : Entry} (hs : s.host.sessions.length ≤ 4) :
    (s.sessionOpen o e).host.sessions.length ≤ 4 := by
  unfold State.sessionOpen
  dsimp only
  repeat' split
  · exact sess_le hs (authFail_same ..) rfl
  · exact sess_le hs (answer_same ..) rfl
  · next h =>
    refine sess_le ?_ (answer_same ..) rfl
    have := (applyParams_same s (fun id => id == 0x0F01)).sessions rfl
    show (_ ++ [_]).length ≤ 4
    simp only [List.length_append, List.length_singleton]
    omega

theorem command_sess {s : State} {op : Nat} {needs needsUdp : Bool} {e : Entry} {run : Outstanding → State → State} {n : Nat}
    (hs : s.host.sessions.length ≤ n) (hr : ∀ o v, v.host.sessions.length ≤ n → (run o v).host.sessions.length ≤ n) :
    (s.command op needs needsUdp e run).host.sessions.length ≤ n := by
  have hd := sess_le hs (dequeue_same s e) rfl
  unfold State.command
  dsimp only
  repeat' split
  · exact hs
  · exact sess_le hs (stall_same ..) rfl
  · exact sess_le (sess_le hd (answer_same ..) rfl) (recordBatch_same ..) rfl
  · exact sess_le hd (answer_same ..) rfl
  · refine sess_le (sess_le ?_ (answer_same ..) rfl) (recordBatch_same ..) rfl
    exact hd
  · exact hr _ _ hd

theorem exec_sessions (c : Instr) {s t : State} (h : exec c s = .next t) (hs : s.host.sessions.length ≤ 4) :
    t.host.sessions.length ≤ 4 := by
  obtain ⟨t', h', g⟩ := exec_leads c s
  obtain rfl : t = t' := by
    have := h.symm.trans h'
    injection this
  by_cases b : (footprint c).testBit 23 = false
  · exact Nat.le_trans (g.sessions b) hs
  · cases c <;> first
      | (exact absurd (by simp only [footprint]; decide) b)
      | skip
    injection h with h
    subst h
    refine command_sess hs (fun o v hv => ?_)
    split
    · exact sessionOpen_sess hv
    · exact sess_le hv (badPayload_same ..) rfl

/-! ### CRC contexts (R36 to R40): their numbers are distinct and below 64 -/

/-- Context numbers are distinct and below 64. -/
def CtxSound (l : List CrcContext) : Prop := (l.map (·.num)).Nodup ∧ ∀ c ∈ l, c.num < 64

theorem CtxSound.sub {l m : List CrcContext} (h : CtxSound l) (g : m.Sublist l) : CtxSound m :=
  ⟨h.1.sublist (g.map _), fun c hc => h.2 c (g.subset hc)⟩

theorem sortInsert_perm {α : Type} (le : α → α → Bool) (x : α) : ∀ l : List α, (sortInsert le x l).Perm (x :: l)
  | [] => .refl _
  | y :: l => by
    unfold sortInsert
    split
    · exact .refl _
    · exact ((sortInsert_perm le x l).cons y).trans (.swap x y l)

theorem sortBy_perm {α : Type} (le : α → α → Bool) : ∀ l : List α, (sortBy le l).Perm l
  | [] => .refl _
  | x :: l => (sortInsert_perm le x _).trans ((sortBy_perm le l).cons x)

theorem CtxSound.set {l : List CrcContext} (h : CtxSound l) {c : CrcContext} (hc : c.num < 64) :
    CtxSound (sortBy (fun a b => decide (a.num ≤ b.num)) (l.filter (fun d => d.num != c.num) ++ [c])) := by
  have p := sortBy_perm (fun a b : CrcContext => decide (a.num ≤ b.num)) (l.filter (fun d => d.num != c.num) ++ [c])
  have f := h.sub (l.filter_sublist (p := fun d => d.num != c.num))
  refine ⟨(p.map _).nodup_iff.2 ?_, fun d hd => ?_⟩
  · rw [List.map_append, List.nodup_append]
    refine ⟨f.1, by simp, ?_⟩
    intro a ha b hb
    obtain ⟨d, hd, rfl⟩ := List.mem_map.1 ha
    have := (List.mem_filter.1 hd).2
    simp at hb this
    rw [hb]; exact this
  · rcases List.mem_append.1 (p.subset hd) with m | m
    · exact f.2 d m
    · rw [List.mem_singleton.1 m]; exact hc

theorem ctx_sub {k : Nat} {s t : State} (g : CtxSound s.crc) (h : Same k s t) (b : k.testBit 25 = false) : CtxSound t.crc :=
  g.sub (h.contexts b)

theorem context_num {s : State} {o : Outstanding} {n : Nat} {c : CrcContext} (g : CtxSound s.crc) (h : s.context o n = some c) :
    c.num < 64 := g.2 c (List.mem_of_find?_eq_some h)

theorem crcOpen_ctx {s : State} {o : Outstanding} {p : Nat} (g : CtxSound s.crc) : CtxSound (s.crcOpen o p).crc := by
  unfold State.crcOpen
  split
  · exact ctx_sub (ctx_sub g (answer_same ..) rfl) (recordBatch_same ..) rfl
  · next n h =>
    refine ctx_sub ?_ (answer_same ..) rfl
    exact g.set (List.mem_range.1 (List.mem_of_find?_eq_some h))

theorem crcFeed_ctx {s : State} {o : Outstanding} {n : Nat} {l : List Byte} (g : CtxSound s.crc) : CtxSound (s.crcFeed o n l).crc := by
  unfold State.crcFeed
  split
  · exact ctx_sub g (answer_same ..) rfl
  · next c h =>
    refine ctx_sub ?_ (answer_same ..) rfl
    have hc := context_num g h
    exact CtxSound.set g hc

theorem crcWrite_ctx {s : State} {o : Outstanding} {n v : Nat} (g : CtxSound s.crc) : CtxSound (s.crcWrite o n v).crc := by
  unfold State.crcWrite
  split
  · exact ctx_sub g (answer_same ..) rfl
  · next c h =>
    refine ctx_sub ?_ (answer_same ..) rfl
    have hc := context_num g h
    exact CtxSound.set g hc

theorem command_ctx {s : State} {op : Nat} {needs needsUdp : Bool} {e : Entry} {run : Outstanding → State → State}
    (hs : CtxSound s.crc) (hr : ∀ o v, CtxSound v.crc → CtxSound (run o v).crc) :
    CtxSound (s.command op needs needsUdp e run).crc := by
  have hd := ctx_sub hs (dequeue_same s e) rfl
  unfold State.command
  dsimp only
  repeat' split
  · exact hs
  · exact ctx_sub hs (stall_same ..) rfl
  · exact ctx_sub (ctx_sub hd (answer_same ..) rfl) (recordBatch_same ..) rfl
  · exact ctx_sub hd (answer_same ..) rfl
  · refine ctx_sub (ctx_sub ?_ (answer_same ..) rfl) (recordBatch_same ..) rfl
    exact hd
  · exact hr _ _ hd

theorem exec_contexts (c : Instr) {s t : State} (h : exec c s = .next t) (hs : CtxSound s.crc) : CtxSound t.crc := by
  obtain ⟨t', h', g⟩ := exec_leads c s
  obtain rfl : t = t' := by
    have := h.symm.trans h'
    injection this
  by_cases b : (footprint c).testBit 25 = false
  · exact hs.sub (g.contexts b)
  · cases c <;> first
      | (exact absurd (by simp only [footprint]; decide) b)
      | skip
    · injection h with h
      subst h
      refine command_ctx hs (fun o v hv => ?_)
      split
      · exact crcOpen_ctx hv
      · exact ctx_sub hv (badPayload_same ..) rfl
    · injection h with h
      subst h
      refine command_ctx hs (fun o v hv => ?_)
      dsimp only
      split
      · exact crcFeed_ctx hv
      · exact ctx_sub hv (badPayload_same ..) rfl
    · injection h with h
      subst h
      refine command_ctx hs (fun o v hv => ?_)
      split
      · exact crcWrite_ctx hv
      · exact ctx_sub hv (badPayload_same ..) rfl

end Sys2Proof.Laws
end

