-- ==== Sys2Proof/Laws/Queues.lean ====
section
/-! SUPPORT. What writing an entry does to the queues. -/

set_option Elab.async false

namespace Sys2Proof.Laws

open Sys2Proof Sys2Proof.Machine

/-- Replacing one element of a list. -/
theorem nthD_setNth {α : Type} (d v : α) : ∀ (l : List α) (i n : Nat),
    nthD (setNth l i v) n d = if n = i ∧ i < l.length then v else nthD l n d
  | [], i, n => by simp [setNth, nthD]
  | x :: l, 0, 0 => by simp [setNth, nthD]
  | x :: l, 0, n + 1 => by simp [setNth, nthD]
  | x :: l, i + 1, 0 => by simp [setNth, nthD]
  | x :: l, i + 1, n + 1 => by
    have := nthD_setNth d v l i n
    simpa [setNth, nthD] using this

theorem updQueue_queue (s : State) (i n : Nat) (f : Queue → Queue) (h : i < s.host.queues.length) :
    (s.updQueue i f).host.queue n = if n = i then f (s.host.queue i) else s.host.queue n := by
  show nthD (setNth _ _ _) n _ = _
  rw [nthD_setNth]
  simp only [h, and_true]
  split
  · rfl
  · rfl

theorem message_queue (h : HostLink) (v n : Nat) : (h.message v).queue n = h.queue n := by
  unfold HostLink.message; split <;> rfl

theorem enqueue_queue (s : State) (i n : Nat) (e : OutEntry) (h : i < s.host.queues.length) :
    (s.enqueue i e).host.queue n = if n = i then
      { s.host.queue i with prod := ((s.host.queue i).prod + 1) % 65536, held := (s.host.queue i).held ++ [e] } else s.host.queue n := by
  unfold State.enqueue
  dsimp only
  split
  · rw [show ∀ (t : State) v, ({ t with host := t.host.message v } : State).host.queue n = (t.host.message v).queue n from fun _ _ => rfl,
      message_queue, updQueue_queue _ _ _ _ h]
  · rw [updQueue_queue _ _ _ _ h]

theorem enqueue_length (s : State) (i : Nat) (e : OutEntry) : (s.enqueue i e).host.queues.length = s.host.queues.length := by
  unfold State.enqueue
  dsimp only
  split
  · show (HostLink.message _ _).queues.length = _
    unfold HostLink.message
    split <;> exact length_setNth _ _ _
  · exact length_setNth _ _ _

/-- What a write of an entry may change of the host link. -/
def EntryWritten (h g : HostLink) : Prop :=
  ∃ queues messages pba, g = { h with queues := queues, messages := messages, pba := pba }

theorem EntryWritten.refl (h : HostLink) : EntryWritten h h := ⟨h.queues, h.messages, h.pba, rfl⟩

theorem EntryWritten.trans {h g k : HostLink} (a : EntryWritten h g) (b : EntryWritten g k) : EntryWritten h k := by
  obtain ⟨q, m, p, rfl⟩ := a
  obtain ⟨q', m', p', rfl⟩ := b
  exact ⟨q', m', p', rfl⟩

theorem updQueue_written (s : State) (n : Nat) (f : Queue → Queue) : EntryWritten s.host (s.updQueue n f).host :=
  ⟨_, s.host.messages, s.host.pba, rfl⟩

theorem message_written (h : HostLink) (v : Nat) : EntryWritten h (h.message v) := by
  unfold HostLink.message
  split
  · exact ⟨h.queues, h.messages, _, rfl⟩
  · exact ⟨h.queues, _, h.pba, rfl⟩

theorem enqueue_written (s : State) (n : Nat) (e : OutEntry) : EntryWritten s.host (s.enqueue n e).host := by
  unfold State.enqueue
  dsimp only
  split
  · exact (updQueue_written s n _).trans (message_written _ _)
  · exact updQueue_written s n _

/-- What the raise of an event may change of the host link (R322). -/
def EventRaised (h g : HostLink) : Prop :=
  ∃ evtCount queues messages pba portOut heldEvents,
    g = { h with evtCount := evtCount, queues := queues, messages := messages, pba := pba, portOut := portOut, heldEvents := heldEvents }

theorem EventRaised.refl (h : HostLink) : EventRaised h h := ⟨h.evtCount, h.queues, h.messages, h.pba, h.portOut, h.heldEvents, rfl⟩

theorem EventRaised.trans {h g k : HostLink} (a : EventRaised h g) (b : EventRaised g k) : EventRaised h k := by
  obtain ⟨e, q, m, p, o, l, rfl⟩ := a
  obtain ⟨e', q', m', p', o', l', rfl⟩ := b
  exact ⟨e', q', m', p', o', l', rfl⟩

theorem EntryWritten.raised {h g : HostLink} (a : EntryWritten h g) : EventRaised h g := by
  obtain ⟨q, m, p, rfl⟩ := a
  exact ⟨h.evtCount, q, m, p, h.portOut, h.heldEvents, rfl⟩

theorem raiseNow_raised (s : State) (num : Nat) (p : List Byte) : EventRaised s.host (s.raiseNow num p).host := by
  have h1 : ∀ c, EventRaised s.host { s.host with evtCount := c } := fun c =>
    ⟨c, s.host.queues, s.host.messages, s.host.pba, s.host.portOut, s.host.heldEvents, rfl⟩
  unfold State.raiseNow
  dsimp only
  split
  · exact h1 _
  · split
    · split
      · exact (h1 _).trans (updQueue_written _ _ _).raised
      · refine EventRaised.trans ?_ (updQueue_written _ _ _).raised
        exact ⟨_, s.host.queues, s.host.messages, s.host.pba, _, s.host.heldEvents, rfl⟩
    · split
      · exact h1 _
      · split
        · exact (h1 _).trans (updQueue_written _ _ _).raised
        · refine EventRaised.trans ?_ (updQueue_written _ _ _).raised
          refine EventRaised.trans ?_ (enqueue_written _ _ _).raised
          exact h1 _

theorem post_raised (s : State) (r : Raise) : EventRaised s.host (s.post r).host := by
  unfold State.post
  split
  · exact raiseNow_raised _ _ _
  · exact ⟨s.host.evtCount, s.host.queues, s.host.messages, s.host.pba, s.host.portOut, _, rfl⟩

theorem raise_raised (s : State) (num : Nat) (p : List Byte) : EventRaised s.host (s.raise num p).host := by
  unfold State.raise; rw [recordRaise_host]; exact post_raised _ _

theorem raiseWith_raised (s : State) (num : Nat) (p : List Byte) (l : List RecUpd) : EventRaised s.host (s.raiseWith num p l).host := by
  unfold State.raiseWith; rw [recordRaise_host]; exact post_raised _ _

/-- A raise while Gweten is down is held back, and leaves the queues (R11). -/
theorem raise_held {s : State} (h : s.host.stewardUp = false) (num : Nat) (p : List Byte) :
    (s.raise num p).host = { s.host with heldEvents := s.host.heldEvents ++ [{ num := num, payload := p }] } := by
  unfold State.raise; rw [recordRaise_host]; unfold State.post; rw [if_neg (by simp [h])]

/-- What a response may change of the host link (R309, R311). -/
def ResponseWritten (h g : HostLink) : Prop :=
  ∃ queues messages pba portOut udpSent framing discards, g = { h with
    queues := queues, messages := messages, pba := pba, portOut := portOut, udpSent := udpSent, framing := framing, discards := discards }

theorem answer_written (s : State) (o : Outstanding) (st : Status) (d : Nat) (p : List Byte) :
    ResponseWritten s.host (s.answer o st d p).host := by
  have h0 : ∀ u : State, (∃ f, u.host = { s.host with framing := f }) → ∀ (e : OutEntry) (n : Nat),
      ResponseWritten s.host u.host ∧ ResponseWritten s.host (u.enqueue n e).host ∧
      (∀ k, ResponseWritten s.host { u.host with discards := k }) ∧
      (∀ k l, ResponseWritten s.host { u.host with portOut := k, udpSent := l }) := by
    rintro u ⟨f, hf⟩ e n
    obtain ⟨q, m, pb, he⟩ := enqueue_written u n e
    refine ⟨?_, ?_, fun k => ?_, fun k l => ?_⟩
    · rw [hf]; exact ⟨_, _, _, _, _, f, _, rfl⟩
    · rw [he, hf]; exact ⟨_, _, _, _, _, f, _, rfl⟩
    · rw [hf]; exact ⟨_, _, _, _, _, f, k, rfl⟩
    · rw [hf]; exact ⟨_, _, _, k, l, f, _, rfl⟩
  unfold State.answer
  dsimp only
  have hu : ∃ f, (if st = .framing then ({ s with host := { s.host with framing := sat32 s.host.framing 1 } } : State) else s).host =
      { s.host with framing := f } := by
    split
    · exact ⟨_, rfl⟩
    · exact ⟨s.host.framing, rfl⟩
  generalize (if st = .framing then ({ s with host := { s.host with framing := sat32 s.host.framing 1 } } : State) else s) = u at hu
  repeat' split
  · exact (h0 u hu ⟨0, 0, 0, 0, 0, .done, 0, 0, [], 0⟩ 0).2.2.1 _
  · exact (h0 u hu ⟨0, 0, 0, 0, 0, .done, 0, 0, [], 0⟩ 0).1
  · exact (h0 u hu ⟨0, 0, 0, 0, 0, .done, 0, 0, [], 0⟩ 0).2.2.2 _ _
  · exact (h0 u hu _ _).2.1
  · exact (h0 u hu ⟨0, 0, 0, 0, 0, .done, 0, 0, [], 0⟩ 0).2.2.1 _

/-! ### Closing sessions (R318, R39) -/

/-- What the closing of one session leaves of the host link and of the CRC contexts. -/
theorem closeSession_host (s : State) (x : Session) : EventRaised { s.host with
    sessions := s.host.sessions.filter (fun y => y.num != x.num), udpSent := s.host.udpSent.filter (fun u => u.session != x.num) }
    (s.closeSession x).host := by
  unfold State.closeSession
  dsimp only
  split
  · exact raise_raised _ _ _
  · exact EventRaised.refl _

theorem closeSession_crc (s : State) (x : Session) : (s.closeSession x).crc = s.crc.filter (fun c => c.session != x.num) := by
  unfold State.closeSession
  dsimp only
  split
  · rw [(raise_same _ _ _).crc rfl]
  · rfl

theorem bne_swap (a b : Nat) : (a != b) = !(b == a) := by
  rcases eq_or_ne a b with rfl | h
  · rfl
  · have e1 : (a == b) = false := beq_false_of_ne h
    have e2 : (b == a) = false := beq_false_of_ne h.symm
    rw [bne, e1, e2]

/-- After sessions have been closed, those whose numbers were not among them are still there, in their order, and no other. -/
theorem closeFold_sessions (l : List Session) : ∀ s : State,
    (l.foldl State.closeSession s).host.sessions = s.host.sessions.filter (fun y => !l.any (fun x => x.num == y.num)) ∧
    (l.foldl State.closeSession s).host.j1Up = s.host.j1Up ∧
    (l.foldl State.closeSession s).host.stewardUp = s.host.stewardUp ∧
    (l.foldl State.closeSession s).host.outstanding = s.host.outstanding ∧
    (l.foldl State.closeSession s).crc = s.crc.filter (fun c => !l.any (fun x => x.num == c.session)) := by
  induction l with
  | nil => intro s; simp
  | cons x l ih =>
    intro s
    obtain ⟨i1, i2, i3, i4, i5⟩ := ih (s.closeSession x)
    obtain ⟨a, b, c, d, e, f, h⟩ := closeSession_host s x
    rw [List.foldl_cons]
    refine ⟨?_, ?_, ?_, ?_, ?_⟩
    · rw [i1, h]
      show List.filter _ (List.filter _ _) = _
      rw [List.filter_filter]
      congr 1
      funext y
      rw [List.any_cons, Bool.not_or, Bool.and_comm]
      exact congrArg (· && _) (bne_swap _ _)
    · rw [i2, h]
    · rw [i3, h]
    · rw [i4, h]
    · rw [i5, closeSession_crc, List.filter_filter]
      congr 1
      funext y
      rw [List.any_cons, Bool.not_or, Bool.and_comm]
      exact congrArg (· && _) (bne_swap _ _)

/-- Sessions closed by a rule are gone, and every other one stays unless it shares its number with one of them. -/
theorem closeSessions_sessions (s : State) (p : Session → Bool) :
    (s.closeSessions p).host.sessions = s.host.sessions.filter (fun y => !(s.host.sessions.filter p).any (fun x => x.num == y.num)) :=
  (closeFold_sessions _ s).1

/-- While Gweten is down the queues stay as they are when sessions close. -/
theorem closeFold_queues (l : List Session) : ∀ s : State, s.host.stewardUp = false →
    (l.foldl State.closeSession s).host.queues = s.host.queues := by
  induction l with
  | nil => intro s _; rfl
  | cons x l ih =>
    intro s h
    obtain ⟨a, b, c, d, e, f, g⟩ := closeSession_host s x
    rw [List.foldl_cons, ih _ (by rw [g]; exact h)]
    unfold State.closeSession
    dsimp only
    split
    · rw [raise_held (by exact h)]
    · rfl

/-- A mailbox command that passes the checks runs on the machine after the fetch. -/
theorem command_accepts {s u : State} {op : Nat} {a b : Bool} {e : Entry} {o : Outstanding} (h : s.accepts op a b e u o)
    (run : Outstanding → State → State) : s.command op a b e run = run o u := by
  obtain ⟨h1, rfl, rfl⟩ := h
  unfold State.command
  simp only [h1]

theorem dequeue_host (s : State) (e : Entry) : ∃ q l, s.dequeue e = { s with host := { s.host with queues := q, udpQueue := l } } := by
  unfold State.dequeue
  split
  · exact ⟨s.host.queues, s.host.udpQueue.drop 1, rfl⟩
  · exact ⟨_, s.host.udpQueue, rfl⟩

end Sys2Proof.Laws
end

