-- ==== Sys2Proof/Laws/Starts.lean ====
section
/-! SUPPORT. What a start of the module leaves: the parts its operations keep, the lanes and the forme it chooses, and the report of
the restart. -/

set_option Elab.async false

namespace Sys2Proof.Laws

open Sys2Proof Sys2Proof.Machine

/-- What the choice of lanes and forme leaves. -/
structure LanesBegun (s t : State) : Prop where
  running : t.power.running = s.power.running ∧ t.power.powered = s.power.powered ∧ t.power.resetHeld = s.power.resetHeld ∧
    t.power.startCause = s.power.startCause ∧ t.power.ga = s.power.ga ∧ t.power.poweredS = s.power.poweredS ∧
    t.power.powerups = s.power.powerups ∧ t.power.vsMv = s.power.vsMv
  outputs : t.outputsOpen = true ∧ t.field.safeN = true
  failed : t.proofs.failed = s.proofs.failed

/-- The parts that the report of a restart and the first attempt of a train leave. -/
structure Kept (u v : State) : Prop where
  running : v.power.running = u.power.running ∧ v.power.powered = u.power.powered ∧ v.power.resetHeld = u.power.resetHeld ∧
    v.power.startCause = u.power.startCause ∧ v.power.ga = u.power.ga ∧ v.power.poweredS = u.power.poweredS ∧
    v.power.powerups = u.power.powerups ∧ v.power.vsMv = u.power.vsMv
  field : v.field = u.field
  platen : v.platen = u.platen
  lanes : v.lanes = u.lanes
  proofs : v.proofs = u.proofs
  life : v.life = u.life

theorem running_of {s u v : State} (h : Kept u v) (e : u.power = s.power) :
    v.power.running = s.power.running ∧ v.power.powered = s.power.powered ∧ v.power.resetHeld = s.power.resetHeld ∧
    v.power.startCause = s.power.startCause ∧ v.power.ga = s.power.ga ∧ v.power.poweredS = s.power.poweredS ∧
    v.power.powerups = s.power.powerups ∧ v.power.vsMv = s.power.vsMv := by
  rw [← e]; exact h.running

theorem report_kept (u : State) (f : StartFacts) (k c : Nat) : Kept u (u.beginReport f k c) := by
  have h := beginReport_same u f k c
  refine ⟨?_, h.field rfl, h.platen rfl, h.lanes rfl, h.proofs rfl, h.life rfl⟩
  unfold State.beginReport
  dsimp only
  split <;> simp

theorem last_kept (u : State) (f : StartFacts) (k c : Nat) :
    Kept u (if (u.beginReport f k c).isTrain = true then (u.beginReport f k c).newAttempt 6 else u.beginReport f k c) := by
  have h := report_kept u f k c
  split
  · have g := newAttempt_same (u.beginReport f k c) 6
    refine ⟨?_, (g.field rfl).trans h.field, (g.platen rfl).trans h.platen, (g.lanes rfl).trans h.lanes, (g.proofs rfl).trans h.proofs,
      (g.life rfl).trans h.life⟩
    rw [g.power rfl]; exact h.running
  · exact h

theorem last_report (u : State) (f : StartFacts) (k c : Nat) :
    (if (u.beginReport f k c).isTrain = true then (u.beginReport f k c).newAttempt 6 else u.beginReport f k c).req.restartKind = k ∧
    (if (u.beginReport f k c).isTrain = true then (u.beginReport f k c).newAttempt 6 else u.beginReport f k c).req.restartCause = c := by
  have h : (u.beginReport f k c).req.restartKind = k ∧ (u.beginReport f k c).req.restartCause = c := by
    unfold State.beginReport
    dsimp only
    split <;> simp
  split
  · rw [(newAttempt_same _ 6).req rfl]; exact h
  · exact h

theorem beginForme_begun (s : State) (f : StartFacts) (ls : List LaneId) (back : Option LaneId) (major : Bool) :
    LanesBegun s (s.beginForme f ls back major) ∧ (s.beginForme f ls back major).platen.safe = false ∧
    (∀ l, (s.beginForme f ls back major).platen.lanes.get l =
      if ls.contains l then .inService 0 else if back = some l then .isolated else .excluded) ∧
    (∀ l, ((s.beginForme f ls back major).lanes.get l).held = !ls.contains l) ∧
    (s.beginForme f ls back major).req.restartKind = (if s.restartCauseOf f ls major != 0 then 2 else 1) ∧
    (s.beginForme f ls back major).req.restartCause = s.restartCauseOf f ls major := by
  have hrem : ∀ (u : State) (c : Bool), (if c = true then u.recordRemoved ls else u).power = u.power ∧
      (if c = true then u.recordRemoved ls else u).proofs = u.proofs := by
    intro u c; split
    · exact ⟨(recordRemoved_same u ls).power rfl, (recordRemoved_same u ls).proofs rfl⟩
    · exact ⟨rfl, rfl⟩
  unfold State.beginForme
  dsimp only
  refine ⟨⟨?_, ?_, ?_⟩, ?_, ?_, ?_, ?_, ?_⟩
  · exact running_of (last_kept _ f _ _) (hrem s _).1
  · unfold State.outputsOpen
    rw [(last_kept _ f _ _).field]
    exact ⟨rfl, rfl⟩
  · rw [(last_kept _ f _ _).proofs]
    dsimp only; rw [(hrem s _).2]
  · rw [(last_kept _ f _ _).platen]; rfl
  · intro l
    rw [(last_kept _ f _ _).platen]
    cases l <;> rfl
  · intro l
    rw [(last_kept _ f _ _).lanes]
    cases l <;> rfl
  · exact (last_report _ f _ _).1
  · exact (last_report _ f _ _).2

theorem beginHeld_begun (s : State) (f : StartFacts) (ls : List LaneId) (major : Bool) :
    LanesBegun s (s.beginHeld f ls major) ∧ (s.beginHeld f ls major).platen.safe = true ∧
    (∀ l, (s.beginHeld f ls major).platen.lanes.get l = if ls.contains l then .inService 0 else .excluded) ∧
    (∀ l, ((s.beginHeld f ls major).lanes.get l).held = !ls.contains l) := by
  unfold State.beginHeld
  dsimp only
  refine ⟨⟨?_, ?_, ?_⟩, ?_, ?_, ?_⟩
  · exact running_of (report_kept _ f _ _) rfl
  · unfold State.outputsOpen
    rw [(report_kept _ f _ _).field]
    exact ⟨rfl, rfl⟩
  · rw [(report_kept _ f _ _).proofs]
  · rw [(report_kept _ f _ _).platen]; rfl
  · intro l
    rw [(report_kept _ f _ _).platen]
    cases l <;> rfl
  · intro l
    rw [(report_kept _ f _ _).lanes]
    cases l <;> rfl

theorem mem_proven {s : State} {l : LaneId} (h : l ∈ s.provenLanes) : 1 + l.num ∉ s.proofs.failed := by
  unfold State.provenLanes lanesWhere at h
  have := (List.mem_filter.1 h).2
  unfold State.unusable at this
  simp at this
  exact this.1

theorem reconcile_proofs (s : State) (f : StartFacts) (ls : List LaneId) : (s.reconcile f ls).1.proofs = s.proofs ∧
    (s.reconcile f ls).1.power = s.power ∧ (s.reconcile f ls).1.life = s.life :=
  ⟨(reconcile_same s f ls).proofs rfl, (reconcile_same s f ls).power rfl, (reconcile_same s f ls).life rfl⟩

/-- A lane without a sealed half has none that is newest. -/
theorem newestHalf_none {st : LaneState} (h : st.half0.isSealed = false ∧ st.half1.isSealed = false) : st.newestHalf = none := by
  unfold LaneState.newestHalf LaneState.sealedHalves
  simp [h.1, h.2]

/-- The causes of Table 5-4. -/
theorem restartCauseOf_range (s : State) (f : StartFacts) (ls : List LaneId) (major : Bool) :
    s.restartCauseOf f ls major = 0 ∨ s.restartCauseOf f ls major ∈ [1, 2, 3, 5, 6, 7] := by
  unfold State.restartCauseOf
  dsimp only
  repeat' split
  all_goals simp

theorem restartCauseOf_unsealed {s : State} (h : s.unsealed) (f : StartFacts) {ls : List LaneId} (hl : ls ≠ []) (major : Bool) :
    s.restartCauseOf f ls major ≠ 0 := by
  have : ls.any (fun l => (s.lanes.get l).newestHalf.isNone) = true := by
    cases ls with
    | nil => exact absurd rfl hl
    | cons l ls => simp [newestHalf_none (h l)]
  unfold State.restartCauseOf
  dsimp only
  repeat' split
  all_goals decide

/-! ### The halves of a lane's checkpoint -/

/-- The halves of every lane's checkpoint are as they were. -/
def HalvesKept (s t : State) : Prop :=
  ∀ l, (t.lanes.get l).half0 = (s.lanes.get l).half0 ∧ (t.lanes.get l).half1 = (s.lanes.get l).half1

theorem HalvesKept.of_lanes {s t : State} (h : t.lanes = s.lanes) : HalvesKept s t := fun l => by rw [h]; exact ⟨rfl, rfl⟩

theorem HalvesKept.trans {s t u : State} (h : HalvesKept s t) (g : HalvesKept t u) : HalvesKept s u :=
  fun l => ⟨(g l).1.trans (h l).1, (g l).2.trans (h l).2⟩

theorem HalvesKept.unsealed {s t : State} (h : HalvesKept s t) (g : s.unsealed) : t.unsealed :=
  fun l => by rw [(h l).1, (h l).2]; exact g l

theorem setSlot_halves (st : LaneState) (n : Nat) (x : FormeSlot) : (st.setSlot n x).half0 = st.half0 ∧ (st.setSlot n x).half1 = st.half1 := by
  unfold LaneState.setSlot; split <;> exact ⟨rfl, rfl⟩

theorem runSlot_halves (st : LaneState) (n : Nat) : (st.runSlot n).half0 = st.half0 ∧ (st.runSlot n).half1 = st.half1 := by
  unfold LaneState.runSlot
  dsimp only
  split
  · exact ⟨rfl, rfl⟩
  · exact ⟨(setSlot_halves ..).1.trans (setSlot_halves ..).1, (setSlot_halves ..).2.trans (setSlot_halves ..).2⟩

theorem reloadFrom_halves (st src : LaneState) : (st.reloadFrom src).half0 = st.half0 ∧ (st.reloadFrom src).half1 = st.half1 := by
  unfold LaneState.reloadFrom
  split
  · exact ⟨rfl, rfl⟩
  · exact ⟨(setSlot_halves ..).1.trans (setSlot_halves ..).1, (setSlot_halves ..).2.trans (setSlot_halves ..).2⟩

theorem HalvesKept.map {s t : State} {g : LaneState → LaneState} (h : t.lanes = s.lanes.map g)
    (hg : ∀ st, (g st).half0 = st.half0 ∧ (g st).half1 = st.half1) : HalvesKept s t := by
  intro l; rw [h]; cases l <;> exact hg _

theorem dropRunning_halves (st : LaneState) : st.dropRunning.half0 = st.half0 ∧ st.dropRunning.half1 = st.half1 := by
  unfold LaneState.dropRunning
  split
  · exact setSlot_halves ..
  · exact ⟨rfl, rfl⟩

theorem HalvesKept.mapLanes (s : State) {g : LaneId → LaneState → LaneState}
    (hg : ∀ l st, (g l st).half0 = st.half0 ∧ (g l st).half1 = st.half1) : HalvesKept s (s.mapLanes g) := by
  intro l
  cases l <;> exact hg _ _

theorem reconcile_halves (s : State) (f : StartFacts) (ls : List LaneId) : HalvesKept s (s.reconcile f ls).1 := by
  unfold State.reconcile
  split
  · exact HalvesKept.of_lanes rfl
  · dsimp only
    have key : ∀ (b : Bool) (others : List LaneId) (src : LaneState), HalvesKept s (s.mapLanes (fun k st =>
        if others.contains k then (if b then st.reloadFrom src else st.dropRunning) else st)) := by
      intro b others src
      refine HalvesKept.mapLanes s (fun k st => ?_)
      split
      · split
        · exact reloadFrom_halves _ _
        · exact dropRunning_halves _
      · exact ⟨rfl, rfl⟩
    split
    · exact key _ _ _
    · exact HalvesKept.trans (key _ _ _) (HalvesKept.of_lanes ((formeRefusedBy_same ..).lanes rfl))

/-- A half whose seal fails its check counts as unsealed; a half without a seal gains none (R18). -/
theorem readHalves_unsealed {s : State} (f : StartFacts) (h : s.unsealed) : (s.readHalves f).unsealed := by
  intro l
  have := h l
  cases l <;> simp_all [State.readHalves, State.mapLanes, Tri.mapL, Tri.get]

theorem fallBack_halves (s : State) (typ : Nat) : HalvesKept s (s.fallBack typ) := by
  unfold State.fallBack
  dsimp only
  refine HalvesKept.trans (t := if typ = 2 then _ else _) ?_ (HalvesKept.of_lanes ((fallbackEvent_same _ _).lanes rfl))
  split
  · refine HalvesKept.map (g := fun st => if st.running = some (s.update.record.entry typ).current then st
      else st.runSlot (s.update.record.entry typ).current) rfl (fun st => ?_)
    split
    · exact ⟨rfl, rfl⟩
    · exact runSlot_halves _ _
  · exact HalvesKept.of_lanes rfl

theorem bootTrial_halves (s : State) (f : StartFacts) (typ slot : Nat) : HalvesKept s (s.bootTrial f typ slot) := by
  unfold State.bootTrial
  dsimp only
  split
  · exact fallBack_halves _ _
  · split
    · exact HalvesKept.trans (HalvesKept.of_lanes rfl) (fallBack_halves _ _)
    · exact HalvesKept.of_lanes rfl

theorem bootCurrent_lanes (p : State × Bool) (f : StartFacts) (typ : Nat) : (State.bootCurrent p f typ).1.lanes = p.1.lanes := by
  unfold State.bootCurrent
  dsimp only
  split
  · rfl
  · split
    · exact (fallbackEvent_same _ _).lanes rfl
    · exact (fallbackEvent_same _ _).lanes rfl

theorem boot_halves (s : State) (f : StartFacts) : HalvesKept s (s.boot f).1 := by
  unfold State.boot
  dsimp only
  split
  · exact HalvesKept.of_lanes ((fallbackEvent_same _ _).lanes rfl)
  · have hfold : ∀ p : State × Bool, (List.foldl (fun p typ => State.bootCurrent p f typ) p [1, 3, 4]).1.lanes = p.1.lanes := fun p => by
      simp only [List.foldl_cons, List.foldl_nil, bootCurrent_lanes]
    refine HalvesKept.trans ?_ (HalvesKept.of_lanes (hfold _))
    dsimp only
    split
    · exact HalvesKept.trans (HalvesKept.of_lanes rfl) (bootTrial_halves _ _ _ _)
    · exact HalvesKept.of_lanes rfl

theorem loadTrial_halves (s : State) (f : StartFacts) : HalvesKept s (s.loadTrial f) := by
  unfold State.loadTrial
  split
  · next slot _ =>
    dsimp only
    split
    · exact fallBack_halves _ _
    · next c _ =>
      split
      · exact HalvesKept.of_lanes rfl
      · split
        · exact fallBack_halves _ _
        · split
          · exact HalvesKept.trans (HalvesKept.of_lanes ((formeRefused_same _ _).lanes rfl)) (fallBack_halves _ _)
          · exact HalvesKept.map (g := fun st => (st.sealLoaded slot (parseForme f.image) c).runSlot slot) rfl
              (fun st => ⟨(runSlot_halves _ _).1.trans (setSlot_halves ..).1, (runSlot_halves _ _).2.trans (setSlot_halves ..).2⟩)
  · exact HalvesKept.of_lanes rfl

theorem writeFirmware_halves (s : State) : HalvesKept s s.writeFirmware := by
  unfold State.writeFirmware
  split
  · exact HalvesKept.mapLanes s (fun _ _ => ⟨rfl, rfl⟩)
  · exact HalvesKept.of_lanes rfl

theorem startSteward_halves (s : State) (f : StartFacts) (full : Bool) : HalvesKept s (s.startSteward f full).1 := by
  unfold State.startSteward
  dsimp only
  refine HalvesKept.trans ?_ (loadTrial_halves _ _)
  refine HalvesKept.trans ?_ (writeFirmware_halves _)
  refine HalvesKept.trans ?_ (HalvesKept.of_lanes ((beginParams_same _ _).lanes rfl))
  refine HalvesKept.trans ?_ (boot_halves _ _)
  refine HalvesKept.of_lanes ?_
  split
  · rw [(resumeClear_same _).lanes rfl, (readRecorder_same _ _).lanes rfl, (readLife_same _ _).lanes rfl]
  · rw [(readRecorder_same _ _).lanes rfl, (readLife_same _ _).lanes rfl]

theorem undoExchange_halves (s : State) (l : LaneId) :
    (s.undoExchange.lanes.get l).half0 = (s.lanes.get l).half0 ∧ (s.undoExchange.lanes.get l).half1 = (s.lanes.get l).half1 := by
  have key : ∀ st : LaneState, st.swapRun.half0 = st.half0 ∧ st.swapRun.half1 = st.half1 := by
    intro st
    unfold LaneState.swapRun
    split
    · exact ⟨rfl, rfl⟩
    · unfold LaneState.setSlot
      dsimp only
      constructor <;> (split <;> split <;> rfl)
  unfold State.undoExchange
  split
  · cases l <;> simp only [Tri.mapL, Tri.get] <;> split <;> first | exact key _ | exact ⟨rfl, rfl⟩
  · exact ⟨rfl, rfl⟩

theorem stopVital_halves (s : State) : HalvesKept s s.stopVital := by
  intro l
  have := undoExchange_halves s l
  cases l <;> exact this

/-! ### The choice of lanes, and the whole start -/

/-- What the choice of lanes and forme tells of the restart. -/
def RestartTold (s t : State) : Prop :=
  (t.platen.safe = false →
    (t.req.restartKind = 1 ∧ t.req.restartCause = 0) ∨ (t.req.restartKind = 2 ∧ t.req.restartCause ∈ [1, 2, 3, 5, 6, 7])) ∧
  (t.platen.safe = false → s.unsealed → t.req.restartKind = 2)

theorem startChoice_begun (s u : State) (f : StartFacts) (ls : List LaneId) (back : Option LaneId) (major ok : Bool)
    (hu : u.power = s.power ∧ u.proofs = s.proofs ∧ u.life = s.life) (hn : ls.Nodup) (hm : ∀ l ∈ ls, 1 + l.num ∉ s.proofs.failed) (hk : s.unsealed → u.unsealed) (v : State)
    (hv : v = if (ok && u.life.state != .manufacture && u.life.state != .retired && decide (2 ≤ ls.length)) = true
      then (u.beginForme f ls back major).alignForme else u.beginHeld f s.provenLanes major) :
    LanesBegun s v ∧
    (v.platen.safe = false → s.life.state ≠ .manufacture ∧ s.life.state ≠ .retired ∧ 2 ≤ v.inServiceCount) ∧
    (∀ l, v.platen.lanes.get l = .inService 0 → (v.lanes.get l).held = false ∧ 1 + l.num ∉ s.proofs.failed) ∧ RestartTold s v := by
  obtain ⟨e1, e2, e3⟩ := hu
  have hcount : ∀ w : State, (∀ l ∈ ls, w.platen.lanes.get l = .inService 0) → ls.length ≤ w.inServiceCount := by
    intro w h
    unfold State.inServiceCount
    refine (List.Nodup.subperm hn ?_).length_le
    intro l hl
    refine List.mem_filter.2 ⟨by cases l <;> simp [LaneId.all], ?_⟩
    rw [h l hl]; rfl
  subst hv
  split
  · next hal =>
    have ha := alignForme_same (u.beginForme f ls back major)
    simp only [Bool.and_eq_true, bne_iff_ne, ne_eq, decide_eq_true_eq] at hal
    obtain ⟨⟨⟨_, h1⟩, h2⟩, h3⟩ := hal
    rw [e3] at h1 h2
    obtain ⟨b, bs, bl, bh, bk, bc⟩ := beginForme_begun u f ls back major
    refine ⟨⟨?_, ?_, ?_⟩, ?_, ?_, ?_⟩
    · rw [ha.power rfl, ← e1]; exact b.running
    · have : (u.beginForme f ls back major).alignForme.outputsOpen = (u.beginForme f ls back major).outputsOpen := by
        unfold State.outputsOpen; rw [ha.field rfl]
      rw [this, ha.field rfl]; exact b.outputs
    · rw [ha.proofs rfl, ← e2]; exact b.failed
    · intro _
      refine ⟨h1, h2, Nat.le_trans h3 (hcount _ ?_)⟩
      intro l hl
      rw [ha.platen rfl, bl, if_pos (by simpa using hl)]
    · intro l hl
      rw [ha.platen rfl, bl] at hl
      rw [ha.lanes rfl, bh]
      by_cases hc : ls.contains l = true
      · rw [hc]; exact ⟨rfl, hm l (by simpa using hc)⟩
      · rw [if_neg hc] at hl; split at hl <;> cases hl
    · unfold RestartTold
      rw [ha.req rfl, bk, bc]
      refine ⟨fun _ => ?_, fun _ hs => ?_⟩
      · rcases restartCauseOf_range u f ls major with h | h
        · left; rw [h]; exact ⟨rfl, rfl⟩
        · right
          refine ⟨?_, h⟩
          rw [if_pos]
          simp only [List.mem_cons, List.not_mem_nil, or_false] at h
          simp; omega
      · rw [if_pos]
        simpa using restartCauseOf_unsealed (hk hs) f (by intro h; rw [h] at h3; simp at h3) major
  · obtain ⟨b, bs, bl, bh⟩ := beginHeld_begun u f s.provenLanes major
    refine ⟨⟨?_, b.outputs, ?_⟩, ?_, ?_, fun h => ?_, fun h => ?_⟩
    · rw [← e1]; exact b.running
    · rw [← e2]; exact b.failed
    · intro h; rw [bs] at h; cases h
    · intro l hl
      rw [bl] at hl
      rw [bh]
      by_cases hc : s.provenLanes.contains l = true
      · rw [hc]; exact ⟨rfl, mem_proven (by simpa using hc)⟩
      · rw [if_neg hc] at hl; cases hl
    · rw [bs] at h; cases h
    · rw [bs] at h; cases h

theorem startLanes_begun (s : State) (f : StartFacts) (ok : Bool) (iso : Option LaneId) :
    LanesBegun s (s.startLanes f ok iso) ∧
    ((s.startLanes f ok iso).platen.safe = false → s.life.state ≠ .manufacture ∧ s.life.state ≠ .retired ∧
      2 ≤ (s.startLanes f ok iso).inServiceCount) ∧
    (∀ l, (s.startLanes f ok iso).platen.lanes.get l = .inService 0 →
      ((s.startLanes f ok iso).lanes.get l).held = false ∧ 1 + l.num ∉ s.proofs.failed) ∧ RestartTold s (s.startLanes f ok iso) := by
  obtain ⟨r1, r2, r3⟩ := reconcile_proofs (s.readHalves f) f s.provenLanes
  have hnod : s.provenLanes.Nodup := by
    unfold State.provenLanes lanesWhere; exact List.Nodup.filter _ (by decide)
  have hmem : ∀ l ∈ s.provenLanes, 1 + l.num ∉ s.proofs.failed := fun l h => mem_proven h
  refine startChoice_begun s (((s.readHalves f).reconcile f s.provenLanes).1.mapLanes
    (fun l st => if f.digestBad.contains l then st.dropRunning else st)) f _ _ _ _ ⟨r2, r1, r3⟩ ?_ ?_ (fun h => ?_) _ rfl
  · split
    · exact ((hnod.filter _).filter _)
    · exact hnod.filter _
  · intro l hl
    split at hl
    · exact hmem l (List.mem_of_mem_filter (List.mem_of_mem_filter hl))
    · exact hmem l (List.mem_of_mem_filter hl)
  · refine HalvesKept.unsealed ((reconcile_halves _ f _).trans (HalvesKept.mapLanes _ (fun l st => ?_))) (readHalves_unsealed f h)
    split
    · exact dropRunning_halves _
    · exact ⟨rfl, rfl⟩

/-- The steward's host side is empty after a start of every die, and nothing adds to it. -/
def HostEmpty (s : State) : Prop := s.host.sessions = [] ∧ s.host.outstanding = [] ∧ s.crc = []

theorem HostEmpty.same {k : Nat} {s t : State} (h : HostEmpty s) (g : Same k s t) (b : k.testBit 23 = false ∧ k.testBit 24 = false ∧
    k.testBit 25 = false) : HostEmpty t := by
  obtain ⟨h1, h2, h3⟩ := h
  have g1 := g.sessions b.1
  have g2 := g.outstanding b.2.1
  have g3 := g.contexts b.2.2
  rw [h1] at g1; rw [h2] at g2; rw [h3] at g3
  exact ⟨List.eq_nil_of_length_eq_zero (Nat.le_zero.1 g1), List.eq_nil_of_length_eq_zero (Nat.le_zero.1 g2), List.sublist_nil.1 g3⟩

/-- Everything a start of the module leaves. -/
theorem start_begun (s : State) (f : StartFacts) (cause : Nat) (full : Bool) (hp : startPasses f 0x40 = true) :
    Started s (s.start f cause full) f cause ∧
    (s.start f cause full).power.powerups = s.power.powerups ∧ (s.start f cause full).power.vsMv = s.power.vsMv ∧
    (full = true → HostEmpty (s.start f cause full)) ∧
    ((s.start f cause full).platen.safe = false → s.unsealed → (s.start f cause full).req.restartKind = 2) := by
  have hs := start_same s f cause full
  have key : ∃ u ok iso, s.start f cause full =
      { (if (State.startLanes u f ok iso).unusable 0x18 = true then (u.startLanes f ok iso).raise evFieldLink (leBytes 1 0)
        else u.startLanes f ok iso) with
        power := { (if (u.startLanes f ok iso).unusable 0x18 = true then (u.startLanes f ok iso).raise evFieldLink (leBytes 1 0)
        else u.startLanes f ok iso).power with laneHeld := .all false } } ∧
      (u.power.running = true ∧ u.power.powered = true ∧ u.power.resetHeld = false ∧ u.power.startCause = cause ∧
        u.power.ga = f.ga % 32 ∧ u.power.poweredS = 0 ∧ u.power.powerups = s.power.powerups ∧ u.power.vsMv = s.power.vsMv) ∧
      HalvesKept s u ∧ (full = true → HostEmpty u) := by
    unfold State.start
    rw [if_neg (by simp [hp])]
    dsimp only
    refine ⟨_, _, _, rfl, ?_, ?_, ?_⟩
    · have e : ∀ (x : State) (b : Bool), (if x.unusable 0x39 = true then (x, true) else x.startSteward f b).1.power = x.power := by
        intro x b; split
        · rfl
        · exact (startSteward_same x f b).power rfl
      rw [e, (bridgeRestart_same _ _).power rfl]
      dsimp only
      rw [(startProofs_same _ _).power rfl]
      cases full
      · rw [if_neg (by simp), (dropWaiting_same _).power rfl]
        exact ⟨rfl, rfl, rfl, rfl, rfl, rfl, rfl, rfl⟩
      · rw [if_pos rfl, (beginHost_same _).power rfl, (dropWaiting_same _).power rfl]
        exact ⟨rfl, rfl, rfl, rfl, rfl, rfl, rfl, rfl⟩
    · have e : ∀ (x : State) (b : Bool), HalvesKept x (if x.unusable 0x39 = true then (x, true) else x.startSteward f b).1 := by
        intro x b; split
        · exact HalvesKept.of_lanes rfl
        · exact startSteward_halves x f b
      refine HalvesKept.trans ?_ (e _ _)
      refine HalvesKept.of_lanes ?_
      rw [(bridgeRestart_same _ _).lanes rfl]
      dsimp only
      rw [(startProofs_same _ _).lanes rfl]
      cases full
      · rw [if_neg (by simp), (dropWaiting_same _).lanes rfl]
      · rw [if_pos rfl, (beginHost_same _).lanes rfl, (dropWaiting_same _).lanes rfl]
    · intro hf
      subst hf
      have e : ∀ (x : State) (b : Bool), HostEmpty x → HostEmpty (if x.unusable 0x39 = true then (x, true) else x.startSteward f b).1 := by
        intro x b h; split
        · exact h
        · exact h.same (startSteward_same x f b) (by decide)
      refine e _ _ (HostEmpty.same ?_ (bridgeRestart_same _ _) (by decide))
      rw [if_pos rfl]
      have h : ∀ y : State, HostEmpty (y.beginHost.startProofs f) := fun y =>
        HostEmpty.same ⟨rfl, rfl, rfl⟩ (startProofs_same y.beginHost f) (by decide)
      exact h _
  obtain ⟨u, ok, iso, ev, hu, hh, he⟩ := key
  obtain ⟨b, h7, h8, h9⟩ := startLanes_begun u f ok iso
  have hl : (u.startLanes f ok iso).life = u.life := (startLanes_same u f ok iso).life rfl
  have k : ∀ w, w = (if (u.startLanes f ok iso).unusable 0x18 = true then (u.startLanes f ok iso).raise evFieldLink (leBytes 1 0)
      else u.startLanes f ok iso) → Kept (u.startLanes f ok iso) w ∧ w.req = (u.startLanes f ok iso).req ∧
        (HostEmpty (u.startLanes f ok iso) → HostEmpty w) := by
    intro w hw
    rw [hw]
    split
    · have g := raise_same (u.startLanes f ok iso) evFieldLink (leBytes 1 0)
      exact ⟨⟨by rw [g.power rfl]; exact ⟨rfl, rfl, rfl, rfl, rfl, rfl, rfl, rfl⟩, g.field rfl, g.platen rfl, g.lanes rfl, g.proofs rfl, g.life rfl⟩,
        g.req rfl, fun h => h.same g (by decide)⟩
    · exact ⟨⟨⟨rfl, rfl, rfl, rfl, rfl, rfl, rfl, rfl⟩, rfl, rfl, rfl, rfl, rfl⟩, rfl, fun h => h⟩
  generalize (if (u.startLanes f ok iso).unusable 0x18 = true then (u.startLanes f ok iso).raise evFieldLink (leBytes 1 0)
      else u.startLanes f ok iso) = w at ev k
  obtain ⟨k, kr, ke⟩ := k w rfl
  rw [ev] at hs ⊢
  obtain ⟨r1, r2, r3, r4, r5, r6, r7, r8⟩ := b.running
  obtain ⟨q1, q2, q3, q4, q5, q6, q7, q8⟩ := k.running
  obtain ⟨h1, h2, h3, h4, h5, h6, h10, h11⟩ := hu
  refine ⟨⟨⟨q1.trans (r1.trans h1), q2.trans (r2.trans h2), q3.trans (r3.trans h3)⟩,
    ⟨q4.trans (r4.trans h4), q5.trans (r5.trans h5), q6.trans (r6.trans h6)⟩, ?_, ?_, ?_, ?_, ⟨hs.pending, hs.ident⟩⟩,
    q7.trans (r7.trans h10), q8.trans (r8.trans h11), ?_, ?_⟩
  · have := b.outputs
    unfold State.outputsOpen at *
    dsimp only
    rw [k.field]; exact this
  · unfold State.inServiceCount at *
    dsimp only
    rw [k.platen, k.life, hl]; exact h7
  · dsimp only
    rw [k.platen, k.lanes, k.proofs, b.failed]; exact h8
  · dsimp only
    rw [k.platen, kr]; exact h9.1
  · intro hf
    exact ke ((he hf).same (startLanes_same u f ok iso) (by decide))
  · dsimp only
    rw [k.platen, kr]; exact fun a c => h9.2 a (hh.unsealed c)

end Sys2Proof.Laws
end

