-- ==== Sys2Proof/Tests/Slice0.lean ====
section
/-! SUPPORT. Tests: an ill-formed term for each check of WellFormed, and small states that meet the hypotheses of the statements. -/

set_option Elab.async false

open Sys2Proof Sys2Proof.Machine

namespace Sys2Proof.Tests

/-- A mailbox entry with an empty payload on queue 0. -/
def entry0 : Entry := { queue := 0, tag := 1, length := 0, flags := 0, target := 0, session := 0, payload := [], crc := 0, srcAddr := 0, srcPort := 0 }

def sig0 : Sig := { key := 0, ok := true }

def image0 : Image := { len := 4, cells := [(1, 7)] }

def reading0 : ProofReading := { block := 1, applied := 0, expected := 0, signature := 0, wanted := 0, endSeal := 0, checks := [], late := false }

/-- A start that finds nothing wrong. -/
def facts0 : StartFacts :=
  { offTicks := 0, islandValid := false, ga := 0, vsMv := 24000, failing := [], digestBad := [], badSlots := [], badHalves := [], badItems := [], badBoot := [],
    badCounter := false, badLife := [], image := { len := 0, cells := [] } }

/-- A cycle in which every input reads off. -/
def sample0 : Sample :=
  { inputsOn := [], levels := [], voOn := [], voMa := [], railOn := [], lineUa := [], stuckOpen := [], corrupt := [], sram := [], mramWrites := [],
    corrected := [], evalUs := [], galleyUs := [], wrong := [], emitted := [], restarted := [], supplyMv := [], fieldTemp := none, laneTemp := [], vsMv := none,
    holdupMv := none }

def frame0 : Frame :=
  { typ := 1, version := 1, flags := 0, slot := 1, sender := 1, length := 0, netCycle := 0, count := 0, phase := 0, tag := 0, payload := [],
    crc := 0, codeOk := true, window := none, dev := 0 }

def qual0 : QualResult := { codeErrors := 0, prbsErrors := 0, stamps := [], partnerPort := 0, partnerNode := 0, bypass := 0 }

def tunnel0 : TunnelEntry := { typ := 0, tag := 0, length := 0, peer := 0, port := 0, addr := 0, payload := [], crc := 0 }

def segment0 : Segment :=
  { sender := 0, kind := 0, channel := 0, reset := false, last := false, dest := 0, tag := 0, index := 0, creditChannel := 0, creditValid := false,
    consumed := 0, detail := 0, data := [] }

theorem test_wf_accepts : entry0.wf = true ∧ image0.wf = true ∧ reading0.wf = true ∧ facts0.wf = true ∧ sample0.wf = true ∧ frame0.wf = true ∧
    qual0.wf = true ∧ tunnel0.wf = true ∧ segment0.wf = true := by decide

/-- Table 15-10: each field of an entry beyond its width is refused. -/
theorem test_wf_entry : (Instr.ilkRouteSet { entry0 with queue := 16 }).wf = false ∧ (Instr.ilkRouteSet { entry0 with tag := 65536 }).wf = false ∧
    (Instr.ilkRouteSet { entry0 with length := 65536 }).wf = false ∧ (Instr.ilkRouteSet { entry0 with flags := 256 }).wf = false ∧
    (Instr.ilkRouteSet { entry0 with target := 256 }).wf = false ∧ (Instr.ilkRouteSet { entry0 with session := 65536 }).wf = false ∧
    (Instr.ilkRouteSet { entry0 with length := 1 }).wf = false ∧ (Instr.ilkRouteSet { entry0 with srcAddr := 4294967296 }).wf = false ∧
    (Instr.ilkRouteSet { entry0 with srcPort := 65536 }).wf = false := by decide

theorem test_wf_image : (Instr.formeLoad { image0 with cells := [(4, 7)] } (sig0, sig0) []).wf = false ∧
    (Instr.formeLoad { image0 with cells := [(1, 0)] } (sig0, sig0) []).wf = false ∧
    (Instr.formeLoad { image0 with cells := [(1, 7), (1, 7)] } (sig0, sig0) []).wf = false := by decide

theorem test_wf_reading : (Instr.proofComplete { reading0 with block := 65536 }).wf = false ∧
    (Instr.proofComplete { reading0 with applied := 4294967296 }).wf = false ∧
    (Instr.proofTimeout { reading0 with expected := 4294967296 }).wf = false ∧
    (Instr.proofTimeout { reading0 with checks := [18446744073709551616] }).wf = false := by decide

theorem test_wf_facts : (Instr.powerUp { facts0 with ga := 32 }).wf = false ∧
    (Instr.powerUp { facts0 with failing := [{ reading0 with block := 65536 }] }).wf = false ∧
    (Instr.powerUp { facts0 with badSlots := [(0, 0)] }).wf = false ∧ (Instr.powerUp { facts0 with badSlots := [(5, 0)] }).wf = false ∧
    (Instr.powerUp { facts0 with badSlots := [(1, 2)] }).wf = false ∧ (Instr.powerUp { facts0 with badHalves := [(.a, 2)] }).wf = false ∧
    (Instr.powerUp { facts0 with badItems := [65536] }).wf = false ∧
    (Instr.powerUp { facts0 with badBoot := [2] }).wf = false ∧ (Instr.powerUp { facts0 with badLife := [2] }).wf = false ∧
    (Instr.powerUp { facts0 with image := { len := 0, cells := [(0, 1)] } }).wf = false := by decide

theorem test_wf_sample : (Instr.cycleStrobe { sample0 with inputsOn := [32] }).wf = false ∧
    (Instr.cycleStrobe { sample0 with voOn := [16] }).wf = false ∧ (Instr.cycleStrobe { sample0 with voMa := [(16, 0)] }).wf = false ∧
    (Instr.cycleStrobe { sample0 with railOn := [3] }).wf = false ∧ (Instr.cycleStrobe { sample0 with lineUa := [(16, 0)] }).wf = false ∧
    (Instr.cycleStrobe { sample0 with stuckOpen := [(18, 0)] }).wf = false ∧ (Instr.cycleStrobe { sample0 with stuckOpen := [(0, 6)] }).wf = false ∧
    (Instr.cycleStrobe { sample0 with corrupt := [(.a, 262144, 0)] }).wf = false ∧
    (Instr.cycleStrobe { sample0 with mramWrites := [(4, 0, 0)] }).wf = false ∧ (Instr.cycleStrobe { sample0 with levels := [(32, [])] }).wf = false ∧
    (Instr.cycleStrobe { sample0 with emitted := [(.a, 16384, 0)] }).wf = false ∧ (Instr.cycleStrobe { sample0 with supplyMv := [(6, 0)] }).wf = false ∧
    (Instr.cycleStrobe { sample0 with wrong := [(.a, 16384, 0)] }).wf = false ∧
    (Instr.cycleStrobe { sample0 with restarted := [65536] }).wf = false := by decide

theorem test_wf_frame : (Instr.frameReceive .xe { frame0 with typ := 256 }).wf = false ∧
    (Instr.frameReceive .xe { frame0 with slot := 65536 }).wf = false ∧ (Instr.frameReceive .xe { frame0 with count := 4294967296 }).wf = false := by decide

theorem test_wf_network : (Instr.linkQualification .xe { qual0 with partnerPort := 4 }).wf = false ∧
    (Instr.linkQualification .xe { qual0 with partnerNode := 65536 }).wf = false ∧
    (Instr.linkQualification .xe { qual0 with stamps := [{ received := 4294967296, echoed := 0, turnaround := 0 }] }).wf = false ∧
    (Instr.autoNegotiation .xe { fullDuplex := true, halfDuplex := false, pause := 0, remoteFault := 4, nextPage := false, accepted := true }).wf = false ∧
    (Instr.autoNegotiation .xe { fullDuplex := true, halfDuplex := false, pause := 4, remoteFault := 0, nextPage := false, accepted := true }).wf = false ∧
    (Instr.coldstart (.lowerIdentity 65536 0)).wf = false ∧
    (Instr.staticSlotTransmit 1024 []).wf = false ∧ (Instr.minislot (some 65536)).wf = false := by decide

theorem test_wf_bridge : (Instr.tunnelTransmitEntry 8 tunnel0).wf = false ∧ (Instr.tunnelTransmitEntry 0 { tunnel0 with length := 1 }).wf = false ∧
    (Instr.tunnelSegment { segment0 with channel := 8 }).wf = false ∧ (Instr.peerReset { segment0 with index := 2 }).wf = false ∧
    (Instr.telegramReceive 0 { address := 256, length := 0, data := [], crc := 0 }).wf = false := by decide

theorem test_wf_train : (Instr.sweepFrame .xe { frame0 with sender := 65536 }).wf = false ∧ (Instr.stopFrame .xe { frame0 with typ := 256 }).wf = false ∧ (Instr.endChange 3).wf = false := by decide

theorem test_wf_lengths : (Instr.frameReceive .xe { frame0 with payload := List.replicate 1021 0 }).wf = false ∧
    (Instr.tunnelSegment { segment0 with data := List.replicate 1009 0 }).wf = false ∧
    (Instr.resultFrame .xe { frame0 with payload := List.replicate 1021 0 }).wf = false := by
  refine ⟨?_, ?_, ?_⟩ <;> simp only [Instr.wf, Frame.wf, Segment.wf, List.length_replicate] <;> simp

/-- Element numbers beyond what Table 4-16 can hold, and banks, channels and vectors that do not exist. -/
theorem test_wf_numbers : (Instr.timerExpiry 32768).wf = false ∧ (Instr.pointStroke 2048).wf = false ∧ (Instr.signalM0Restore 4096).wf = false ∧
    (Instr.sweepTimeout 8192).wf = false ∧ (Instr.crossingFail 256).wf = false ∧ (Instr.guardFeedback 1024).wf = false ∧
    (Instr.auxWindowExpiry 8).wf = false ∧ (Instr.permitExpiry .a 18).wf = false ∧ (Instr.externalEnergyProcedure 3).wf = false ∧
    (Instr.wireBreak 16).wf = false ∧ (Instr.bankOverload 6).wf = false ∧ (Instr.msixVectorUnmask 32).wf = false ∧
    (Instr.registerWrite 2 0 0 none).wf = false ∧ (Instr.qConsWrite 64 0).wf = false ∧ (Instr.sideBandPoll 64 none).wf = false := by decide

/-- The block idles on an empty queue (log 4). -/
theorem test_reset_idle : step State.reset = .next State.reset := by rfl

/-! ### Small states for the statements' hypotheses -/

def noImage : Image := { len := 0, cells := [] }

/-- One record of every kind, its fields 0 unless a test needs another value. -/
def imp1 : Imposition :=
  { cycleNs := 1000000, slots := 4, minislots := 40, allowance := 10, idle := 10, hop := 240, nodes := 1, entryCount := 1, tag := 0, topology := 0,
    reserved := 0, entries := [{ slot := 1, k := 1, f := 0, owner := 5, len := 64, flags := 0 }] }

def forme1 : Forme :=
  { header := { parseHeader noImage with personality := 1, m := 10, cycleNs := 1000000, node := 5 }, imageLen := 0, dir := [], channels := [],
    nodes := [{ id := 5, typ := 1, roles := 11, reserved := 0 }], imp := imp1,
    template := { cycleNs := 0, cab1 := 0, cab2 := 0, t0 := 0, slotUse := 0, maxAge := 0, reserved := 0 },
    points := [], signals := [], sections := [], heads := [], crossings := [], routes := [], overlaps := [], pool := [], flanks := [], timers := [],
    edges := [], remotes := [], galley := [], funcs := [], authCount := 0, rangeCount := 0, authorities := [], ranges := [], levels := [],
    strands := [], terms := [] }

def slot1 : FormeSlot := { state := .running, forme := some forme1, digest := 7, loadSeq := 1, runSeq := 1, colophon := none }

def lane1 : LaneState := { LaneState.reset with held := false, gate := true, slot0 := slot1 }

def busy : Queue := { Queue.reset with cfg := 0x80000416, prod := 1 }

def clear : Queue := { Queue.reset with cfg := 0x80000416 }

/-- PCIe is up, command queue 0 holds an entry, response queue 16 has room, and session 1 is open. -/
def link1 : HostLink :=
  { HostLink.reset with
    queues := setNth (setNth (setNth HostLink.reset.queues 0 busy) 16 clear) 48 busy, busMaster := true,
    stewardUp := true, j1Up := true, sessions := [{ num := 1, udp := false, key := 0, opened := true, nonce := 0, srcAddr := 0, srcPort := 0 }] }

def power1 : Power := { Power.reset with running := true, powered := true, holdupOk := true }

def net1 : Net :=
  { Net.reset with
    mode := .running, sends := true, imp := some imp1, nodes := forme1.nodes, self := 5, countKnown := true,
    ports := .all { Port.reset with mode := .up, joined := true } }

/-- The module runs forme1 in Commissioning with its three lanes, and the network runs. -/
def run1 : State :=
  { State.reset with
    power := power1, host := link1, lanes := .all lane1, platen := { Platen.reset with lanes := .all (.inService 0) },
    field := { Field.reset with link := true, safeN := false }, life := { Life.reset with state := .commissioning }, net := net1 }

/-- The entry with a payload, under session 1. -/
def mail (b : List Byte) : Entry := { entry0 with length := b.length, payload := b, session := 1, crc := BitVec.ofNat 32 (crc32c b) }

theorem xorOnes_lt {n : Nat} (h : n < 4294967296) : Nat.xor n 4294967295 < 4294967296 := Nat.xor_lt_two_pow (n := 32) h (by decide)

theorem reflect_lt (w n : Nat) : reflect w n < 2 ^ w := by
  have key : ∀ k acc, acc < 2 ^ k → ∀ l : List Nat, l.foldl (fun acc i => acc * 2 + reflect.b2 (n.testBit i)) acc < 2 ^ (k + l.length) := by
    intro k acc h l
    induction l generalizing k acc with
    | nil => simpa using h
    | cons i l ih =>
      have hb : reflect.b2 (n.testBit i) ≤ 1 := by unfold reflect.b2; split <;> omega
      have := ih (k + 1) (acc * 2 + reflect.b2 (n.testBit i)) (by rw [Nat.pow_succ]; omega)
      simpa [Nat.add_assoc, Nat.add_comm 1] using this
  have h := key 0 0 (by decide) (List.range w)
  simpa [reflect] using h

theorem crc32c_lt (l : List Byte) : crc32c l < 4294967296 := xorOnes_lt (reflect_lt 32 _)

/-- Every command over queue 0 of a state with the link and power of run1 is accepted, whatever sessions it needs. -/
theorem mail_accepted {s : State} {b : List Byte} (hp : s.power = power1) (hh : s.host = link1) (hb : b.length ≤ 4000) (op : Nat) (n m : Bool) :
    s.accepts op n m (mail b) (s.dequeue (mail b)) (outstandingOf op (mail b) none) := by
  have hc : Entry.crcOk (mail b) = true := by
    unfold Entry.crcOk
    rw [show Entry.body (mail b) = b from List.take_length ..]
    show (crc32c b == crc32c b % 4294967296) = true
    rw [Nat.mod_eq_of_lt (crc32c_lt b)]
    exact beq_self_eq_true _
  have hq : (mail b).queue = 0 := rfl
  have hu : Entry.udp (mail b) = false := rfl
  have hf : s.fetchable op (mail b) = true := by
    unfold State.fetchable
    rw [hp, hh, if_neg (by rw [hu]; decide), hq]
    rw [show link1.moves 0 = true by decide, show ((link1.queue 0).used != 0) = true by decide]
    decide
  have h1 : s.host.moves (Entry.target' (mail b)) = true := by rw [hh]; exact (by decide : link1.moves 16 = true)
  have h2 : s.host.unreserved (Entry.target' (mail b)) ≠ 0 := by rw [hh]; exact (by decide : link1.unreserved 16 ≠ 0)
  have h3 : (s.host.queue (mail b).queue).entryBytes = 4160 := by rw [hh]; exact (by decide : (link1.queue 0).entryBytes = 4160)
  have h4 : s.host.sessionOk (mail b) = true := by rw [hh]; rfl
  have h5 : s.host.outstanding.length = 0 := by rw [hh]; rfl
  have hl : (mail b).length = b.length := rfl
  refine ⟨?_, rfl, rfl⟩
  unfold State.vet
  rw [if_neg (by simp [hf]), if_neg (by simp [h1, h2]), if_neg (by rw [hl]; omega),
    if_neg (by rw [h3, hl]; omega), if_neg (by simp [hc]), if_neg (by simp [h4]), if_neg (fun h => by cases h.1),
    if_neg (by rw [h5]; omega)]

/-! ### Witnesses: what the hypotheses of the statements ask can be met -/

/-- O3: the module is in the safe state, and the front command is no start. -/
theorem witness_SafeStateLeftOnlyByStarts : ∃ t, ∃ p : Platen, p.safe = true ∧
    step { State.reset with platen := p, pending := [.kern []] } = .next t ∧ Instr.starts (.kern []) = false :=
  ⟨_, { Platen.reset with safe := true }, rfl, rfl, rfl⟩

/-- O4: the module is retired, and the command is no start. -/
theorem witness_RetiredLeftOnlyByStarts : ∃ (s t : State), s.life.state = .retired ∧ exec (.kern []) s = .next t ∧ Instr.starts (.kern []) = false :=
  ⟨{ State.reset with life := { Life.reset with state := .retired } }, _, rfl, rfl, rfl⟩

/-- O5: a write of CDC_STATUS is an access of the host. -/
theorem witness_HostAccessKeepsVitalState : ∃ t, exec (.cdcStatusClear 1) run1 = .next t ∧ Instr.hostAccess (.cdcStatusClear 1) = true :=
  ⟨_, rfl, rfl⟩

/-- O6 and O8: reset keeps the recorder's order and the limits, and a step of it answers a next state. -/
theorem witness_RecorderNumbersNeverFall : ∃ t, step State.reset = .next t ∧ RecSound State.reset.recorder :=
  ⟨_, rfl, ⟨by intro p h; simp [State.reset, Recorder.reset] at h, by intro c h; simp [State.reset, Recorder.reset] at h⟩⟩

theorem witness_StepKeepsLimits : ∃ t, step { run1 with pending := [.kern []] } = .next t ∧ run1.withinLimits :=
  ⟨_, rfl, by decide, by decide, by decide, by intro c h; cases h⟩

/-- O7: a command with each outcome of the checks. -/
theorem witness_MailboxTurnedAway :
    Instr.mailbox (.sysIdentify (mail [])) = some (0x0304, false, true, mail []) ∧
    State.reset.vet 0x0304 false true (mail []) = .none ∧
    (∃ h : HostLink, ({ run1 with host := h } : State).vet 0x0304 false true (mail []) = .stall) ∧
    run1.vet 0x0304 false true { mail [] with length := 4081 } = .reject .framing 1 ∧
    (∀ b : List Byte, b.length = 0 → run1.vet 0x0301 true true { mail b with crc := 1, session := 0 } = .reject .framing 3) ∧
    run1.vet 0x0304 false true { mail [] with session := 2 } = .reject .auth 0 :=
  ⟨rfl, by decide, ⟨{ link1 with queues := setNth link1.queues 16 .reset }, by decide⟩, by decide,
    fun b h => by cases b with
      | nil => decide
      | cons x l => simp at h,
    by decide⟩

/-! ### A forme with a record of each kind of element, and a lane's words for it -/

def region (per base : Nat) : DirEntry := { code := 0, wordsPer := per, offset := 0, length := 0, count := 1, base := base, reserved := 0 }

def nowhere : DirEntry := { code := 0, wordsPer := 0, offset := 0, length := 0, count := 0, base := 0, reserved := 0 }

def point2 : PointRec :=
  { id := 10, typ := 1, machines := 1, driveN := 0, driveR := 0, detN := 0, detR := 0, stroke := 10, filter := 10, sec := 11, coupled := 0xFFFF, flank := 0, reserved := 0 }

def section2 : SectionRec := { id := 11, nHeads := 1, resetClass := 1, heads := [], mask := 0, sweep := 1, aux := 0, reserved := 0 }

def crossing2 (typ : Nat) : CrossingRec :=
  { id := 12, typ := typ, barriers := 1, strikes := [], barrierCmd := 0, downs := [0x30000001], light := 0, proving := 0x30000000, warning := 10,
    lowering := 10, island := 0xFFFF, reserved := 0 }

def func2 (typ : Nat) : FuncRec :=
  { id := 13, typ := typ, resetMode := 0, resetIn := 0, feedback := 0x30000000, monitored := 0, fbDelay := 10, srcKind := 1, srcId := 0, scale := 1,
    window := 1, dir := 0, limit := 1, tolerance := 1, still := 10, posLow := 0, posHigh := 0, refIn := 0, refPos := 0, hyst := 0, chA := 0, chB := 0,
    chC := 0, chD := 0, mode := 0, startTest := 0, disc := 10, simul := 10, zerosOk := true }

/-- forme1 with one record of each kind; the crossing's and the function's type as named. -/
def forme2 (ct ft : Nat) : Forme :=
  { forme1 with
    dir := [nowhere, nowhere, nowhere, nowhere, nowhere, region 3 10, region 3 20, region 5 30, region 2 40, region 3 50, region 1 60, nowhere, nowhere,
      nowhere, region 3 70, nowhere, region 1 80, nowhere, region 21 90],
    points := [point2], sections := [section2], crossings := [crossing2 ct],
    routes := [{ entry := 14, exit := 14, first := 0, n := 0, cls := 1, overlap := 0xFFFF, approachN := 0, release := 0, timer := 0, reserved := 0 }],
    overlaps := [{ start := 14, trigger := 11, first := 0, n := 0, timer := 0, alt := 0, reserved := 0 }],
    timers := [{ owner := 14, ord := 0, cls := 1, preset := 10, reserved := 0 }],
    remotes := [{ group := 15, member := 0, ordinal := 1, output := 0, node := 6, maxAge := 1, word := 0, vital := 1 }],
    funcs := [func2 ft], authorities := [{ node := 6, confirm := 15, offer := 14, offerTarget := 14, timer := 0 }] }

/-- run1 with that forme and the same core in every lane, at cycle count 3. -/
def run2 (ct ft : Nat) (core : LaneCore) : State :=
  { run1 with lanes := .all { lane1 with slot0 := { slot1 with forme := some (forme2 ct ft) }, core := core }, net := { net1 with count := 3 } }

/-- Lane a's environment in it. -/
def env2 (ct ft : Nat) : Env := (run2 ct ft .empty).envOf .a (forme2 ct ft)

/-- The core whose words are those that the lane itself writes: region, word of record 0, value. -/
def core2 (ct ft : Nat) (c : LaneCore) (ws : List (Nat × Nat × Nat)) : LaneCore :=
  (ws.foldl (fun v w => v.wr (env2 ct ft) w.1 0 w.2.1 w.2.2) (Ev.start c)).core

/-- The smallest forme: a header, its directory, one node, and an imposition with that node's slot. -/
def least : Image :=
  { len := 12360, cells := [(0, 80), (1, 83), (2, 88), (3, 70), (4, 1), (6, 1), (7, 1), (20, 10), (22, 5), (24, 64), (25, 66), (26, 15),
    (31, 3), (40, 1), (4096, 1), (4105, 16), (4108, 1), (4128, 2), (4133, 16), (4136, 224), (4137, 2), (4140, 23), (4160, 3), (4165, 32),
    (4192, 4), (4197, 32), (4200, 32), (4204, 1), (4224, 5), (4229, 48), (4232, 72), (4236, 1), (4256, 6), (4258, 3), (4261, 64), (4288, 7),
    (4290, 3), (4293, 64), (4320, 8), (4322, 5), (4325, 64), (4352, 9), (4354, 2), (4357, 64), (4384, 10), (4386, 3), (4389, 64), (4416, 11)] ++
    [(4421, 64), (4448, 12), (4453, 64), (4480, 13), (4485, 64), (4512, 14), (4517, 64), (4544, 15), (4546, 3), (4549, 64), (4576, 16), (4581, 64),
    (4608, 17), (4613, 64), (4640, 18), (4645, 64), (4672, 19), (4674, 21), (4677, 64), (4704, 20), (4709, 64), (4736, 21), (4741, 64), (4768, 22),
    (4773, 64), (4800, 23), (4805, 64), (8192, 5), (8194, 1), (8195, 7), (12288, 64), (12289, 66), (12290, 15), (12293, 2), (12294, 200), (12296, 46),
    (12298, 42), (12300, 240), (12302, 1), (12304, 1), (12308, 1), (12354, 1), (12356, 5), (12358, 16), (12359, 6)] }

/-- It passes checks 5 to 14 for an L variant on a network cycle of 1 ms. -/
theorem test_least_forme_loads : (parseForme least).contentFail 1 1000000 (some 1) = none := by decide +kernel

/-- O10: queue 16 with interrupts off; on with its vector unmasked; on with it masked, and pending before. -/
theorem witness_EntrySendsMessage : 16 < run1.host.queues.length ∧ (run1.host.queue 16).irqEn = false ∧
    (∃ q : Queue, q.irqEn = true ∧ q.vector = 0) ∧ 0 ∈ HostLink.reset.masked ∧ 0 ∉ ({ HostLink.reset with masked := [] } : HostLink).masked ∧
    0 ∈ ({ HostLink.reset with pba := [0] } : HostLink).pba :=
  ⟨by decide, by decide, ⟨{ clear with cfg := 0x80010046 }, by decide, by decide⟩, by decide, by decide, by decide⟩

/-- O11: a command of queue 0 with response queue 16, which moves and has room; without room; and with the flag bit. -/
theorem witness_AnswerWritesOneEntry : ∃ o : Outstanding, o = outstandingOf 0x0304 (mail []) none ∧ o.queue < 15 ∧ o.target < run1.host.queues.length ∧
    run1.host.moves o.target = true ∧ 0 < (run1.host.queue o.target).free ∧ ¬ (Status.done = .done ∧ o.flags % 2 = 1) ∧
    State.reset.host.moves o.target = false ∧ ({ clear with prod := 64 } : Queue).free = 0 ∧ ({ o with flags := 1 } : Outstanding).flags % 2 = 1 :=
  ⟨_, rfl, by decide, by decide, by decide, by decide, by decide, by decide, by decide, by decide⟩

/-- run1 with its event queue 32 enabled. -/
def events1 : State := { run1 with host := { link1 with queues := setNth link1.queues 32 clear } }

/-- O12: the first and the last event number are routed to queue 32, which is enabled and moves; and it may be full or not move. -/
theorem witness_RaiseWritesEventEntry : events1.host.stewardUp = true ∧ events1.host.eventRoute 0 = some 32 ∧ events1.host.eventRoute 255 = some 32 ∧
    32 ≠ 47 ∧ 32 < events1.host.queues.length ∧ (events1.host.queue 32).enabled = true ∧ events1.host.moves 32 = true ∧
    (events1.host.queue 32).free ≠ 0 ∧ ({ events1.host with busMaster := false } : HostLink).moves 32 = false :=
  ⟨by decide, by decide, by decide, by decide, by decide, by decide, by decide, by decide, by decide⟩

/-- A token of the signer, key index and kind with the sequence number and body. -/
def token (kind signer idx seq : Nat) (body : List Byte) : List Byte :=
  leBytes 4 tokMagic ++ leBytes 1 1 ++ leBytes 1 kind ++ leBytes 1 signer ++ leBytes 1 idx ++ leBytes 8 0 ++ leBytes 4 seq ++
    leBytes 2 body.length ++ leBytes 2 0 ++ body ++ List.replicate 114 0

/-- run1 with a root key and a maintainer's key. -/
def keys1 : State :=
  { run1 with ident := { Ident.reset with rootKey := 1 }, life := { run1.life with authority := 2, maintainer := List.replicate 8 3 } }

def sign (k : KeyBits) : Sig := { key := k, ok := true }

/-- O13 and O14: a token of kind 0x08 that passes, and one that fails at each of the five steps; the boundary sequence number fails. -/
theorem witness_TokenCheckedThenCounted :
    tokSized (token 8 3 0 1 (List.replicate 68 0)) = true ∧
    keys1.tokenFail [0x08] (token 8 3 0 1 (List.replicate 68 0)) (sign 3) = 0 ∧
    keys1.tokenFail [0x09] (token 8 3 0 1 (List.replicate 68 0)) (sign 3) = 1 ∧
    keys1.tokenFail [0x08] (token 8 2 0 1 (List.replicate 68 0)) (sign 3) = 2 ∧
    ({ keys1 with ident := { keys1.ident with serial := 7 } } : State).tokenFail [0x08] (token 8 3 0 1 (List.replicate 68 0)) (sign 3) = 3 ∧
    keys1.tokenFail [0x08] (token 8 3 0 1 (List.replicate 68 0)) (sign 4) = 4 ∧
    keys1.tokenFail [0x08] (token 8 3 0 0 (List.replicate 68 0)) (sign 3) = 5 :=
  ⟨by decide +kernel, by decide +kernel, by decide +kernel, by decide +kernel, by decide +kernel, by decide +kernel, by decide +kernel⟩

theorem witness_TokenNeverPassesTwice : keys1.tokenFail [0x08] (token 8 3 0 1 (List.replicate 68 0)) (sign 3) = 0 ∧
    tokCounter (token 8 3 0 1 (List.replicate 68 0)) < keys1.life.counters.length ∧
    tokCounter (token 8 3 7 1 (List.replicate 68 0)) < keys1.life.counters.length :=
  ⟨by decide +kernel, by decide +kernel, by decide +kernel⟩

/-- O15: values, kinds and tags at the ends of their ranges. -/
theorem witness_EncodedWordDecodesToItsValue : 65535 < 65536 ∧ isIdentity 1 = true ∧ 15 < 16 ∧ isCodeSet 10 = true ∧ 0 % 256 = 256 % 256 ∧
    255 % 256 = (0 + 255) % 256 ∧ (4 = 4 ∧ 0 = 0) ∧ ¬ (4 = 4 ∧ 1 = 0) ∧ (3 = 3 → 65535 ≤ 65535) :=
  ⟨by decide, by decide, by decide, by decide, by decide, by decide, by decide, by decide, by decide⟩

/-- O16: the value 1 of identity 1 is encoded, at the first and the last code bit. -/
theorem witness_NoSingleCodeBitErrorPasses : (∃ w, encode 1 1 0 1 10 = some w) ∧ 1 < 65536 ∧ 0 < 32 ∧ 31 < 32 ∧ 0 % 256 = 0 % 256 :=
  ⟨⟨_, rfl⟩, by decide, by decide, by decide, rfl⟩

/-- run1 with copies that have no majority. -/
def noMajority : State := { run1 with platen := { run1.platen with copies := .all { Copy.empty with voted := some [], verdict := 8 } } }

/-- O17: a lane with another value or none; three lanes serve and two copies have no majority. -/
theorem witness_VoteOfThreeLanes : some 2 ≠ some 1 ∧ none ≠ some 1 ∧
    (∀ y, ¬ ((none : Option Nat) = some y ∧ some 1 = some y) ∧ ¬ ((none : Option Nat) = some y ∧ some 2 = some y) ∧ ¬ (some 1 = some y ∧ some 2 = some y)) ∧
    (lanesWhere noMajority.serving).length = 3 ∧ 2 ≤ noMajority.verdicts 3 ∧ noMajority.platen.safe = false :=
  ⟨by decide, by decide, by intro y; simp; omega, by decide, by decide, by decide⟩

/-- O18: two lanes serve and a copy has no voted result. -/
theorem witness_VoteOfTwoLanes : (∀ y, ¬ (some 1 = some y ∧ (none : Option Nat) = some y)) ∧ (∀ y, ¬ (some 1 = some y ∧ some 2 = some y)) ∧
    ∃ p : Platen, p = { noMajority.platen with lanes := { a := .inService 0, b := .inService 0, c := .excluded } } ∧
      (lanesWhere ({ noMajority with platen := p } : State).serving).length = 2 ∧ 1 ≤ ({ noMajority with platen := p } : State).verdicts 3 ∧ p.safe = false :=
  ⟨by intro y; simp, by intro y; simp; omega, _, rfl, by decide, by decide, by decide⟩

/-- O19: run1 runs. -/
theorem witness_DiesEnterReset : run1.power.running = true ∧ run1.power.powered = true ∧ run1.power.resetHeld = false := ⟨rfl, rfl, rfl⟩

/-- O20: each condition at its boundary. -/
theorem witness_SupplyHoldupTemperature : run1.power.powered = true ∧ run1.power.running = true ∧ 4499 < 4500 ∧ 40000 < 40001 ∧ 110 < 111 ∧
    run1.power.resetHeld = false ∧ run1.power.holdupOk = true ∧ ({ run1.power with resetHeld := true } : Power).resetHeld = true :=
  ⟨rfl, rfl, by decide, by decide, by decide, rfl, rfl, rfl⟩

/-- O21: a module before VS rises, and one held in reset, stuck and not; no half is sealed. -/
theorem witness_PowerUpAndReleaseStart : startPasses facts0 0x40 = true ∧ State.reset.power.powered = false ∧ State.reset.power.resetHeld = false ∧
    State.reset.unsealed ∧ (∃ s : State, s.power.powered = true ∧ s.power.resetHeld = true ∧ s.power.resetStuck = true) ∧
    (∃ s : State, s.power.powered = true ∧ s.power.resetHeld = true ∧ s.power.resetStuck = false) :=
  ⟨by decide, rfl, rfl, fun l => by cases l <;> exact ⟨rfl, rfl⟩,
    ⟨{ State.reset with power := { power1 with resetHeld := true, resetStuck := true } }, rfl, rfl, rfl⟩,
    ⟨{ State.reset with power := { power1 with resetHeld := true } }, rfl, rfl, rfl⟩⟩

/-- O22: an accepted sys.restart. -/
theorem witness_SysRestartStartsAnew : run1.vet 0x0301 true true (mail [1]) = .accept ∧ 1 ≤ (Entry.body (mail [1])).length ∧
    startPasses facts0 0x40 = true ∧ run1.unsealed :=
  ⟨(mail_accepted rfl rfl (by decide) _ _ _).1, by decide, by decide, fun l => by cases l <;> exact ⟨rfl, rfl⟩⟩

/-- A change of the platen, the network and the lanes of run1. -/
def withPlaten (p : Platen) : State := { run1 with platen := p }
def withNet (n : Net) : State := { run1 with net := n }
def withField (d : Field) : State := { run1 with field := d }

/-- The copies of run1's cycle, open, with what lane l's copy has voted. -/
def cycle1 (a b c : Option (List (Option Nat))) : State :=
  withPlaten { run1.platen with cycleOpen := true, copies := { a := { Copy.empty with voted := a }, b := { Copy.empty with voted := b }, c := { Copy.empty with voted := c } } }

/-- A lane's die in reset. -/
def dropped (s : State) (l : LaneId) : State := { s with lanes := s.lanes.set l (s.lanes.get l).enterReset }

/-- O23: a lane goes between cycles, before another has voted, after all others have, and as the last; ports of each mode. -/
theorem witness_ClockAndRailFaults : run1.power.running = true ∧
    ((dropped run1 .a).lanesIn ≠ [] ∧ run1.platen.cycleOpen = false) ∧
    ((dropped (cycle1 none none none) .c).laneIn .a = true ∧ ((cycle1 none none none).platen.copies.get .a).voted = none) ∧
    ((dropped (cycle1 (some []) (some []) none) .c).forme = some forme1 ∧ (dropped (cycle1 (some []) (some []) none) .c).lanesIn ≠ [] ∧
      ∀ k, (dropped (cycle1 (some []) (some []) none) .c).laneIn k = true → ((cycle1 (some []) (some []) none).platen.copies.get k).voted.isSome = true) ∧
    (∃ s : State, (dropped s .a).forme = some forme1 ∧ (dropped s .a).lanesIn = []) ∧
    run1.field.link = true ∧ (run1.net.ports.get .xe).mode = .up ∧ (State.reset.net.ports.get .xe).mode = .down :=
  ⟨rfl, ⟨by decide, rfl⟩, ⟨by decide, rfl⟩, ⟨by decide, by decide, by intro k; cases k <;> decide⟩,
    ⟨withPlaten { run1.platen with lanes := { a := .inService 0, b := .excluded, c := .excluded } }, by decide, by decide⟩, rfl, rfl, rfl⟩

/-- O24: the network die in reset, and each thing that a crossing can carry. -/
theorem witness_NetworkClockAndCrossings : ∃ s : State, s.power.running = true ∧ s.power.netDown = true ∧ s.net.engineBad = false ∧
    (∃ x, x = Crossing.value) ∧ (∃ q x, x = Crossing.doorbell q) ∧ (∃ w x, x = Crossing.laneWord .a w) ∧ ∃ n x, x = Crossing.event n :=
  ⟨{ run1 with power := { power1 with netDown := true } }, rfl, rfl, rfl, ⟨_, rfl⟩, ⟨0, _, rfl⟩, ⟨0, _, rfl⟩, ⟨0, _, rfl⟩⟩

/-- O25: the window is open and the word is the key with the restart bit; and a steward that is down with its block sound. -/
theorem witness_StewardRestartsAlone : run1.host.stewardUp = true ∧ run1.host.window = true ∧ (0xC301 : Word32).getLsbD 0 = true ∧
    bits32 0xC301 8 8 = 0xC3 ∧ ({ link1 with stewardUp := false } : HostLink).stewardUp = false ∧ 0x39 ∉ run1.proofs.failed :=
  ⟨rfl, by decide, by decide, by decide, rfl, by decide⟩

/-- run1 committed to an exchange at the next strobe, every lane with a second forme. -/
def exchange1 : State :=
  { run1 with
    xchg := { Xchg.reset with state := .committing, target := 1 },
    lanes := .all { lane1 with slot1 := { slot1 with state := .loaded } } }

/-- O26: a strobe with nothing due, with a lane out of service, and with an exchange due. -/
theorem witness_StrobeOpensTheCycle : run1.canStrobe = true ∧ run1.followTarget.exchangeDue = false ∧ run1.rejoinDue = none ∧ run1.isDuplex = false ∧
    run1.laneIn .a = true ∧ (run1.lanes.get .a).forme = some forme1 ∧
    (∃ s : State, s.canStrobe = true ∧ s.laneIn .c = false) ∧
    exchange1.canStrobe = true ∧ exchange1.followTarget.exchangeDue = true ∧ exchange1.laneIn .a = true ∧
    (exchange1.lanes.get .a).forme.isSome = true ∧ (exchange1.lanes.get .a).waitingForme.isSome = true :=
  ⟨by decide, by decide, by decide, by decide, by decide, by decide,
    ⟨withPlaten { run1.platen with lanes := { a := .inService 0, b := .inService 0, c := .excluded } }, by decide, by decide⟩,
    by decide, by decide, by decide, by decide, by decide⟩

/-- O27: an open cycle in and out of the safe state, a lane out of service, a half being written and none. -/
theorem witness_CheckpointWrittenAndSealed : ∃ p : Platen, p = { run1.platen with cycleOpen := true } ∧ (withPlaten p).power.running = true ∧
    p.cycleOpen = true ∧ p.safe = false ∧ (withPlaten p).laneIn .a = true ∧ (State.reset).laneIn .a = false ∧
    (run1.lanes.get .a).held = false ∧ (run1.lanes.get .a).writing = none ∧
    ({ lane1 with writing := some (1, .empty) } : LaneState).writing = some (1, .empty) :=
  ⟨_, rfl, rfl, rfl, rfl, by decide, by decide, rfl, rfl, rfl⟩

/-- O28: of three lanes two are late, one is; of two one is; at overrun runs 1 and 2; one lane alone asks, and two do. -/
theorem witness_OverrunsAndMissingStrobe : ∃ s : State, s = cycle1 none none none ∧ s.power.running = true ∧ s.platen.cycleOpen = true ∧
    s.platen.stretched = false ∧ s.platen.lengthened = false ∧ s.platen.safe = false ∧ s.lanesIn.length = 3 ∧ (∀ k, s.serving k = s.laneIn k) ∧
    s.grants [.a, .b] = true ∧ s.grants [.a] = false ∧ s.platen.overrunRun < 2 ∧
    (lanesWhere (fun k => s.serving k && (s.platen.safeAsked.set .a true).get k)).length = 1 ∧ (lanesWhere s.serving).length = 3 ∧
    2 ≤ (lanesWhere (fun k => s.serving k && ((s.platen.safeAsked.set .a true).set .b true).get k)).length ∧
    ∃ p : Platen, p = { s.platen with overrunRun := 2, lanes := { a := .inService 0, b := .inService 0, c := .excluded } } ∧ 2 ≤ p.overrunRun ∧
      (withPlaten p).lanesIn.length = 2 ∧ (withPlaten p).grants [.a] = true :=
  ⟨_, rfl, rfl, rfl, rfl, rfl, rfl, by decide, by intro k; cases k <;> decide, by decide, by decide, by decide, by decide, by decide, by decide,
    _, rfl, by decide, by decide, by decide⟩

/-- An open cycle in which lanes a and b have evaluated. -/
def galleys1 : State := { cycle1 none none none with lanes := .all { lane1 with galley := some [] } }

/-- The same with what copy a has received. -/
def received (a b c : Option (List Word64)) (vb vc : Option (List (Option Nat))) : State :=
  { galleys1 with platen := { galleys1.platen with copies := { a := { Copy.empty with got := { a := a, b := b, c := c } }, b := { Copy.empty with voted := vb }, c := { Copy.empty with voted := vc } } } }

/-- O29: a galley is missing, it is the last, another copy is yet to vote, and all others have voted. -/
theorem witness_GalleysMakeTheVote : ∃ s : State, s = received none none none none none ∧ s.forme = some forme1 ∧ s.copyOpen .a = true ∧
    (s.lanes.get .a).galley = some [] ∧ s.laneIn .a = true ∧ (s.serving .b = true ∧ (s.platen.copies.get .a).got.get .b = none) ∧
    (∀ k, (received none (some []) (some []) none none).serving k = true → k ≠ .a →
      (((received none (some []) (some []) none none).platen.copies.get .a).got.get k).isSome = true) ∧
    (s.laneIn .b = true ∧ (s.platen.copies.get .b).voted = none) ∧ s.platen.complete = false ∧
    (∀ k, k ≠ .a → (received none none none (some []) (some [])).laneIn k = true →
      ((received none none none (some []) (some [])).platen.copies.get k).voted.isSome = true) :=
  ⟨_, rfl, by decide, by decide, by decide, by decide, by decide, by intro k; cases k <;> decide, by decide, by decide, by intro k; cases k <;> decide⟩

/-- O30: the lane holds the row, whose fault is not known yet. -/
theorem witness_PermitsGatesAndScrub : ∃ s : State, s.power.running = true ∧ s.laneIn .a = true ∧
    (kvGet (s.lanes.get .a).core.quoin 65535).isSome = true ∧ 65535 ∉ (s.lanes.get .a).badRows :=
  ⟨{ run1 with lanes := .all { lane1 with core := { LaneCore.empty with quoin := [(65535, 0)] } } }, rfl, by decide, by decide, by decide⟩

/-- The timer of the route, the overlap and the authority has expired; the route is in state 5; the point's drive has run its stroke time. -/
def expired2 : LaneCore :=
  core2 2 3 { LaneCore.empty with
      quoin := [(0, quoinEntry .a 14 1 0 0 (ownerOverlap 0))], ovlAux := [0], routes := [(0, { RouteMem.empty with slot := some 4, timeout := 0 })],
      points := [(0, { PointMem.empty with drive := 1 })],
      stagings := [(0, { code := 1, target := 14, ticket := 1, slot := 3, cycle := 0, confirmed := some 0 })] }
    [(0x0F, 0, 1), (0x0F, 2, 1), (0x0B, 0, 5), (0x08, 0, 1), (0x06, 1, 8), (0x06, 2, 1)]

/-- The point was last detected normal and is lost for its filter time. -/
def lost2 : LaneCore := { LaneCore.empty with points := [(0, { PointMem.empty with last := 1, loss := 1 })] }

/-- O31: what each expiry asks. -/
theorem witness_RoutePointAndTimerExpiries : ∃ (s : State) (e : Env) (v : Ev), s = run2 2 3 expired2 ∧ e = s.envOf .a (forme2 2 3) ∧ v = Ev.start (s.lanes.get .a).core ∧
    s.power.running = true ∧ s.laneIn .a = true ∧ (s.lanes.get .a).forme = some (forme2 2 3) ∧ v.timerExpired e 0 = true ∧
    (v.rd e 0x0B 0 0 = 5 ∧ (v.route 0).slot.isSome = true ∧ (v.route 0).timeout = 0) ∧
    (v.rowsOwned e (ownerOverlap 0) ≠ [] ∧ occupied (v.sectionState e 11) = true ∧ 0 ∈ v.core.ovlAux) ∧
    ((v.pointMem 0).drive ≠ 0 ∧ member (v.rd e 0x06 0 1) 3 = true ∧ v.detection e point2 ≠ (v.pointMem 0).drive ∧
      (forme2 2 3).floorCycles point2.stroke ≤ v.rd e 0x06 0 2) ∧
    ((forme2 2 3).timerNo 14 0 = some 0 ∧ (kvGet v.core.stagings 0).isSome = true) ∧
    (∃ p, v.core.stagings = [p] ∧ p.2.confirmed = some 0 ∧ p.1 % 8 = 0 ∧ 0 + 3 ≤ s.net.count) ∧
    (∃ w : Ev, w = Ev.start lost2 ∧ (w.pointMem 0).drive = 0 ∧ (w.pointMem 0).goal = 0 ∧
      (lossStep ((forme2 2 3).floorCycles point2.filter) (w.detection e point2) (point2.typ == 3) true (w.pointMem 0)).2.2 = true) :=
  ⟨_, _, _, rfl, rfl, rfl, by decide +kernel, by decide +kernel, by decide +kernel, by decide +kernel, by decide +kernel, by decide +kernel,
    by decide +kernel, by decide +kernel, ⟨_, rfl, rfl, rfl, by decide +kernel⟩, _, rfl, by decide +kernel, by decide +kernel, by decide +kernel⟩

/-- A crossing of the type with its state and count words and its memory; the proving input on or off; the section swept for its whole time. -/
def crossed2 (ct state count : Nat) (lit : Bool) (m : CrossingMem) : Ev :=
  Ev.start (core2 ct 3 { LaneCore.empty with
      crossings := [(0, m)], signals := [(0, { SignalMem.empty with stops := 3 })] }
    [(0x0A, 0, state), (0x0A, 1, count), (0x08, 0, 1), (0x08, 3, 100), (0x11, 0, if lit then 1 else 0)])

/-- O32: what each expiry asks, each count at its first value. -/
theorem witness_SignalSectionAndCrossingExpiries : ∃ (s : State) (e : Env), s = run2 2 3 .empty ∧ e = s.envOf .a (forme2 2 3) ∧
    s.power.running = true ∧ s.laneIn .a = true ∧ (s.lanes.get .a).forme = some (forme2 2 3) ∧
    ((kvGetD (crossed2 2 2 1 false .empty).core.signals 0 .empty).cmd = 0 ∧ 3 ≤ (kvGetD (crossed2 2 2 1 false .empty).core.signals 0 .empty).stops) ∧
    ((crossed2 2 2 1 false .empty).rd e 0x08 0 0 = 1 ∧
      (forme2 2 3).floorCycles (section2.sweep * 1000) ≤ (crossed2 2 2 1 false .empty).sweepCount e 0) ∧
    ((crossed2 2 2 1 false .empty).rd e 0x0A 0 0 = 2 ∧ (forme2 2 3).ceilCycles (crossing2 2).warning ≤ (crossed2 2 2 1 false .empty).rd e 0x0A 0 1 ∧
      (crossing2 2).typ ≠ 1) ∧
    ((crossed2 1 2 1 true .empty).rd (env2 1 3) 0x0A 0 0 = 2 ∧ (crossing2 1).typ = 1 ∧ (crossed2 1 2 1 true .empty).input (env2 1 3) (crossing2 1).proving = true) ∧
    ((crossed2 2 3 1 false .empty).rd e 0x0A 0 0 = 3 ∧ (∃ r ∈ (crossing2 2).downs, refNone r = false ∧ (crossed2 2 3 1 false .empty).input e r = false) ∧
      (forme2 2 3).floorCycles (crossing2 2).lowering ≤ (crossed2 2 3 1 false .empty).rd e 0x0A 0 1) ∧
    ((crossed2 2 4 0 false { CrossingMem.empty with dark := 2 }).rd e 0x0A 0 0 ≠ 0 ∧ 2 ≤ ({ CrossingMem.empty with dark := 2 } : CrossingMem).dark) ∧
    ((crossed2 2 0 0 true { CrossingMem.empty with cause := 1, lit := 3 }).rd e 0x0A 0 0 = 0) ∧
    ((crossed2 2 6 1 false .empty).rd e 0x0A 0 0 = 6 ∧ ((crossed2 2 6 1 false .empty).crossingView e 0 (crossing2 2)).trigger = false ∧
      (forme2 2 3).ceilCycles (crossing2 2).lowering ≤ (crossed2 2 6 1 false .empty).rd e 0x0A 0 1) :=
  ⟨_, _, rfl, rfl, rfl, by decide +kernel, by decide +kernel, by decide +kernel, by decide +kernel, by decide +kernel, by decide +kernel,
    by decide +kernel, by decide +kernel, by decide +kernel, by decide +kernel⟩

/-- A function of the type with its status word, three of its count words and its memory; the feedback input on. -/
def guarded2 (ft bits : Nat) (ws : List (Nat × Nat)) (m : FuncMem) : Ev :=
  Ev.start (core2 2 ft { LaneCore.empty with funcs := [(0, m)] } ([(0x13, 0, bits), (0x11, 0, 1)] ++ ws.map (fun p => (0x13, p.1, p.2))))

/-- O33: what each expiry asks. -/
theorem witness_GuardFunctionExpiries :
    ((run2 2 0x12 .empty).power.running = true ∧ (run2 2 0x12 .empty).laneIn .a = true ∧
      ((run2 2 0x12 .empty).lanes.get .a).forme = some (forme2 2 0x12) ∧ (forme2 2 0x12).funcs[0]? = some (func2 0x12)) ∧
    (0x10 ≤ (func2 0x12).typ ∧ (FuncBits.ofX ((guarded2 0x12 6 [(3, 1)] .empty).rd (env2 2 0x12) 0x13 0 0)).m1 = true ∧
      (forme2 2 0x12).floorCycles (func2 0x12).disc ≤ (guarded2 0x12 6 [(3, 1)] .empty).rd (env2 2 0x12) 0x13 0 3) ∧
    (refNone (func2 0x12).feedback = false ∧ (FuncBits.ofX ((guarded2 0x12 6 [(4, 1)] .empty).rd (env2 2 0x12) 0x13 0 0)).m2 = true ∧
      (forme2 2 0x12).floorCycles (func2 0x12).fbDelay ≤ (guarded2 0x12 6 [(4, 1)] .empty).rd (env2 2 0x12) 0x13 0 4) ∧
    (∃ m b, m = { FuncMem.empty with sound := 2 } ∧ b = FuncBits.ofX ((guarded2 3 22 [(3, 1)] m).rd (env2 2 3) 0x13 0 0) ∧ b.m1 = true ∧ b.m2 = true ∧
      b.m4 = true ∧ (guarded2 3 22 [(3, 1)] m).input (env2 2 3) (func2 3).feedback = true ∧
      ((guarded2 3 22 [(3, 1)] m).funcMem 0).sound = (func2 3).window + 1 ∧
      (forme2 2 3).ceilCycles (func2 3).still ≤ (guarded2 3 22 [(3, 1)] m).rd (env2 2 3) 0x13 0 3) ∧
    (∃ m, m = { FuncMem.empty with awaiting := true } ∧ ((guarded2 0x12 2 [(6, 1)] m).funcMem 0).awaiting = true ∧
      (forme2 2 0x12).floorCycles (func2 0x12).simul ≤ (guarded2 0x12 2 [(6, 1)] m).rd (env2 2 0x12) 0x13 0 6) :=
  ⟨by decide +kernel, by decide +kernel, by decide +kernel,
    ⟨_, _, rfl, rfl, by decide +kernel, by decide +kernel, by decide +kernel, by decide +kernel, by decide +kernel, by decide +kernel⟩,
    _, rfl, by decide +kernel, by decide +kernel⟩

/-- O34: the rows are listed, and a lane may be out of service, without a forme, or the module off. -/
theorem witness_ExpiriesActOnLanesAlone : Instr.timerExpiry 0 ∈ [Instr.timerExpiry 0] ∧ State.reset.laneIn .a = false ∧
    (State.reset.lanes.get .a).forme = none ∧ State.reset.power.running = false := ⟨by simp, by decide, by decide, rfl⟩

/-- O35: a proof that is due, waits, may isolate its lane (or not), and runs. -/
theorem witness_ProofsRunAndAreJudged : run1.power.running = true ∧ run1.host.stewardUp = true ∧ Proofs.reset.busy = false ∧
    (∃ l : Life, l = { Life.reset with state := .operation, inServiceS := 86400 } ∧ l.state = .operation ∧ 86400 ≤ l.inServiceS) ∧
    (∃ p : Proofs, p = { Proofs.reset with requested := some (.c, 2) } ∧ p.requested = some (.c, 2) ∧
      ({ run1 with proofs := p } : State).isolationOk = true ∧ (cycle1 none none none).isolationOk = false) ∧
    (∃ p : Proofs, p = { Proofs.reset with running := some (1, 2) } ∧ p.running = some (1, 2) ∧ blockLane 1 = some .a ∧ blockLane 3 = some .c) ∧
    (∃ p : Platen, p = { run1.platen with lanes := { a := .isolated, b := .inService 0, c := .inService 0 } } ∧ p.lanes.get .a = .isolated) :=
  ⟨rfl, rfl, rfl, ⟨_, rfl, rfl, by decide⟩, ⟨_, rfl, rfl, by decide, by decide⟩, ⟨_, rfl, rfl, by decide, by decide⟩, _, rfl, rfl⟩

/-- run1 with lane a isolated and due to rejoin. -/
def rejoin1 : State :=
  { run1 with
    platen := { run1.platen with lanes := { a := .isolated, b := .inService 0, c := .inService 0 } }, proofs := { Proofs.reset with rejoin := some .a } }

/-- O36: a rejoin that succeeds and one that does not; prf.run in each case; prf.result of the first and last block. -/
theorem witness_UserProofsAndRejoin : rejoin1.canStrobe = true ∧ rejoin1.rejoinDue = some .a ∧ rejoin1.lanesIn = [.b, .c] ∧ rejoin1.forme = some forme1 ∧
    (rejoinCore .a .b .c .empty .empty 1).isSome = true ∧ rejoinCore .a .b .c .empty { LaneCore.empty with swept := [0] } 1 = none ∧
    (∃ u o, run1.accepts 0x1401 true true (mail (leBytes 4 0x10)) u o) ∧ (∃ u o, run1.accepts 0x1402 false true (mail (leBytes 4 0x40)) u o) ∧
    Entry.size (mail (leBytes 4 0x40)) 4 = true ∧ Entry.field (mail (leBytes 4 0x40)) 0 2 = 0x40 ∧ isBlock 0x01 = true ∧ isBlock 0x40 = true ∧
    run1.life.state ≠ .operation ∧ run1.life.state ≠ .retired ∧ run1.proofs.busy = false ∧ run1.forme.isSome = true ∧ State.reset.forme = none ∧
    blockLane 0x10 = none ∧ blockBank 0x10 = some 0 ∧ blockBank 0x15 = some 5 ∧ blockPort 0x20 = some .xe ∧ 0x10 ∉ [0x18, 0x24, 0x39, 0x40] :=
  ⟨by decide, by decide, by decide, by decide, by decide, by decide, ⟨_, _, mail_accepted rfl rfl (by decide) _ _ _⟩,
    ⟨_, _, mail_accepted rfl rfl (by decide) _ _ _⟩, by decide, by decide, by decide, by decide, by decide, by decide, by decide, by decide, by decide,
    by decide, by decide, by decide, by decide, by decide⟩

/-- Permits of all three lanes for an output and its bank switch. -/
def lit (vo : Nat) : List Permit := LaneId.all.flatMap (fun l => [{ lane := l, item := vo, tag := 0 }, { lane := l, item := 16 + vo / 8, tag := 0 }])

/-- run1 as an F variant, with the outputs on. -/
def lit1 (vo : Nat) : State := { run1 with ident := { Ident.reset with variant := .f }, field := { run1.field with permits := lit vo } }

/-- A head of pair 0, a counting channel, a frequency channel and a line channel, a position for output 0 and bank 4. -/
def forme3 : Forme :=
  { forme2 2 3 with
    dir := [nowhere, nowhere, { region 1 0 with count := 5 }, nowhere, nowhere, nowhere, nowhere, nowhere, nowhere, nowhere, nowhere, nowhere, nowhere, nowhere,
      nowhere, nowhere, nowhere, { region 2 10 with count := 2 }, nowhere],
    heads := [{ id := 20, source := 1, even := 0, count := 0, minPulse := 100, maxFreq := 1000, overlap := 50, health := 0, reserved := 0 }],
    channels := [{ channel := 0, dir := 1, func := 3, typ := 1, filter := 1, group := 21, member := 0, partner := 1, vital := 1, reserved := 0 },
      { channel := 2, dir := 1, func := 4, typ := 1, filter := 1, group := 22, member := 0, partner := 0, vital := 1, reserved := 0 },
      { channel := 3, dir := 1, func := 5, typ := 1, filter := 1, group := 23, member := 0, partner := 0, vital := 1, reserved := 0 },
      { channel := 32, dir := 1, func := 1, typ := 1, filter := 1, group := 24, member := 0, partner := 0, vital := 1, reserved := 0 }],
    galley := [{ id := 25, kind := 1, target := 1, index := 0, reserved := 0 }, { id := 26, kind := 1, target := 2, index := 4, reserved := 0 }] }

def run3 (core : LaneCore) : State := { run1 with lanes := .all { lane1 with slot0 := { slot1 with forme := some forme3 }, core := core } }

/-- Output 0 was commanded off and reads on; the bank's status word as given. -/
def held3 (status : Nat) : LaneCore :=
  (((Ev.start { LaneCore.empty with lastGalley := [0, 0] }).put ((run3 .empty).envOf .a forme3) 3 1).put ((run3 .empty).envOf .a forme3) 13 status).core

/-- O37: what each row asks: energised and not; the first and the last bank path; the head's pair; each channel; an external source on output 0. -/
theorem witness_FieldInputsAndDarkTests : (lit1 15).fieldOn = true ∧ (lit1 15).forme = some forme1 ∧ (lit1 15).hasVital 15 = true ∧
    (lit1 15).platen.safe = false ∧ (lit1 15).voEnergised 15 = true ∧ (lit1 15).voEnergised 0 = false ∧ (lit1 15).hasBank 5 = true ∧ 2 < 3 ∧
    (lit1 15).itemOn (12 + 5) = true ∧ (lit1 15).itemOn (12 + 4) = false ∧ (lit1 15).lanesIn.length = 3 ∧
    (forme3.headOf 0).isSome = true ∧ forme3.hasFunc 0 3 = true ∧ forme3.hasFunc 2 4 = true ∧ forme3.hasFunc 3 5 = true ∧ run1.ident.variant = .l ∧
    (run3 (held3 0)).laneIn .a = true ∧ ((run3 (held3 0)).lanes.get .a).forme = some forme3 ∧
    (∃ e v, e = (run3 .empty).envOf .a forme3 ∧ v = Ev.start (held3 0) ∧ (0 < 16 ∧ bankOf 0 = 4 ∧ v.voOff e 0 = true ∧ v.voReads e 0 = true ∧ 0 ∉ v.core.voBlocked) ∧
      v.bankStatus e 4 = some 0 ∧ member 0 11 = false) ∧
    (∃ e v, e = (run3 .empty).envOf .a forme3 ∧ v = Ev.start (held3 2048) ∧ v.bankStatus e 4 = some 2048 ∧ member 2048 11 = true) ∧
    (∃ e v, e = (run3 .empty).envOf .a forme3 ∧ v = Ev.start .empty ∧ v.bankStatus e 4 = none ∧ v.voReads e 0 = false) :=
  ⟨by decide, by decide, by decide, by decide, by decide, by decide, by decide, by decide, by decide, by decide, by decide, by decide, by decide, by decide,
    by decide, by decide, by decide, by decide, ⟨_, _, rfl, rfl, by decide +kernel, by decide +kernel, by decide⟩, ⟨_, _, rfl, rfl, by decide +kernel, by decide⟩,
    ⟨_, _, rfl, rfl, by decide +kernel, by decide +kernel⟩⟩

/-- O38: each row's condition. -/
theorem witness_SuppliesAndOverloads : (lit1 15).fieldOn = true ∧ (lit1 15).hasBank 0 = true ∧ (lit1 15).hasBank 5 = true ∧ 17499 < 17500 ∧ 32000 < 32001 ∧
    5 ∉ (lit1 15).field.outOfRange ∧ (∃ d : Field, d = { Field.reset with outOfRange := [5], uoOn := [31] } ∧ 5 ∈ d.outOfRange ∧ 31 ∈ d.uoOn) ∧
    (lit1 15).hasVital 15 = true ∧ (lit1 15).voEnergised 15 = true ∧ (lit1 15).hasUniversal 31 = true ∧ (lit1 15).bankLive 5 = true ∧
    channelBank 0 ∉ (lit1 15).field.ubankOff :=
  ⟨by decide, by decide, by decide, by decide, by decide, by decide, ⟨_, rfl, by decide, by decide⟩, by decide, by decide, by decide, by decide, by decide⟩

def pages : BasePage := { fullDuplex := true, halfDuplex := false, pause := 0, remoteFault := 0, nextPage := false, accepted := true }

/-- One port mode at every port. -/
def portsAt (m : LinkMode) (n : Net) : Net := { n with ports := .all { Port.reset with mode := m, joined := m == .up } }

/-- A qualification with a round trip of 2 x l less the turnaround, at port XE of a node whose neighbour is itself. -/
def qualified (l errors : Nat) : QualResult :=
  { codeErrors := errors, prbsErrors := 0, stamps := [{ received := 2 * l, echoed := 0, turnaround := 0 }], partnerPort := 1, partnerNode := 5, bypass := 0 }

/-- O39: a port of each mode; a page that is accepted and one with a remote fault; the largest latency that passes and the next; one error too many. -/
theorem witness_LinksComeUpAndGoDown : run1.netOn = true ∧ ((portsAt .down net1).ports.get .xe).mode = .down ∧ (portsAt .down net1).mode ≠ .stopped ∧
    ((portsAt .down net1).ports.get .xe).heldDown = false ∧ ((portsAt .negotiating net1).ports.get .xe).mode = .negotiating ∧
    (pages.accepted = true ∧ pages.fullDuplex = true ∧ pages.remoteFault = 0) ∧ ({ pages with remoteFault := 1 } : BasePage).remoteFault ≠ 0 ∧
    ((portsAt .qualifying net1).ports.get .xe).mode = .qualifying ∧ run1.neighbourOk .xe (qualified 145 0) = true ∧
    (qualified 145 0).codeErrors + (qualified 145 0).prbsErrors ≤ run1.takeQualMax.inUse 0x0C04 ∧
    run1.latencyOk 145 = true ∧ run1.latencyOk 146 = false ∧ ¬ (qualified 145 1).codeErrors + (qualified 145 1).prbsErrors ≤ run1.takeQualMax.inUse 0x0C04 ∧
    (run1.net.ports.get .xe).mode = .up :=
  ⟨by decide, rfl, by decide, rfl, rfl, by decide, by decide, rfl, by decide, by decide, by decide, by decide, by decide, rfl⟩

/-- An imposition with an own static entry, one of node 6, and a dynamic identifier; node 5 is the cycle master and the referee too. -/
def net5 : Net :=
  { net1 with
    imp := some { imp1 with entryCount := 4, entries := [{ slot := 1, k := 1, f := 0, owner := 5, len := 16, flags := 6 },
      { slot := 2, k := 1, f := 0, owner := 6, len := 16, flags := 8 }, { slot := 1, k := 1, f := 0, owner := 5, len := 100, flags := 1 },
      { slot := 2, k := 1, f := 0, owner := 6, len := 100, flags := 1 }] },
    nodes := [{ id := 5, typ := 1, roles := 15, reserved := 0 }, { id := 6, typ := 1, roles := 2, reserved := 0 }] }

def seg : Segment :=
  { sender := 5, kind := 7, channel := 0, reset := false, last := true, dest := 6, tag := 0, index := 0, creditChannel := 0, creditValid := false, consumed := 0, detail := 0, data := [] }

/-- run1 on it, with a segment to send. -/
def run5 : State := { run1 with net := net5, bridge := { Bridge.reset with on := true, credits := [seg] } }

/-- A dynamic frame of node 6 under its identifier 2; ring X, east. -/
def frame6 : Frame :=
  { typ := 4, version := 1, flags := 8, slot := 2, sender := 6, length := 1, netCycle := 0, count := 0, phase := 0, tag := 0, payload := List.replicate 4 0,
    crc := BitVec.ofNat 32 (crc32c (List.replicate 4 0)), codeOk := true, window := some 514, dev := 0 }

/-- O40: what each clause asks. -/
theorem witness_FramesSentReceivedAndCompared : run5.netOn = true ∧ run5.net.mode = .running ∧ run5.net.sends = true ∧ run5.forme = some forme1 ∧
    forme1.usesSlot 1 = true ∧ (run5.net.ownEntry 1).isSome = true ∧ (run5.net.minislot ≤ 40 ∧ run5.net.imp.map (·.minislots) = some 40) ∧
    (run5.bridge.on = true ∧ run5.net.minislot ∈ run5.net.dynamicIds ∧ (run5.bridge.pick).isSome = true ∧ fitsSegment 40 1 (Segment.words seg) = true ∧
      fitsSegment 40 40 (Segment.words seg) = false) ∧ run1.bridge.on = false ∧
    ((run5.net.ports.get .xe).mode = .up ∧ (run5.net.ports.get .xe).joined = true ∧ run5.frameFail .xe frame6 = none ∧
      run5.frameFail .xe { frame6 with codeOk := false } = some 1 ∧ run5.frameFail .xe { frame6 with crc := 1 } = some 4) ∧
    (State.reset.net.ports.get .xe).mode ≠ .up ∧ (∃ n : Net, n = { net5 with mode := .links, self := 7 } ∧ ({ run5 with net := n } : State).isBypass = true) ∧
    (∃ n : Net, n = { net5 with mode := .listen } ∧ n.mode = .listen ∧
      ({ run5 with net := { n with nodes := [] } } : State).integrates { frame6 with typ := 1, slot := 1, sender := 5, flags := 1 } = true ∧
      ({ run5 with net := n } : State).integrates { frame6 with version := 2 } = false) ∧
    run5.usedCopies 1 = [] ∧
    (∃ n : Net, n = { net5 with copies := [(1, .xe, [1]), (1, .xw, [2])] } ∧ ({ run5 with net := n } : State).usedCopies 1 ≠ [] ) ∧
    run5.isDuplex = false ∧ (run5.isMaster = true ∧ run5.readsEntry 1 = true ∧ (run5.net.entries[1]?).isSome = true) ∧
    (∃ e : ImpEntry, e.k = 1 ∧ run5.lostDue e (Buffer.fresh 1) = false ∧ (Buffer.fresh 1).lost = false ∧
      ({ run5 with net := { net5 with sinceRun := 13 } } : State).lostDue e (Buffer.fresh 1) = true) :=
  ⟨by decide, by decide, by decide, by decide, by decide, by decide, by decide, by decide, by decide, by decide +kernel, by decide, ⟨_, rfl, by decide⟩,
    ⟨_, rfl, rfl, by decide +kernel, by decide +kernel⟩, by decide, ⟨_, rfl, by decide⟩, by decide, by decide,
    ⟨{ slot := 2, k := 1, f := 0, owner := 6, len := 16, flags := 8 }, by decide, by decide, by decide, by decide⟩⟩

/-- O41: the network in each mode with each clause's condition at its boundary. -/
theorem witness_ClusterStartsAndStaysInTime : run5.netOn = true ∧ run5.net.mode = .running ∧ (net5.kern []).isSome = true ∧
    ({ net1 with mode := .integrate } : Net).kern [] = none ∧ ({ net1 with silent := 2, self := 6 } : Net).isSync 6 = false ∧
    (∃ k : Net, ({ net5 with nodes := net5.nodes ++ [{ id := 8, typ := 1, roles := 1, reserved := 0 }], arrivals := [(8, 500)] } : Net).kern [] = some k ∧ 116 < k.dev) ∧
    (run5.net.ports.get .xe).tripped = false ∧
    (∃ n : Net, n = { net5 with mode := .listen, waited := 2 } ∧ n.roles.testBit 1 = true ∧ ({ run5 with net := n } : State).listenCycles ≤ n.waited) ∧
    (∃ n : Net, n = { net5 with mode := .coldstart, coldSent := 2 } ∧ 4 < n.self ∧ n.coldSent < 3 ∧
      (n.entries.find? (fun r => r.owner == n.self && r.flags % 2 == 0 && r.flags.testBit 2 && r.k == 1)).isSome = true) ∧
    (∃ n : Net, n = { net5 with mode := .coldstart, coldSent := 3 } ∧ 3 ≤ n.coldSent) ∧
    (∃ n : Net, n = { net5 with mode := .backoff, waited := 6 } ∧ n.self % 16 + 1 ≤ n.waited) ∧
    (∃ n : Net, n = { net5 with mode := .integrate, good := 2 } ∧ 2 ≤ n.good) :=
  ⟨by decide, by decide, by decide, by decide, by decide, ⟨_, rfl, by decide⟩, by decide, ⟨_, rfl, by decide, by decide⟩, ⟨_, rfl, by decide, by decide, by decide⟩,
    ⟨_, rfl, by decide⟩, ⟨_, rfl, by decide⟩, ⟨_, rfl, by decide⟩⟩

/-- O42: each command is accepted; the network stopped and not; net.stop allowed and not. -/
theorem witness_NetworkCommandsAnswer : (∀ op n, ∃ u o, run1.accepts op n true (mail [1]) u o) ∧ Entry.size (mail [1]) 1 = true ∧ run1.net.mode ≠ .stopped ∧
    (withNet { net1 with mode := .stopped }).net.engineBad = false ∧ run1.power.netDown = false ∧ run1.netStops = true ∧
    ({ run1 with life := { Life.reset with state := .operation } } : State).netStops = false :=
  ⟨fun _ _ => ⟨_, _, mail_accepted rfl rfl (by decide) _ _ _⟩, by decide, by decide, by decide, by decide, by decide, by decide⟩

/-- A train vehicle whose network has the mode, with the ports of both ends or of end 1 alone up. -/
def train1 (mode : NetMode) (both : Bool) (t : Train) : State :=
  { run1 with
    lanes := .all { lane1 with
      slot0 := { slot1 with forme := some { forme1 with header := { forme1.header with personality := 2 } } },
      core := { LaneCore.empty with train := { TrainMem.empty with claim := some (1, 1, 2, 1), everPassed := false, fails := 0 } } },
    net := { net1 with
      mode := mode,
      ports := { xe := net1.ports.xe, xw := if both then net1.ports.xw else .reset, ye := net1.ports.ye, yw := if both then net1.ports.yw else .reset } },
    train := t }

/-- O43: what each clause asks: an end that changed, a STOP frame newer by 1 and by 32 767, the attempt that runs without lists, one that failed. -/
theorem witness_AttemptsBeginAndFail : (train1 .running true .reset).inaugurates = true ∧
    (train1 .running true .reset).coupledEnd 1 ≠ Train.reset.seen 1 ∧ (train1 .running true { Train.reset with coupled1 := true }).coupledEnd 1 = true ∧
    (∃ fr m, fr = inaugFrame .xe (stopBytes { cause := 1, attempt := 32767 }) ∧ stopOf fr.payload = some m ∧ m.attempt = 32767 ∧
      (train1 .running true .reset).inaugFail .xe fr true = none ∧ (train1 .running true .reset).inaugFail .xe { fr with codeOk := false } true = some 1) ∧
    (train1 .inaugurating true { Train.reset with state := 1 }).train.lists = none ∧
    (train1 .running false .reset).lineOfOne = false ∧ (train1 .running false .reset).lineEnd = some 1 ∧ causeNoAgree ≠ causeProof ∧
    (train1 .running true .reset).serves = true ∧ (∃ u o, (train1 .running true .reset).accepts 0x0D03 true true (mail []) u o) :=
  ⟨by decide, by decide, by decide, ⟨_, _, rfl, rfl, by decide +kernel, by decide +kernel, by decide⟩, by decide, by decide, by decide, by decide, by decide,
    ⟨_, _, mail_accepted rfl rfl (by decide) _ _ _⟩⟩

def vehicle (n coupled : Nat) : SweepEntry := { vehicle := n, flags := 0, facing := 2, coupled := coupled }

/-- The line of two vehicles as both its ends give it, on ring X. -/
def heard2 : List (Nat × SweepMsg) :=
  [(0, { overflow := false, attempt := 1, entries := [vehicle 0 2, vehicle 9 1] }),
   (0, { overflow := false, attempt := 1, entries := reverseList [vehicle 0 2, vehicle 9 1] })]

/-- O44: what each clause asks. -/
theorem witness_SweepsMakeTheLine : ∃ s : State, s = train1 .inaugurating false { Train.reset with state := 1, attempt := 1, sweeps := 2 } ∧
    s.lineEnd = some 1 ∧ s.discovering = true ∧ s.train.sweeps < 3 ∧ s.inaugurates = true ∧ (s.net.ports.get .xe).mode = .up ∧
    (∃ m fr, m = ({ overflow := false, attempt := 1, entries := [vehicle 9 1] } : SweepMsg) ∧ fr = inaugFrame .xe (sweepBytes 2 m) ∧
      s.inaugFail .xe fr false = none ∧ sweepOf 2 fr.payload = some m ∧ sweepOf 3 (sweepBytes 3 m) = some m ∧ s.inaugFail .xe { fr with version := 2 } false = some 3) ∧
    s.coupledEnd (3 - portEnd .xe) = false ∧ (train1 .inaugurating true { Train.reset with state := 1 }).coupledEnd (3 - portEnd .xe) = true ∧
    s.train.lists = none ∧
    (∃ l r f i, ({ Train.reset with results := heard2 } : Train).lists = some l ∧ propose l = .line r f ∧ lineNumber r f s.vehicle = some i ∧
      (derivedImposition r.length).timingOk 1000000 = true ∧ (derivedImposition r.length).rulesOk (derivedNodes r.length) [0] = true) ∧
    (∃ c, propose { overflow := true, attempt := 1, entries := [vehicle 0 2] } = .fail c) ∧
    s.laneIn .a = true ∧ ((s.lanes.get .a).forme.map (·.header.personality)) = some 2 ∧ (s.lanes.get .a).core.train.claim.isSome = true ∧
    trainRequest true 100 = true ∧ s.isTrain = true ∧ run1.isTrain = false :=
  ⟨_, rfl, by decide, by decide, by decide, by decide, by decide, ⟨_, _, rfl, rfl, by decide +kernel, by decide +kernel, by decide +kernel, by decide +kernel⟩,
    by decide, by decide, by decide, ⟨_, _, _, _, rfl, rfl, rfl, by decide +kernel, by decide +kernel⟩, ⟨_, rfl⟩, by decide, by decide, by decide, by decide,
    by decide, by decide⟩

/-- A word of set 0xA, tag 0. -/
def coded (x id kind : Nat) : Word64 := (encode x id 0 kind 0xA).getD 0

def heard (entry : Nat) (words : List Word64) : Buffer := { entry := entry, words := words, age := 0, refreshed := true, lost := false }

/-- Member 0 (node 5, the referee too) and member 1 (node 6) of a pair whose heartbeats and mark were heard in the present network cycle. -/
def dup1 (d : Duplex) : State :=
  { keys1 with
    lanes := .all { lane1 with slot0 := { slot1 with forme := some { forme1 with header := { forme1.header with duplex := 1 } } } },
    net := { net1 with
      imp := some { imp1 with entryCount := 2, entries := [{ slot := 1, k := 1, f := 0, owner := 5, len := 16, flags := 8 },
        { slot := 2, k := 1, f := 0, owner := 6, len := 16, flags := 8 }] },
      nodes := [{ id := 5, typ := 1, roles := 15, reserved := 0 }, { id := 6, typ := 1, roles := 2, reserved := 0 }],
      buffers := [heard 0 [coded 1 0x7430 3, coded 9 0x7431 2], heard 1 [coded 5 0x7428 1]] },
    duplex := d }

/-- The referee's view: the holder, and the heartbeat words and missed beats of the members. -/
def beats (holder hb0 miss0 hb1 miss1 : Nat) : Duplex :=
  { Duplex.reset with holder := holder, hb0 := hb0, miss0 := miss0, hb1 := hb1, miss1 := miss1 }

/-- O45: each clause of the referee's decision; the mark; no holder for 19 and for 20 cycles; a yield of 99 and of 100; the switch-back taken, its token
naming the partner or not, and not taken. -/
theorem witness_DuplexMarkAndTakeOver : (dup1 .reset).netOn = true ∧ (dup1 .reset).net.mode = .running ∧ (dup1 .reset).net.roles.testBit 3 = true ∧
    ((beats 1 5 2 5 0).holder ≠ 0 ∧ (beats 1 5 2 5 0).miss 1 < 3 ∧ member ((beats 1 5 2 5 0).hb 1) 0 = true ∧ member ((beats 1 5 2 5 0).hb 1) 3 = false ∧
      (beats 1 13 0 5 1).fit 2 = false) ∧
    (∀ d ∈ [beats 1 5 3 5 0, beats 1 4 0 5 0, beats 1 13 0 5 0], d.holder = 3 - 2 ∧ d.fit 2 = true ∧
      (3 ≤ d.miss d.holder ∨ member (d.hb d.holder) 0 = false ∨ member (d.hb d.holder) 3 = true)) ∧
    ((beats 2 0 0 5 3).fit 1 = false ∧ 3 ≤ (beats 2 0 0 5 3).miss 2) ∧
    ((beats 0 5 0 5 0).fit 1 = true ∧ (beats 0 0 0 5 0).fit 1 = false ∧ (beats 0 0 0 5 0).fit 2 = true ∧ (beats 0 0 0 0 0).fit 2 = false) ∧
    (∃ d0 : Duplex, (dup1 d0).duplex.note ((dup1 d0).heartbeat 0) ((dup1 d0).heartbeat 1) = beats 1 0 0 5 0) ∧
    ((dup1 .reset).isDuplex = true ∧ (dup1 .reset).markHeard = some (1, 9) ∧ (dup1 .reset).duplex.ready = false ∧ (dup1 .reset).duplex.commanding = false) ∧
    19 < 20 ∧ startPasses facts0 0x40 = true ∧ 99 < 100 ∧ run1.isDuplex = false ∧
    (∃ d b, d = { Duplex.reset with commanding := true } ∧ b = token 7 3 0 1 (leBytes 2 6 ++ leBytes 2 0) ∧ (dup1 d).maySwitchBack = true ∧
      tokSized b = true ∧ (dup1 d).tokenFail [0x07] b (sign 3) = 0 ∧ fieldAt (tokBody b) 0 2 = (dup1 d).partnerId ∧
      fieldAt (tokBody (token 7 3 0 1 (leBytes 2 7 ++ leBytes 2 0))) 0 2 ≠ (dup1 d).partnerId ∧ ∃ u o, (dup1 d).accepts 0x0E02 true true (mail b) u o) ∧
    (dup1 .reset).maySwitchBack = false ∧ ∃ u o, (dup1 .reset).accepts 0x0E01 false true (mail []) u o :=
  ⟨by decide, by decide, by decide, by decide, by decide, by decide, by decide, ⟨beats 1 5 2 0 0, by decide +kernel⟩, by decide +kernel,
    by decide, by decide, by decide, by decide,
    ⟨_, _, rfl, rfl, by decide +kernel, by decide +kernel, by decide +kernel, by decide +kernel, by decide +kernel,
      ⟨_, _, mail_accepted rfl rfl (by decide +kernel) _ _ _⟩⟩,
    by decide, _, _, mail_accepted rfl rfl (by decide) _ _ _⟩

/-- O46: the seven rows with payloads of their size; requests are open, not open, and open for a cancel alone; 255 and 256 slots are taken. -/
theorem witness_OperatorRequestsTakeSlots : (∀ op, ∃ u o, run1.accepts op true true (mail [1, 0, 2, 0]) u o) ∧ Entry.size (mail [1, 0, 2, 0]) 4 = true ∧
    Entry.size (mail [1, 0, 2]) 3 = true ∧ Entry.size (mail [1, 0]) 2 = true ∧
    (run1.life.state = .commissioning ∧ run1.forme.isSome = true ∧ run1.standsBy = false ∧ run1.platen.safe = false ∧ run1.xchg.state = .idle ∧
      ∀ k, run1.req.clashes k = false) ∧
    (dup1 .reset).standsBy = true ∧ (∃ x : Xchg, x.state = .prepared ∧ x.state ≠ .committing) ∧
    (∃ r : Requests, r = { Requests.reset with slots := (List.range 255).map (fun n => (n, .block n)) } ∧ r.taken < 256 ∧ r.clashes (.block 255) = false) ∧
    (∃ r : Requests, r = { Requests.reset with slots := (List.range 256).map (fun n => (n, .block n)) } ∧ 256 ≤ r.taken ∧ r.clashes (.block 256) = false ∧
      r.clashes (.block 255) = true) :=
  ⟨fun _ => ⟨_, _, mail_accepted rfl rfl (by decide) _ _ _⟩, by decide, by decide, by decide,
    ⟨by decide, by decide, by decide, by decide, by decide, fun k => by cases k <;> rfl⟩, by decide, ⟨{ Xchg.reset with state := .prepared }, rfl, by decide⟩,
    ⟨_, rfl, by decide +kernel, by decide +kernel⟩, ⟨_, rfl, by decide +kernel, by decide +kernel, by decide +kernel⟩⟩

/-- The colophon of an image of the type, with that digest. -/
def colophon1 (typ : Nat) (d : Digest) : Colophon :=
  { bytes := [], typ := typ, version := 1, rollback := 0, length := 12360, chunks := 1, installation := 0, digest := d, format := 0,
    helfinor := sign 1, approval := sign 2 }

/-- keys1 with a verified forme image in the free NAND slot. -/
def waiting1 (d : Digest) (x : Xchg) : State :=
  { keys1 with update := Update.reset.setNand 2 1 { verified := true, colophon := some (colophon1 2 d), chunks := [] }, xchg := x }

/-- The least forme passes the load checks under its own digest. -/
theorem least_loads (x : Xchg) :
    (waiting1 (imageDigest least) x).loadFail least (imageDigest least) 0 (sign 1) (sign 2) 1000000 (some 1) = none := by
  have h (k : KeyBits) (hk : k ≠ 0) : (waiting1 (imageDigest least) x).verifies k (sign k) = true := by
    simp only [State.verifies, sign, beq_self_eq_true, Bool.true_and, bne_iff_ne, ne_eq, hk, not_false_eq_true, Bool.and_eq_true]
    exact ⟨trivial, rfl⟩
  have h1 : (1 : KeyBits) ≠ 0 := by decide +kernel
  have h2 : (2 : KeyBits) ≠ 0 := by decide +kernel
  unfold State.loadFail
  rw [show (waiting1 (imageDigest least) x).ident.rootKey = 1 from rfl, show (waiting1 (imageDigest least) x).life.authority = 2 from rfl,
    show (waiting1 (imageDigest least) x).life.installation = 0 from rfl, h 1 h1, h 2 h2, if_neg (by decide), if_neg (by decide), if_neg (by decide +kernel),
    if_neg (by simp)]
  exact test_least_forme_loads

/-- It fails the first when its signature does not verify. -/
theorem least_unsigned (x : Xchg) (d : Digest) :
    (waiting1 d x).loadFail least d 0 { sign 1 with ok := false } (sign 2) 1000000 (some 1) = some { status := .auth, reason := 0x01 } := by
  unfold State.loadFail
  rw [if_pos (by simp [State.verifies])]

theorem waiting1_nand (d : Digest) (x : Xchg) :
    (waiting1 d x).waitingNand = some { verified := true, colophon := some (colophon1 2 d), chunks := [] } := rfl

/-- O47: a digest that waits and one that does not, in each state of an exchange; a load that passes, and one that fails its first check; formes that can be
exchanged and a pair that cannot; targets below, at and above the bounds; a duplex member. -/
theorem witness_ExchangePreparesAndCommits : (∀ op m, ∃ u o, run1.accepts op m true (mail (List.replicate 64 0)) u o) ∧
    Entry.size (mail (List.replicate 64 0)) 64 = true ∧ Entry.size (mail (List.replicate 64 0)) 4 = true ∧ run1.serves = true ∧ State.reset.serves = false ∧
    (∃ x : Xchg, x = { Xchg.reset with state := .loading, loading := true } ∧ x.state = .loading ∧ x.loading = true) ∧
    ((waiting1 0 .reset).lanesSlot = some 0 ∧ (waiting1 0 .reset).digestWaits (digestAt (Entry.body (mail (List.replicate 64 0))) 0) = true ∧
      run1.digestWaits 0 = false ∧ (waiting1 0 .reset).inaugurating = false ∧ (∀ l, run1.platen.lanes.get l ≠ .isolated) ∧ run1.proofs.running.map (·.2) ≠ some 2) ∧
    (∃ s nand c, s = waiting1 (imageDigest least) { Xchg.reset with state := .loading, loading := true } ∧ s.power.running = true ∧
      s.waitingNand = some nand ∧ nand.colophon = some c ∧ s.laneIn .a = true ∧
      s.loadFail least c.digest c.installation (sign 1) (sign 2) s.net.cycleNs (some s.personality) = none ∧
      ∃ x, s.loadFail least c.digest c.installation { sign 1 with ok := false } (sign 2) s.net.cycleNs (some s.personality) = some x) ∧
    (∀ l b, (l, b) ∈ [(LaneId.a, false)] → b = false) ∧
    (∃ s : State, s = { run1 with xchg := { Xchg.reset with state := .loading }, lanes := .all { lane1 with slot1 := { slot1 with state := .loaded } } } ∧
      s.exchangePair = some (forme1, forme1) ∧ forme1.exchangeFail forme1 (s.exchangeBound forme1 forme1) = none ∧
      ∃ f x, forme1.exchangeFail f 0 = some x) ∧
    (∃ x : Xchg, x = { Xchg.reset with state := .prepared } ∧ ({ run1 with xchg := x } : State).isDuplex = false ∧ run1.net.count + 2 ≤ 2 ∧ 1 < run1.net.count + 2 ∧
      run1.net.count + 6000 < 6001) ∧ (dup1 .reset).isDuplex = true ∧ (dup1 .reset).standbyPrepared = false :=
  ⟨fun _ _ => ⟨_, _, mail_accepted rfl rfl (by decide) _ _ _⟩, by decide +kernel, by decide +kernel, by decide, by decide, ⟨_, rfl, rfl, rfl⟩,
    ⟨by decide +kernel, by decide +kernel, by decide +kernel, by decide +kernel, by intro l; cases l <;> decide, by decide⟩,
    ⟨_, _, _, rfl, rfl, waiting1_nand _ _, rfl, rfl, least_loads _, _, least_unsigned _ _⟩,
    by intro l b h; simp at h; exact h.2, ⟨_, rfl, by decide +kernel, by decide +kernel, { forme1 with header := { forme1.header with personality := 2 } }, _, rfl⟩,
    ⟨_, rfl, by decide, by decide, by decide, by decide⟩, by decide, by decide +kernel⟩

/-- An entry of path 2, kind 1 for identity 12 and its token; a block clear of output 0 and its token. -/
def forceBytes : List Byte := leBytes 2 12 ++ [1, 2, 0, 0] ++ leBytes 4 0xFFFF
def forceToken : List Byte := token 5 3 0 1 (forceBytes ++ leBytes 2 0 ++ digestBytes 7)
def clearToken (i : Nat) : List Byte := token 6 3 0 1 (leBytes 1 1 ++ leBytes 1 i ++ leBytes 2 0)

/-- O48: a force of each kind with and without its token, taken and not; a vital entry and none; a block clear whose token names it and one whose does not;
no slot free; a motion and a guard function, with copies and before the first. -/
theorem witness_ForcesBlocksAndFunctions : keys1.forme = some forme1 ∧ keys1.takesForces = true ∧ State.reset.takesForces = false ∧
    (∀ op n b, b.length ≤ 4000 → ∃ u o, keys1.accepts op n true (mail b) u o) ∧ (forceBytes ++ forceToken).length ≤ 4000 ∧
    forceBytes.length = 10 ∧ forme1.forceVital (forceOfEntry forceBytes).path 12 = true ∧ forme1.forceVital 1 12 = false ∧
    (forceBytes ++ forceToken).drop 10 = forceToken ∧ tokSized forceToken = true ∧ keys1.tokenFail [0x05] forceToken (sign 3) = 0 ∧
    keys1.forceNamed (forceBytes ++ forceToken) forceToken = true ∧ keys1.forceNamed ([0, 0] ++ forceToken) forceToken = false ∧
    keys1.life.state = .commissioning ∧ keys1.forceIsVital 0 = false ∧
    (∃ core, core = { LaneCore.empty with frisket := [{ forceOfEntry forceBytes with flags := 1 }] } ∧ (run2 2 3 core).forceIsVital 0 = true) ∧
    run1.standsBy = false ∧ (dup1 .reset).standsBy = true ∧
    (keys1.clearTarget ([1, 0] ++ clearToken 0) = (1, 0) ∧ keys1.clearTarget [2, 4] = (2, 4) ∧ ([1, 0] ++ clearToken 0).drop 2 = clearToken 0 ∧
      tokSized (clearToken 0) = true ∧ keys1.tokenFail [0x06] (clearToken 0) (sign 3) = 0 ∧ fieldAt (tokBody (clearToken 0)) 0 1 = 1 ∧
      fieldAt (tokBody (clearToken 0)) 1 1 = 0 ∧ fieldAt (tokBody (clearToken 1)) 1 1 ≠ 0 ∧ keys1.req.clashes (.blockClear 1 0) = false ∧
      ({ Requests.reset with slots := [(0, .blockClear 1 0)] } : Requests).clashes (.blockClear 1 0) = true) ∧
    (∃ f, f = forme2 2 3 ∧ (run2 2 3 .empty).forme = some f ∧ f.funcNo (Entry.field (mail [13, 0]) 0 2) = some 0 ∧ f.funcs[0]? = some (func2 3) ∧
      ¬ 0x10 ≤ (func2 3).typ ∧ 0x10 ≤ (func2 0x12).typ ∧ f.funcNo 14 = none ∧ (run2 2 3 .empty).req.copies = none) ∧
    ∃ r : Requests, r = { Requests.reset with copies := some { cycle := 1, lane := .a, galleys := .all [], store := [], shadow := [], bounds := [] } } ∧
      r.copies.isSome = true :=
  ⟨by decide, by decide, by decide, fun _ _ _ h => ⟨_, _, mail_accepted rfl rfl h _ _ _⟩, by decide +kernel, by decide +kernel, by decide +kernel,
    by decide +kernel, by decide +kernel, by decide +kernel, by decide +kernel, by decide +kernel, by decide +kernel, rfl, by decide +kernel,
    ⟨_, rfl, by decide +kernel⟩, by decide, by decide, by decide +kernel, ⟨_, rfl, by decide, by decide +kernel, by decide +kernel, by decide, by decide,
      by decide +kernel, rfl⟩, ⟨_, rfl, rfl⟩⟩

/-- A session that is open or pending. -/
def session1 (num : Nat) (opened : Bool) : Session :=
  { num := num, udp := false, key := 0, opened := opened, nonce := 0, srcAddr := 0, srcPort := 0 }

/-- O49: sessions 1 and 2 with 2 pending, a key that verifies; four sessions; a transport locked and not, after four failures; no crypto block. -/
theorem witness_SessionsOpenAndClose : (∀ op n m b, b.length ≤ 4000 → ∃ u o, run1.accepts op n m (mail b) u o) ∧
    Entry.size (mail (leBytes 4 0)) 4 = true ∧ Entry.size (mail (leBytes 2 2 ++ List.replicate 116 0)) 118 = true ∧
    (run1.host.locked false = false ∧ ({ link1 with lockPcie := true } : HostLink).locked false = true ∧
      4 ≤ ({ link1 with authRunPcie := 4 } : HostLink).authRun false) ∧
    run1.power.cryptoDown = false ∧ ({ run1 with power := { power1 with cryptoDown := true } } : State).power.cryptoDown = true ∧
    run1.host.sessions.length < 4 ∧ 4 ≤ ((List.range 4).map (fun n => session1 (n + 1) true)).length ∧
    (∃ s : State, s = { keys1 with host := { link1 with sessions := [session1 1 true, session1 2 false] }, life := { keys1.life with host := List.replicate 8 4 } } ∧
      s.pendingFor (mail (leBytes 2 2)) = some (session1 2 false) ∧ s.pendingFor (mail (leBytes 2 1)) = none ∧
      s.verifies (nthD s.life.host 0 0) (sign 4) = true ∧ s.verifies (nthD s.life.host 0 0) (sign 5) = false) ∧
    run1.host.stewardUp = true ∧ (∃ o y, o = outstandingOf 0x0F03 (mail []) none ∧ y ∈ run1.host.sessions ∧ y.num = o.session) :=
  ⟨fun _ _ _ _ h => ⟨_, _, mail_accepted rfl rfl h _ _ _⟩, by decide, by decide +kernel, by decide, rfl, rfl, by decide, by decide,
    ⟨_, rfl, by decide +kernel, by decide +kernel, by decide +kernel, by decide +kernel⟩, rfl, _, _, rfl, List.mem_singleton_self _, rfl⟩

/-- O50: a context of the session; the number of none; the values at the ends of a 64-bit register. -/
theorem witness_CrcContextsRunAndClose : (∀ op n m, ∃ u o, run1.accepts op n m (mail (List.replicate 9 0)) u o) ∧
    Entry.size (mail (List.replicate 9 0)) 9 = true ∧ run1.crc.length < 64 ∧
    (∃ (s : State) (o : Outstanding) (c : CrcContext), c = { num := 0, poly := 3, raw := crcOnes 3, bytes := 0, session := 1 } ∧ s = { run1 with crc := [c] } ∧
      o.session = 1 ∧ s.context o 0 = some c ∧ (∀ d ∈ s.crc, ¬ (d.num = 1 ∧ d.session = o.session))) ∧
    crcOnes 3 = 18446744073709551615 ∧ crcOnes 0 < crcOnes 3 :=
  ⟨fun _ _ _ => ⟨_, _, mail_accepted rfl rfl (by decide) _ _ _⟩, by decide +kernel, by decide,
    ⟨_, outstandingOf 0x1102 (mail []) none, _, rfl, rfl, rfl, by decide +kernel, by decide⟩, by decide +kernel, by decide +kernel⟩

/-- O51: all 64 contexts are open. -/
theorem witness_SixtyFifthContextRefused : ∃ s : State, s = { run1 with crc := (List.range 64).map (fun k => { num := k, poly := 0, raw := 0, bytes := 0, session := 1 }) } ∧
    (∃ u o, s.accepts 0x1101 true true (mail [0]) u o) ∧ Entry.size (mail [0]) 1 = true ∧ (∀ k, k < 64 → ∃ d ∈ s.crc, d.num = k) :=
  ⟨_, rfl, ⟨_, _, mail_accepted rfl rfl (by decide) _ _ _⟩, by decide, fun k h => ⟨_, List.mem_map.2 ⟨k, List.mem_range.2 h, rfl⟩, rfl⟩⟩

/-- O52: a queue of each kind, indices at the ends of the free and used space, an unknown opcode; a response queue with room and without, stalled and not. -/
theorem witness_QueueRegistersChecked : run1.power.running = true ∧ 63 < run1.host.queues.length ∧
    (portQueue 0 = false ∧ hostProducer 0 = true ∧ (busy.prod + 63 + 65536 - busy.prod % 65536) % 65536 ≤ busy.depth - busy.used ∧
      ¬ (busy.prod + 64 + 65536 - busy.prod % 65536) % 65536 ≤ busy.depth - busy.used) ∧
    (0xFF ∉ knownOpcodes ∧ ∃ u, exec (.qProdWrite 0 1 []) run1 = .next u ∧ u.vet 0xFF false false { mail [] with session := 0 } = .accept) ∧
    (portQueue 16 = false ∧ hostProducer 16 = false ∧ hostProducer 63 = false ∧ (1 + 65536 - busy.cons % 65536) % 65536 ≤ busy.used ∧
      ¬ (2 + 65536 - busy.cons % 65536) % 65536 ≤ busy.used) ∧
    (busy.enabled = true ∧ Queue.reset.enabled = false ∧ (0x80000416 : Word32).getLsbD 31 = true ∧ (0x416 : Word32).getLsbD 31 = false) ∧ portQueue 15 = true ∧
    (Entry.udp (mail []) = false ∧ run1.fetchable 0 (mail []) = true ∧ run1.responseFull (mail []) = false ∧
      ∃ h : HostLink, h = { link1 with queues := setNth link1.queues 16 { clear with prod := 64 } } ∧ ({ run1 with host := h } : State).fetchable 0 (mail []) = true ∧
        ({ run1 with host := h } : State).responseFull (mail []) = true ∧ (h.queue 0).stalled = false ∧ ({ busy with stalled := true } : Queue).stalled = true) :=
  ⟨rfl, by decide, by decide, ⟨by decide, _, rfl, by decide +kernel⟩, by decide, by decide, by decide, by decide, by decide, by decide, _, rfl, by decide, by decide,
    by decide, by decide⟩

/-- O53: registers at the ends of each block, with the window open and closed; a vector that is pending and one that is not. -/
theorem witness_RegistersAndFunction : run1.power.running = true ∧ (State.reset.host.window = false ∧ 0x8000 ≤ 0x8000) ∧ run1.host.window = true ∧
    (implemented true 0x18 = false ∧ implemented true 0x101C = true ∧ implemented true 0x1024 = true ∧ implemented true 0x84FC = true ∧
      implemented true 0x8500 = false ∧ implemented true 0xFC4 = true) ∧ (15 % 16 = 15 ∧ 14 % 16 ≠ 15 ∧ 254 % 256 ≠ 255) ∧
    (portQueue (0x3C0 / 0x40) = true ∧ (run1.host.queue 0).enabled = true ∧ 0x3C4 % 0x40 < 8) ∧ run1.power.netDown = false ∧
    (31 < 32 ∧ 31 ∈ ({ link1 with pba := [31] } : HostLink).pba ∧ 31 ∉ link1.pba) :=
  ⟨rfl, by decide, by decide, by decide, by decide, by decide, rfl, by decide⟩

/-- run1 with an open UDP session and a response it sent. -/
def udp1 : State :=
  { run1 with host := { link1 with
      sessions := [{ session1 1 true with udp := true }],
      udpSent := [{ session := 1, tag := 1, entry := { op := 0, tag := 1, flags := 0, origin := 15, session := 1, status := .done, detail := 0, cycle := 0, payload := [], crc := 0 } }] } }

/-- O54: datagrams of each kind; parameter lists of one entry and of 339, known, unknown, writable and read-only. -/
theorem witness_PortAndSystemCommands : udp1.power.running = true ∧ udp1.host.j1Up = true ∧ udp1.host.stewardUp = true ∧
    (∃ f x, f = { mail [] with queue := 15 } ∧ 20 = f.length + 20 ∧ udp1.host.sessionOk f = true ∧ x ∈ udp1.host.udpSent ∧ x.session = f.session ∧ x.tag = f.tag ∧
      (∀ y ∈ udp1.host.udpSent, y.session = f.session → y.tag = f.tag → y = x) ∧ Entry.crcOk f = true) ∧
    (∀ y ∈ udp1.host.udpSent, ¬ (y.session = 1 ∧ y.tag = 2)) ∧ 0xFF ∉ knownOpcodes ∧ 0x0304 ∈ knownOpcodes ∧
    (∀ op n m b, b.length ≤ 4000 → ∃ u o, run1.accepts op n m (mail b) u o) ∧
    (∃ e, e = mail (leBytes 2 1 ++ leBytes 2 0 ++ leBytes 2 0x0501 ++ leBytes 10 0) ∧ Entry.field e 0 2 = 1 ∧ (Entry.body e).length = 4 + 12 * 1 ∧
      (run1.param (paramId e 0)).isSome = true ∧ (writableParam (paramId e 0)).isSome = true) ∧
    (∃ e, e = mail (leBytes 2 1 ++ leBytes 2 0 ++ leBytes 2 0xFFFF ++ leBytes 10 0) ∧ run1.param (paramId e 0) = none ∧ writableParam (paramId e 0) = none) ∧
    4 + 12 * 339 ≤ 4080 ∧ Entry.field (mail (leBytes 2 340)) 0 2 = 340 :=
  ⟨rfl, rfl, rfl, ⟨_, _, rfl, rfl, by decide, List.mem_singleton_self _, rfl, rfl, fun y h _ _ => List.mem_singleton.1 h, by decide +kernel⟩,
    by decide, by decide, by decide, fun _ _ _ _ h => ⟨_, _, mail_accepted rfl rfl h _ _ _⟩, ⟨_, rfl, by decide +kernel, by decide +kernel, by decide +kernel, by decide +kernel⟩,
    ⟨_, rfl, by decide +kernel, by decide +kernel⟩, by decide, by decide⟩

/-- A parameter with one value stored and in use. -/
def param1 (id v : Nat) : ParamCell := { id := id, stored := v, inUse := v }

/-- run5 with peer 6 on channels 0 and 6, port 0 in mode 1 and port 1 in mode 2 towards node 6, and node 6 polled; queues 48 and 56 are enabled. -/
def tunnel1 (b : Bridge) : State :=
  { run5 with params := [param1 0x1006 1, param1 0x1007 2, param1 0x1009 6, param1 0x1010 6, param1 0x1070 6, param1 0x1080 6, param1 0x2C00 6], bridge := b }

def bridge1 : Bridge := { Bridge.reset with on := true }

/-- An entry of the type with the payload and its CRC. -/
def tunnelEntry1 (typ peer : Nat) (p : List Byte) : TunnelEntry :=
  { tunnel0 with typ := typ, length := p.length, peer := peer, payload := p, crc := BitVec.ofNat 32 (crc32c p) }

theorem tunnel_passes {typ peer : Nat} {p : List Byte} (hn : p.length ≤ 2000) (hl : tunnelLength typ p.length = true) (h1 : typ ≠ 0) (h4 : typ ≤ 4)
    (hp : peer = 6 ∨ (peer = 0xFFFF ∧ typ = 1)) : (tunnel1 bridge1).tunnelFail 0 (tunnelEntry1 typ peer p) = 0 := by
  have hq : ((tunnel1 bridge1).host.queue 48).entryBytes = 4160 := by decide
  have hm : (tunnel1 bridge1).peers 0 = [6] := by decide +kernel
  have hc : (tunnelEntry1 typ peer p).crc.toNat = crc32c p := (BitVec.toNat_ofNat ..).trans (Nat.mod_eq_of_lt (crc32c_lt p))
  have ha : (tunnelEntry1 typ peer p).length = p.length := rfl
  have hb : (tunnelEntry1 typ peer p).payload = p := rfl
  unfold State.tunnelFail
  rw [show 48 + 0 = 48 from rfl, hq, hm, hc, ha, hb, if_neg (by omega), if_neg (by simp [tunnelEntry1, hl]), if_neg (by simp [tunnelEntry1, h1]; omega),
    if_neg (by rcases hp with rfl | ⟨rfl, rfl⟩ <;> simp [tunnelEntry1]), if_neg (by decide)]

def txn (n : Nat) (isRead : Bool) : Txn := { tag := n, channel := 0, peer := 6, addr := 0, isRead := isRead }

/-- O55: an imposition with and without a dynamic identifier; a poll and none; an entry of each type that passes, one that fails each check; 255 and 256
transactions; a paused queue. -/
theorem witness_BridgeCommandsAndTransmitEntries : (∀ op m, ∃ u o, (tunnel1 bridge1).accepts op m true (mail (leBytes 2 6)) u o) ∧
    Entry.size (mail (leBytes 2 6)) 2 = true ∧ run1.net.dynamicIds = [] ∧ (tunnel1 bridge1).net.dynamicIds ≠ [] ∧
    ((tunnel1 bridge1).inUse 0x2C00 = 6 ∧ ∀ k, k < 64 → (tunnel1 bridge1).inUse (0x2C00 + k) ≠ 7) ∧
    ((tunnel1 bridge1).netOn = true ∧ (tunnel1 bridge1).host.moves 48 = true ∧ ((tunnel1 bridge1).host.queue 48).used ≠ 0) ∧
    ((∀ k, (tunnel1 bridge1).tunnelFail 0 (tunnelEntry1 1 0xFFFF (List.replicate 60 k)) = 0) ∧ (tunnel1 bridge1).tunnelFail 0 (tunnelEntry1 2 6 [0]) = 0 ∧
      (tunnel1 bridge1).tunnelFail 0 (tunnelEntry1 3 6 [0, 0, 0, 0]) = 0 ∧ (∀ k, (tunnel1 bridge1).tunnelFail 0 (tunnelEntry1 4 6 (List.replicate 1004 k)) = 0)) ∧
    ((tunnel1 bridge1).tunnelFail 0 { tunnelEntry1 2 6 [0] with crc := 0 } = 1 ∧ (tunnel1 bridge1).tunnelFail 0 (tunnelEntry1 3 6 [0]) = 2 ∧
      (tunnel1 bridge1).tunnelFail 0 (tunnelEntry1 5 6 [0]) = 3 ∧ (tunnel1 bridge1).tunnelFail 0 (tunnelEntry1 2 7 [0]) = 4 ∧
      (tunnel1 .reset).tunnelFail 0 (tunnelEntry1 2 6 [0]) = 5) ∧
    (∃ g : State, g = { tunnel1 bridge1 with net := { net5 with self := 6 } } ∧ g.me = 6) ∧ 6 ≠ (tunnel1 bridge1).me ∧
    (∃ b : Bridge, b = { bridge1 with txns := (List.range 256).map (txn · true) ++ (List.range 255).map (txn · false) } ∧ 256 ≤ b.reads.length ∧
      b.writes.length < 256) ∧
    Bridge.reset.on = false ∧ (∃ b : Bridge, b.paused = [0]) :=
  ⟨fun _ _ => ⟨_, _, mail_accepted rfl rfl (by decide) _ _ _⟩, by decide, by decide, by decide, by decide +kernel, by decide,
    ⟨fun k => tunnel_passes (by rw [List.length_replicate]; decide) (by rw [List.length_replicate]; decide) (by decide) (by decide) (.inr ⟨rfl, rfl⟩), tunnel_passes (by decide) (by decide) (by decide) (by decide) (.inl rfl),
      tunnel_passes (by decide) (by decide) (by decide) (by decide) (.inl rfl),
      fun k => tunnel_passes (by rw [List.length_replicate]; decide) (by rw [List.length_replicate]; decide) (by decide) (by decide) (.inl rfl)⟩,
    by decide +kernel, ⟨_, rfl, rfl⟩, by decide, ⟨_, rfl, by decide +kernel, by decide +kernel⟩, rfl, ⟨{ Bridge.reset with paused := [0] }, rfl⟩⟩

def seg6 (kind : Nat) : Segment := { segment0 with sender := 6, kind := kind, dest := 5, last := true }

def part6 (whole : Bool) (entry : Option OutEntry) : Reassembly :=
  { channel := 0, peer := 6, tag := 0, data := [], credited := true, whole := whole, entry := entry }

/-- O56: a segment of a listed peer of each kind; three buffers and four; a transaction and none; entries that wait; ports of each mode with a sound and a bad
telegram; a serial port that sends with and without another waiting; polls before and at the third failure. -/
theorem witness_SegmentsTelegramsAndPolls : (tunnel1 bridge1).bridgeOn = true ∧ (seg6 1).channel < 8 ∧ (seg6 1).sender ∈ (tunnel1 bridge1).peers (seg6 1).channel ∧
    (seg6 1).dest = (tunnel1 bridge1).me ∧ (seg6 1).reset = false ∧ (seg6 1).index = 0 ∧ (seg6 1).last = true ∧
    ({ bridge1 with reasm := List.replicate 3 (part6 false none) } : Bridge).buffers 0 6 < 4 ∧
    4 ≤ ({ bridge1 with reasm := List.replicate 4 (part6 false none) } : Bridge).buffers 0 6 ∧
    (∃ b x : _, b = ({ bridge1 with txns := [txn 0 true, txn 0 false] } : Bridge) ∧ x = txn 0 true ∧
      b.reads.find? (fun t => t.tag == 0 && t.channel == 0 && t.peer == 6) = some x ∧ b.reads.find? (fun t => t.tag == 0) = some x ∧
      b.writes.find? (fun t => t.tag == 0 && t.channel == 0 && t.peer == 6) = some (txn 0 false) ∧
      bridge1.reads.find? (fun t => t.tag == 0 && t.channel == 0 && t.peer == 6) = none) ∧
    ({ seg6 7 with reset := true } : Segment).reset = true ∧ bridge1.credits = [] ∧
    (∃ r : Reassembly, r = part6 false none ∧ ({ bridge1 with reasm := [r] } : Bridge).reasm.find? (fun r => r.channel == 0 && r.peer == 6 && !r.whole) = some r) ∧
    (∃ r x, x = OutEntry.mk 0 0 0 0 0 .done 0 0 [] 0 ∧ r = part6 true (some x) ∧
      ({ bridge1 with reasm := [r] } : Bridge).reasm.find? (fun r => r.channel == 0 && r.entry.isSome) = some r) ∧
    ((tunnel1 bridge1).portMode 0 = 1 ∧ (tunnel1 bridge1).portMode 1 = 2 ∧ (tunnel1 bridge1).inUse 0x1009 = 6 ∧ 6 ∈ (tunnel1 bridge1).peers 7 ∧
      7 ∉ (tunnel1 bridge1).peers 7) ∧
    (telegramBad { address := 0, length := 1, data := [0], crc := BitVec.ofNat 16 (crcOf 2 [0]) } = false ∧
      telegramBad { address := 0, length := 2, data := [0], crc := 0 } = true) ∧
    (∃ y : Serial, y.sending = true ∧ y.waiting = []) ∧ (∃ y : Serial, y.sending = true ∧ ∃ a l, y.waiting = a :: l) ∧
    (∃ w : Poll, w.fails = 1 ∧ ¬ 2 ≤ w.fails) ∧ (∃ w : Poll, w.lost = false ∧ 2 ≤ w.fails) :=
  ⟨by decide, by decide, by decide +kernel, by decide, rfl, rfl, rfl, by decide, by decide, ⟨_, _, rfl, rfl, by decide, by decide, by decide, by decide⟩, rfl, rfl,
    ⟨_, rfl, by decide⟩, ⟨_, _, rfl, rfl, by decide⟩, by decide +kernel, by decide +kernel, ⟨{ sending := true, waiting := [], out := [] }, rfl, rfl⟩,
    ⟨{ sending := true, waiting := [{ address := 0, length := 0, data := [], crc := 0 }], out := [] }, rfl, _, _, rfl⟩,
    ⟨{ slot := 0, block := [], ageNs := 0, fails := 1, lost := false }, rfl, by decide⟩, ⟨{ slot := 0, block := [], ageNs := 0, fails := 2, lost := false }, rfl, by decide⟩⟩

/-- The colophon of a forme image of one byte, as its 512 bytes. -/
def colophonBytes : List Byte :=
  leBytes 4 0x43585350 ++ leBytes 2 1 ++ [2, 1] ++ leBytes 8 0 ++ leBytes 2 0x3840 ++ leBytes 2 0 ++ leBytes 4 1 ++ leBytes 4 1 ++ leBytes 2 0x1000 ++
    List.replicate 482 0

/-- A session for an image of the type, of one byte in one chunk, of source 0. -/
def upSession (typ : Nat) (held : List Nat) (stored : List (Nat × List Byte)) : UpdSession :=
  { colophon := { colophon1 typ 9 with length := 1, chunks := 1 }, source := 0, held := held, stored := stored }

def updating (state : Nat) (q : UpdSession) : Update := { Update.reset with state := state, session := some q }

/-- The single chunk's first and second part. -/
def part0 : List Byte := leBytes 8 0 ++ [7]
def part1 : List Byte := leBytes 4 0 ++ [1, 0, 0, 0] ++ List.replicate 16 0

/-- O57: a colophon that passes and one that does not; no session, one of this source and of another, in each state; a part of the right and of a wrong length;
a chunk held and not, with its other part there and not; 31 chunks staged and 32; a sound chunk and a bad one; both digests; the token of the type; the limit
of silence. -/
theorem witness_UpdateSessionRuns : (∀ op n b, b.length ≤ 4000 → ∃ u o, keys1.accepts op n true (mail b) u o) ∧
    (∀ o, keys1.colophonFail o colophonBytes (colophonOf colophonBytes (sign 1) (sign 2)) true = none) ∧
    (∀ o, keys1.colophonFail o [] (colophonOf [] (sign 1) (sign 2)) true = some (.framing, 6)) ∧
    (∃ o q, o = outstandingOf 0x1202 (mail []) none ∧ q = upSession 1 [] [] ∧ q.source = keys1.sourceOf o ∧ ({ q with source := 1 } : UpdSession).source ≠ keys1.sourceOf o ∧
      q.colophon.chunks = 1 ∧ min (fieldAt part0 0 4) 0 = 0 ∧ min 1 (fieldAt part0 4 1) = 0 ∧ min 1 (fieldAt part1 4 1) = 1 ∧
      (part0.drop 8).length = q.colophon.partBytes 0 0 ∧ (part1.drop 8).length = q.colophon.partBytes 0 1 ∧ (part0.drop 8).length ≠ q.colophon.partBytes 0 1 ∧
      0 ∉ q.held ∧ 0 ∈ (upSession 1 [0] []).held) ∧
    ((updating 1 (upSession 1 [] [])).partsOf 0 = [] ∧ (updating 1 (upSession 1 [] [])).staged < 32 ∧
      32 ≤ ({ Update.reset with parts := (List.range 32).map (fun i => (i + 1, 0, [])) } : Update).staged) ∧
    (∃ x : Update, x = { Update.reset with parts := [(0, 0, [7])] } ∧
      ((x.putPart 0 1 []).partsOf 0).length = 2 ∧ ((x.putPart 0 0 []).partsOf 0).length ≠ 2) ∧
    ((upSession 1 [] []).held.length < (upSession 1 [] []).colophon.chunks ∧ (upSession 1 [0] []).colophon.chunks ≤ (upSession 1 [0] []).held.length) ∧
    chunkOk (storedChunk [7]) = true ∧ chunkOk [] = false ∧ (9 : Digest) = (upSession 1 [0] []).colophon.digest ∧ (8 : Digest) ≠ (upSession 1 [0] []).colophon.digest ∧
    (∃ b, b = token 9 3 0 1 (leBytes 4 1) ∧ b ≠ [] ∧ tokSized b = true ∧ keys1.tokenFail [0x09] b (sign 3) = 0 ∧ fieldAt (tokBody b) 0 1 = 1) ∧
    ({ Update.reset with idleS := 2592000 } : Update).state ≠ 4 ∧ 2591999 < 2592000 :=
  ⟨fun _ _ _ h => ⟨_, _, mail_accepted rfl rfl h _ _ _⟩, fun o => by
      unfold State.colophonFail
      rw [if_neg (by decide +kernel), if_neg (by decide +kernel), if_neg (by intro h; rcases h with h | h <;> simp [State.foreign, keys1, run1, State.reset, Update.reset] at h),
        if_neg (by decide +kernel), if_neg (by decide +kernel), if_neg (by decide +kernel), if_neg (by decide +kernel), if_neg (by decide +kernel),
        if_neg (by decide +kernel), if_neg (by decide +kernel), if_neg (by decide +kernel), if_neg (by decide +kernel)],
    fun o => rfl, ⟨_, _, rfl, rfl, by decide, by decide, rfl, by decide, by decide, by decide, by decide, by decide, by decide, by decide, by decide⟩,
    by decide +kernel, ⟨_, rfl, by decide, by decide⟩, by decide, by decide +kernel, by decide, rfl, by decide +kernel,
    ⟨_, rfl, by decide +kernel, by decide +kernel, by decide +kernel, by decide +kernel⟩, by decide, by decide⟩

/-- The boot record with slot 1 of type 1 on trial. -/
def trial1 : BootRec := { BootRec.empty with valid := true, entries := setNth BootRec.empty.entries 0 { BootEntry.empty with trial := some 1, trialVersion := 1 } }

/-- keys1 running the trial image of an update session of its source, or not. -/
def trying (slot : Nat) : State :=
  { keys1 with update := { updating 4 (upSession 1 [0] []) with boot0 := trial1, booted := [slot, 0, 0, 0] } }

/-- O58: a verified image in a life-cycle state that activates and in one that does not; the trial image runs, or the other; a token that names the image and
one that names another digest; no report and one being signed. -/
theorem witness_ImagesActivateConfirmAndAttest : (∀ op n b, b.length ≤ 4000 → ∃ u o, keys1.accepts op n true (mail b) u o) ∧
    (updating 3 (upSession 2 [0] [])).state = 3 ∧ keys1.life.state = .commissioning ∧ keys1.xchg.state = .idle ∧ startPasses facts0 0x40 = true ∧
    (∃ l : Life, l.state = .operation) ∧
    (∃ b q, b = token 8 3 0 1 (leBytes 4 1 ++ digestBytes 9) ∧ q = upSession 1 [0] [] ∧ (trying 1).update.session = some q ∧ (trying 1).update.state = 4 ∧
      (trying 1).trialImageRuns q = true ∧ (trying 0).trialImageRuns q = false ∧ tokSized b = true ∧ keys1.tokenFail [0x08] b (sign 3) = 0 ∧
      fieldAt (tokBody b) 0 1 = q.colophon.typ ∧ digestAt (tokBody b) 4 = q.colophon.digest ∧
      digestAt (tokBody (token 8 3 0 1 (leBytes 4 1 ++ digestBytes 8))) 4 ≠ q.colophon.digest) ∧
    (1 ≤ (upSession 1 [] []).colophon.typ ∧ (upSession 1 [] []).colophon.typ ≤ trial1.entries.length ∧ (trial1.entry 1).trial = some 1) ∧
    Entry.size (mail (List.replicate 32 0)) 32 = true ∧ Update.reset.signing = none ∧ keys1.power.cryptoDown = false ∧
    (∃ p, ({ Update.reset with signing := some p } : Update).signing = some p) ∧ State.reset.power.running = false :=
  ⟨fun _ _ _ h => ⟨_, _, mail_accepted rfl rfl h _ _ _⟩, rfl, rfl, rfl, by decide, ⟨{ Life.reset with state := .operation }, rfl⟩,
    ⟨_, _, rfl, rfl, rfl, rfl, by decide +kernel, by decide +kernel, by decide +kernel, by decide +kernel, by decide +kernel, by decide +kernel, by decide +kernel⟩,
    by decide, by decide +kernel, rfl, rfl, ⟨(outstandingOf 0x1208 (mail []) none, []), rfl⟩, rfl⟩

/-- O59: a transition into Operation, one into Retired, and one outside the table; a key write of each kind; no token passes without its key. -/
theorem witness_LifeCycleMovesByTokens : (∀ op n b, b.length ≤ 4000 → ∃ u o, keys1.accepts op n true (mail b) u o) ∧
    (∀ b ∈ [token 1 2 0 1 [1, 2, 0, 0], token 1 2 0 1 [1, 4, 0, 0], token 1 2 0 1 [1, 3, 0, 0]], tokSized b = true ∧ keys1.tokenFail [0x01] b (sign 2) = 0) ∧
    keys1.tokenFail [0x01] (token 1 2 0 1 [1, 2, 0, 0]) (sign 4) ≠ 0 ∧
    ((1, 2) ∈ [(0, 1), (1, 2), (2, 3), (3, 2), (3, 1), (0, 4), (1, 4), (2, 4), (3, 4)] ∧ (1, 3) ∉ [(0, 1), (1, 2), (2, 3), (3, 2), (3, 1), (0, 4), (1, 4), (2, 4), (3, 4)] ∧
      keys1.life.authority ≠ 0 ∧ keys1.forme.isSome = true ∧ keys1.vitalForce = false ∧ keys1.update.state ≠ 4 ∧ keys1.proofs.userRuns = false ∧
      lifeOf 2 = some .operation ∧ lifeOf 4 = some .retired) ∧
    (run1.platen.safe = false ∧ State.reset.outputsOpen = true) ∧
    keys1.tokenFail [0x02, 0x03, 0x04] (token 2 1 0 1 (List.replicate 68 0)) (sign 1) = 0 ∧
    keys1.tokenFail [0x02, 0x03, 0x04] (token 3 2 0 1 (leBytes 1 7 ++ List.replicate 59 0)) (sign 2) = 0 ∧
    keys1.tokenFail [0x02, 0x03, 0x04] (token 4 2 0 1 (List.replicate 60 0)) (sign 2) = 0 ∧ keys1.life.maintainer.length = 8 :=
  ⟨fun _ _ _ h => ⟨_, _, mail_accepted rfl rfl h _ _ _⟩, by decide +kernel, by decide +kernel, by decide +kernel, by decide +kernel, by decide +kernel, by decide +kernel,
    by decide +kernel, rfl⟩

/-- O60: a range of one item; a batch that waits; numbers at the ends of what a clear takes; a clear under way, and none. -/
theorem witness_RecorderListsReadsAndClears : (∀ op n b, b.length ≤ 4000 → ∃ u o, keys1.accepts op n true (mail b) u o) ∧ Entry.size (mail (leBytes 4 0x10010)) 4 = true ∧
    0x10 ∈ recRange 0x10 1 ∧ keys1.recorder.clearing = none ∧ keys1.recorder.pending = [] ∧ run1.host.stewardUp = true ∧
    (∃ r : Recorder, r = { Recorder.reset with pending := [[recCount 0x0108 0]] } ∧ ∃ batch rest, r.pending = batch :: rest ∧ (∀ x ∈ batch, x.item ≠ 0) ∧
      ∃ x ∈ batch, (recSpec x.item).isSome = true) ∧
    (∃ b, b = token 10 3 0 1 (leBytes 8 1) ∧ tokSized b = true ∧ keys1.tokenFail [0x0A] b (sign 3) = 0 ∧ fieldAt (tokBody b) 0 8 = 1) ∧
    (∃ r : Recorder, r = { Recorder.reset with seq := 1048576, lastClear := 0 } ∧ r.lastClear < 1 ∧ 1 ≤ r.seq ∧ r.seq - 1 < 1048576 ∧ ¬ r.seq - 0 < 1048576) ∧
    (∃ r c, c = ({ c := 2, s := 1, tokenSeq := 1, key := 0, session := 1, answer := outstandingOf 0x1503 (mail []) none } : RecClear) ∧
      r = { Recorder.reset with clearing := some c } ∧ r.clearing = some c ∧ ∀ m, (r.item 0).max = some m → m.1 ≤ (c.c : Int)) ∧
    State.reset.power.running = false :=
  ⟨fun _ _ _ h => ⟨_, _, mail_accepted rfl rfl h _ _ _⟩, by decide, by decide +kernel, rfl, rfl, rfl, ⟨_, rfl, _, _, rfl, by decide, _, List.mem_singleton_self _, by decide +kernel⟩,
    ⟨_, rfl, by decide +kernel, by decide +kernel, by decide +kernel⟩, ⟨_, rfl, by decide, by decide, by decide, by decide⟩,
    ⟨_, _, rfl, rfl, rfl, by intro m h; cases h⟩, rfl⟩

end Sys2Proof.Tests
end

section
/-! The host beneath the mailbox: BAR0, the PCIe function and the maintenance jack reach no vital part of the module. -/

namespace Sys2Proof.Laws

open Sys2Proof Sys2Proof.Machine

/-- What the host may reach beneath the mailbox, as a footprint (see `Same`): power, where the counts of crossing timeouts stand
(R403), the host link, the bridge, whose waiting entries a tunnel receive queue takes (R308), the recorder, and what a restart of the
steward or a reset of the function drops of the exchange, the requests, the CRC contexts and the update (R300). Lanes, platen, field
side, network, train, duplex unit, life cycle and proofs are not in it. -/
def hostReach : Nat := 0x47d02

/-- Each row of the host stays within the host's reach. -/
theorem footprint_le_hostReach {c : Instr} (h : c.hostAccess = true) : footprint c ||| hostReach = hostReach := by
  unfold Instr.hostAccess at h
  split at h
  case h_17 => cases h
  all_goals simp only [footprint, hostReach]; rfl

/-- An access of the host changes only what lies within its reach. -/
theorem hostAccess_same {c : Instr} {s t : State} (e : exec c s = .next t) (h : c.hostAccess = true) : Same hostReach s t := by
  obtain ⟨u, hu, k⟩ := (exec_leads c s).mono (footprint_le_hostReach h)
  cases e.symm.trans hu
  exact k

/-- Settles O5: the footprint of every row of the host leaves out the vital parts. -/
theorem hostAccessKeepsVitalState : Obligations.HostAccessKeepsVitalState := by
  intro c s t e h
  have k := hostAccess_same e h
  have lanes : t.lanes = s.lanes := k.lanes rfl
  exact ⟨fun l => by rw [lanes], k.platen rfl, k.field rfl, k.net rfl, k.train rfl, k.duplex rfl, k.life rfl, k.proofs rfl⟩

end Sys2Proof.Laws
end

section
/-! The module's anatomy: what a restart of the steward takes with it and what waits for its return (R11, R300), how a cycle close and
its seal treat the checkpoint halves (R18, R95), and that the expiries of the lanes' engines stay in the lanes (R10). -/

namespace Sys2Proof.Laws

open Sys2Proof Sys2Proof.Machine

/-! ### A steward restart -/

theorem unusable_iff (s : State) (b : Nat) : s.unusable b = true ↔ b ∈ s.proofs.failed := by
  unfold State.unusable; exact List.contains_iff_mem

theorem restartKey_iff (v : Word32) : restartKey v = true ↔ v.getLsbD 0 = true ∧ bits32 v 8 8 = 0xC3 := by
  unfold restartKey; rw [Bool.and_eq_true, beq_iff_eq]

/-- Requests lost before they reached the lanes, and responses that will be discarded, take outstanding commands with them and nothing
else of the host link. -/
theorem dropUnhanded_orphans_host (s : State) (p : Nat → Bool) :
    ∃ l, (s.dropUnhanded.orphans p).host = { s.host with outstanding := l } := by
  have freed (u : State) (l : List Nat) : (l.foldl State.freeSlot u).host = u.host :=
    (Same.fold freeSlot_same l (Same.refl 0x800 u)).host rfl
  unfold State.orphans State.dropUnhanded
  dsimp only
  rw [freed]
  exact ⟨_, rfl⟩

/-- When every session closes, none is left. -/
theorem closeSessions_all (s : State) : (s.closeSessions (fun _ => true)).host.sessions = [] := by
  rw [closeSessions_sessions, List.filter_true, List.filter_eq_nil_iff]
  intro y hy closed
  have listed : s.host.sessions.any (fun x => x.num == y.num) = true := List.any_eq_true.2 ⟨y, hy, beq_self_eq_true y.num⟩
  rw [listed] at closed
  cases closed

/-- Gweten after its restart: down, without sessions, its queues at reset. -/
theorem stewardRestart_host (s : State) : s.stewardRestart.host.stewardUp = false ∧ s.stewardRestart.host.sessions = [] ∧
    s.stewardRestart.host.queues = HostLink.reset.queues := by
  unfold State.stewardRestart
  dsimp only
  generalize hw : State.orphans _ _ = w
  obtain ⟨l, hl⟩ := hw ▸ dropUnhanded_orphans_host _ _
  obtain ⟨-, -, up, -⟩ := closeFold_sessions (w.host.sessions.filter (fun _ => true)) w
  have down : w.host.stewardUp = false := by rw [hl]
  have queues : w.host.queues = HostLink.reset.queues := by rw [hl]; rfl
  exact ⟨up.trans down, closeSessions_all w, (closeFold_queues _ w down).trans queues⟩

/-- Settles O25: the footprint of the restart leaves out everything but the host side, and closing sessions while Gweten is down
holds their events back without touching the queues. -/
theorem stewardRestartsAlone : Obligations.StewardRestartsAlone := by
  intro s v b running
  constructor
  · intro up opened bit key
    have k := stewardRestart_same s
    obtain ⟨down, sessions, queues⟩ := stewardRestart_host s
    have run : exec (.stewardCtrlRestart v b) s = .next s.stewardRestart :=
      if_pos ⟨running, up, opened, (restartKey_iff v).2 ⟨bit, key⟩⟩
    exact ⟨_, run, down, sessions, rfl, queues, rfl, k.lanes rfl, k.platen rfl, k.field rfl, k.net rfl, k.train rfl, k.duplex rfl,
      k.params rfl, k.life rfl, k.proofs rfl, k.power rfl⟩
  · intro down sound
    have k := stewardServes_same s
    have usable : s.unusable 0x39 = false := Bool.eq_false_iff.2 fun h => sound ((unusable_iff s _).1 h)
    have run : exec .stewardBack s = .next s.stewardServes := if_pos ⟨running, by rw [down]; rfl, by rw [usable]; rfl⟩
    exact ⟨_, _, run, rfl, rfl, k.lanes rfl, k.platen rfl, k.field rfl, k.net rfl, k.power rfl⟩

/-! ### Checkpoint halves -/

/-- Step 9 hands a lane's lists over, and takes the shadow of a lane in service outside the safe state. -/
theorem closeCycle_lane (s : State) (l : LaneId) : ∃ st, ShadowKept (s.lanes.get l) st ∧
    s.closeCycle.lanes.get l = if s.laneIn l = true ∧ s.platen.safe = false then st.cleared.snapshot else st.cleared := by
  obtain ⟨u, hu, hp, kept⟩ := closeCycle_before s
  obtain ⟨-, -, -, -, -, held⟩ := kept l
  have hin : u.laneIn l = s.laneIn l := laneIn_congr (by rw [hp]) l held
  refine ⟨u.lanes.get l, kept l, ?_⟩
  rw [hu]
  show u.closeLanes.lanes.get l = _
  unfold State.closeLanes
  simp only [mapLanes_get, hin, hp, Bool.not_eq_true']

/-- A lane whose shadow is not taken keeps both halves and the write under way. -/
theorem closeCycle_lane_kept {s : State} {l : LaneId} (h : s.platen.safe = true ∨ s.laneIn l = false) :
    (s.closeCycle.lanes.get l).half0 = (s.lanes.get l).half0 ∧ (s.closeCycle.lanes.get l).half1 = (s.lanes.get l).half1 ∧
    (s.closeCycle.lanes.get l).writing = (s.lanes.get l).writing := by
  obtain ⟨st, ⟨h0, h1, hw, -⟩, e⟩ := closeCycle_lane s l
  have out : ¬ (s.laneIn l = true ∧ s.platen.safe = false) := by
    rintro ⟨inService, notSafe⟩
    rcases h with h | h
    · exact absurd (h.symm.trans notSafe) (by decide)
    · exact absurd (h.symm.trans inService) (by decide)
  rw [e, if_neg out]
  exact ⟨h0, h1, hw⟩

/-- A lane whose shadow is taken writes its core into the half it did not seal last, or into the one it is writing. -/
theorem closeCycle_lane_written {s : State} {l : LaneId} (safe : s.platen.safe = false) (h : s.laneIn l = true) :
    ∃ n, n = ((s.lanes.get l).writing.map (·.1)).getD (1 - (s.lanes.get l).lastHalf) ∧
      (s.closeCycle.lanes.get l).writing = some (n, (s.lanes.get l).core) ∧ ((s.closeCycle.lanes.get l).half n).isSealed = false ∧
      (n = 1 → (s.closeCycle.lanes.get l).half0 = (s.lanes.get l).half0) ∧
      (n = 0 → (s.closeCycle.lanes.get l).half1 = (s.lanes.get l).half1) := by
  obtain ⟨st, ⟨h0, h1, hw, hl, hc, -⟩, e⟩ := closeCycle_lane s l
  obtain ⟨n, hn, writing, unsealed, keep0, keep1, -⟩ := snapshot_facts st.cleared
  rw [e, if_pos ⟨h, safe⟩, ← hw, ← hl, ← hc, ← h0, ← h1]
  exact ⟨n, hn, writing, unsealed, keep0, keep1⟩

/-- After step 9 a lane's lists of the cycle are empty and its core is as it was. -/
theorem closeCycle_lane_handedOver (s : State) (l : LaneId) : (s.closeCycle.lanes.get l).records = [] ∧
    (s.closeCycle.lanes.get l).events = [] ∧ (s.closeCycle.lanes.get l).core = (s.lanes.get l).core := by
  obtain ⟨st, ⟨-, -, -, -, hc, -⟩, e⟩ := closeCycle_lane s l
  obtain ⟨n, -, -, -, -, -, core, records, events⟩ := snapshot_facts st.cleared
  rw [e, ← hc]
  split
  · exact ⟨records, events, core⟩
  · exact ⟨rfl, rfl, rfl⟩

theorem closeCycle_platen_frozen (s : State) : s.closeCycle.platen = s.platen.close ∧ s.closeCycle.req.frozen = [] := by
  obtain ⟨u, hu, hp, -⟩ := closeCycle_before s
  rw [hu, hp]
  exact ⟨rfl, rfl⟩

/-- The lane after its half is sealed (R18). -/
theorem sealCheckpoint_eq {s : State} {l : LaneId} {n : Nat} {core : LaneCore} (h : (s.lanes.get l).writing = some (n, core)) :
    s.sealCheckpoint l = s.updLane l (fun st => ({ st with writing := none, lastHalf := n } : LaneState).setHalf n
      { isSealed := true, count := core.cycle, digest := (st.runDigest).getD 0, clean := s.duplex.commanding || s.duplex.ready, core := core }) := by
  unfold State.sealCheckpoint; rw [h]

theorem execCheckpointSeal_runs {s : State} {l : LaneId} (running : s.power.running = true) (safe : s.platen.safe = false)
    (held : (s.lanes.get l).held = false) : exec (.checkpointSeal l) s = .next (s.sealCheckpoint l) :=
  if_pos ⟨running, by rw [safe]; rfl, by rw [held]; rfl⟩

/-- Settles O27: step 9 acts on each lane's shadow alone once its lists are handed over, and the seal on the half being written. -/
theorem checkpointWrittenAndSealed : Obligations.CheckpointWrittenAndSealed := by
  intro s l running
  constructor
  · intro cycleOpen
    have k := closeCycle_same s
    obtain ⟨platen, frozen⟩ := closeCycle_platen_frozen s
    obtain ⟨records, events, core⟩ := closeCycle_lane_handedOver s l
    exact ⟨_, if_pos ⟨running, cycleOpen⟩, platen, frozen, closeCycle_lane_written, closeCycle_lane_kept, records, events, core,
      k.field rfl, k.power rfl, k.params rfl, k.life rfl⟩
  · intro safe held
    have run := execCheckpointSeal_runs running safe held
    constructor
    · intro idle
      rw [run]; unfold State.sealCheckpoint; rw [idle]
    · intro n core writing
      refine ⟨_, run, ?_⟩
      rw [sealCheckpoint_eq writing, updLane_get_self]
      obtain ⟨half, keep1, keep0, done, last, -⟩ := setHalf_get ({ s.lanes.get l with writing := none, lastHalf := n } : LaneState) n
        { isSealed := true, count := core.cycle, digest := ((s.lanes.get l).runDigest).getD 0,
          clean := s.duplex.commanding || s.duplex.ready, core := core }
      exact ⟨half, last, done, keep1, keep0, fun m hm => updLane_get_ne _ _ _ _ hm, _, rfl⟩

/-! ### Expiries of the lanes' engines -/

/-- Settles O34: each of these rows runs an operation of the lanes that evaluate. -/
theorem expiriesActOnLanesAlone : Obligations.ExpiriesActOnLanesAlone := by
  intro s i c row
  have runs : ∃ op, exec c s = .next (s.laneOp op) := by
    fin_cases row <;> exact ⟨_, rfl⟩
  obtain ⟨op, run⟩ := runs
  obtain ⟨ls, lanes, idle, kept⟩ := inLanes_alone s op
  exact ⟨ls, by rw [run, lanes], idle, kept⟩

end Sys2Proof.Laws
end

section
/-! Safety words: what the decoder makes of a word with the expected set, identity and a fresh tag (R26), and that it recovers what the
encoder sealed (R25) and nothing next to it. -/

namespace Sys2Proof.Laws

open Sys2Proof Sys2Proof.Machine

/-- B + D of an identity and a tag (R25): what a code value carries beside the multiple of A. -/
def codeOffset (id tag set : Nat) : Nat := codeB id (codeA set) + codeD tag (codeA set)

theorem codeCV_eq (x id tag set : Nat) : codeCV x id tag set = codeA set * heldX set x + codeOffset id tag set := Nat.add_assoc ..

theorem tagFresh_iff (tag now : Nat) : tagFresh tag now = true ↔ tag = now % 256 ∨ tag = (now + 255) % 256 := by
  unfold tagFresh; rw [Bool.or_eq_true, beq_iff_eq, beq_iff_eq]

section
variable {w : Word64} {id set now : Nat} (hset : wordSet w = set) (hid : wordId w = id) (fresh : tagFresh (wordTag w) now = true)
include hset hid fresh

/-- A code value that no x has under the word's identity and tag is rejected by the code check. -/
theorem decode_of_no_value (h : ∀ y, wordCV w ≠ codeA set * y + codeOffset id (wordTag w) set) (k hi : Nat) :
    decode w id k set now hi = .invalid .code := by
  subst hset hid
  have remainder : ¬ wordCV w < codeOffset (wordId w) (wordTag w) (wordSet w) →
      (wordCV w - codeOffset (wordId w) (wordTag w) (wordSet w)) % codeA (wordSet w) ≠ 0 := by
    intro above zero
    obtain ⟨y, hy⟩ := Nat.dvd_of_mod_eq_zero zero
    exact h y (by omega)
  unfold codeOffset at remainder
  unfold decode
  dsimp only
  rw [if_neg (not_not_intro rfl), if_neg (not_not_intro rfl), fresh, if_neg (by decide)]
  split
  · rfl
  · next above => rw [if_pos (remainder above)]

/-- A code value of a held x passes the code check, and the kind decides. -/
theorem decode_of_value {y : Nat} (hA : 0 < codeA set) (hy : y < 65536)
    (h : wordCV w = codeA set * y + codeOffset id (wordTag w) set) (k hi : Nat) :
    decode w id k set now hi =
      if wordKind w = 4 ∧ heldX set y = 0 then .restrictive
      else if wordKind w ≠ k then .invalid .kind
      else if wordKind w = 3 ∧ heldX set y > hi then .invalid .kind
      else .valid (heldX set y) := by
  subst hset hid
  unfold codeOffset at h
  unfold decode
  dsimp only
  rw [if_neg (not_not_intro rfl), if_neg (not_not_intro rfl), fresh, if_neg (by decide), h, Nat.add_sub_cancel,
    if_neg (by omega), Nat.mul_mod_right, if_neg (not_not_intro rfl), Nat.mul_div_cancel_left y hA, if_neg (by omega)]

end

/-- The encoder seals every value for a valid identity and code set (R25). -/
theorem encode_of_valid {id set : Nat} (hid : isIdentity id = true) (hset : isCodeSet set = true) (x tag kind : Nat) :
    encode x id tag kind set = some (packWord (codeCV x id (tag % 256) set) id tag kind set) := by
  unfold encode; rw [hid, hset]; rfl

/-- An encoded word of a fresh tag decodes to its value, as far as its kind allows it. -/
theorem decode_encode {x id tag kind set now : Nat} {w : Word64} (hw : encode x id tag kind set = some w) (hx : x < 65536) (hk : kind < 16)
    (fresh : tagFresh (tag % 256) now = true) (k hi : Nat) :
    decode w id k set now hi =
      if kind = 4 ∧ x = 0 then .restrictive
      else if kind ≠ k then .invalid .kind
      else if kind = 3 ∧ x > hi then .invalid .kind
      else .valid x := by
  obtain ⟨-, set_ok, cv, hid, htag, hkind, hset⟩ := encode_fields hw hx hk
  obtain ⟨hA, -⟩ := codeA_bounds set_ok
  have value : wordCV w = codeA set * heldX set x + codeOffset id (wordTag w) set := by rw [cv, htag, codeCV_eq]
  rw [decode_of_value hset hid (htag ▸ fresh) hA (heldX_lt hx) value, hkind, heldX_heldX hx]

/-- Settles O15: the decoder takes off what the encoder added, and a kind that is its own passes. -/
theorem encodedWordDecodesToItsValue : Obligations.EncodedWordDecodesToItsValue := by
  intro x id tag kind set now hx hid hk hset fresh
  have hw := encode_of_valid hid hset x tag kind
  have decoded := decode_encode hw hx hk ((tagFresh_iff ..).2 fresh)
  refine ⟨_, hw, fun restrictive k hi => ?_, fun other hi inRange => ?_⟩
  · rw [decoded, if_pos restrictive]
  · rw [decoded, if_neg other, if_neg (not_not_intro rfl), if_neg (fun ⟨enumeration, above⟩ => absurd (inRange enumeration) (by omega))]

theorem one_lt_codeA {set : Nat} (h : isCodeSet set = true) : 1 < codeA set := by
  unfold isCodeSet at h
  simp only [Bool.or_eq_true, beq_iff_eq] at h
  rcases h with ((rfl | rfl) | rfl) | rfl <;> decide

/-- Two code values of the same identity and tag differ by a multiple of A, which no power of two is. -/
theorem flipped_codeCV_ne {set : Nat} (hset : isCodeSet set = true) (x y id tag i : Nat) :
    codeCV x id tag set ^^^ 2 ^ i ≠ codeA set * y + codeOffset id tag set := by
  intro h
  obtain ⟨-, -, odd, -⟩ := codeA_bounds hset
  refine two_pow_not_dvd (i := i) odd (one_lt_codeA hset) ?_
  have hx : codeA set ∣ codeA set * heldX set x := Nat.dvd_mul_right ..
  have hy : codeA set ∣ codeA set * y := Nat.dvd_mul_right ..
  rw [codeCV_eq] at h
  rcases xor_two_pow_cases (codeA set * heldX set x + codeOffset id tag set) i with up | down
  · have sum : codeA set * heldX set x + 2 ^ i = codeA set * y := by omega
    exact (Nat.dvd_add_right hx).1 (sum ▸ hy)
  · have sum : codeA set * y + 2 ^ i = codeA set * heldX set x := by omega
    exact (Nat.dvd_add_right hy).1 (sum ▸ hx)

/-- Settles O16: a flipped bit moves the code value by a power of two, off every value of the word's identity and tag. -/
theorem noSingleCodeBitErrorPasses : Obligations.NoSingleCodeBitErrorPasses := by
  intro x id tag kind set i k now hi w hw hx hk bit fresh
  obtain ⟨-, set_ok, cv, hid, htag, -, hset⟩ := encode_fields hw hx hk
  obtain ⟨fcv, fid, ftag, fset⟩ := flip_fields w i bit
  refine decode_of_no_value (fset.trans hset) (fid.trans hid) ?_ (fun y => ?_) k hi
  · rw [ftag, htag]; exact (tagFresh_iff ..).2 fresh
  · rw [fcv, ftag, cv, htag]; exact flipped_codeCV_ne set_ok x y id (tag % 256) i

end Sys2Proof.Laws
end

section
/-! CRC contexts (R37 to R40): what each command does to the table of contexts, and how a number is chosen for a new one. -/

namespace Sys2Proof.Laws

open Sys2Proof Sys2Proof.Machine

/-! ### The table of contexts -/

theorem mem_setContext (s : State) (c y : CrcContext) : y ∈ (s.setContext c).crc ↔ y = c ∨ (y ∈ s.crc ∧ y.num ≠ c.num) := by
  unfold State.setContext
  rw [(sortBy_perm _ _).mem_iff, List.mem_append, List.mem_filter, List.mem_singleton, bne_iff_ne, or_comm]

theorem context_eq_none_iff (s : State) (o : Outstanding) (n : Nat) :
    s.context o n = none ↔ ∀ d ∈ s.crc, ¬ (d.num = n ∧ d.session = o.session) := by
  unfold State.context
  simp only [List.find?_eq_none, Bool.and_eq_true, beq_iff_eq]

theorem context_eq_some {s : State} {o : Outstanding} {n : Nat} {c : CrcContext} (h : s.context o n = some c) :
    c ∈ s.crc ∧ c.num = n ∧ c.session = o.session := by
  unfold State.context at h
  have own := List.find?_some h
  simp only [Bool.and_eq_true, beq_iff_eq] at own
  exact ⟨List.mem_of_find?_eq_some h, own⟩

/-! ### The number of a new context -/

theorem isFree_iff (l : List CrcContext) (n : Nat) : (!l.any (fun c => c.num == n)) = true ↔ ∀ d ∈ l, d.num ≠ n := by
  simp only [Bool.not_eq_true', List.any_eq_false, beq_iff_eq, ne_eq]

theorem freeContext_eq_none_iff (s : State) : s.freeContext = none ↔ ∀ k, k < 64 → ∃ d ∈ s.crc, d.num = k := by
  unfold State.freeContext
  simp only [List.find?_eq_none, List.mem_range, isFree_iff, not_forall, ne_eq, not_not, exists_prop]

/-- The number that a new context gets is free, and every lower one is taken. -/
theorem freeContext_eq_some {s : State} {k : Nat} (h : s.freeContext = some k) :
    k < 64 ∧ (∀ d ∈ s.crc, d.num ≠ k) ∧ ∀ j, j < k → ∃ d ∈ s.crc, d.num = j := by
  unfold State.freeContext at h
  obtain ⟨free, bound, lower⟩ := List.find?_range_eq_some.1 h
  refine ⟨List.mem_range.1 bound, (isFree_iff ..).1 free, fun j hj => ?_⟩
  obtain ⟨d, hd, num⟩ := List.any_eq_true.1 (Bool.not_not _ ▸ lower j hj)
  exact ⟨d, hd, beq_iff_eq.1 num⟩

/-- 64 different numbers do not fit into fewer than 64 contexts. -/
theorem freeContext_of_length_lt {s : State} (h : s.crc.length < 64) : ∃ k, s.freeContext = some k := by
  refine Option.ne_none_iff_exists'.1 fun full => ?_
  have listed : List.range 64 ⊆ s.crc.map (·.num) := fun k hk =>
    List.mem_map.2 ((freeContext_eq_none_iff s).1 full k (List.mem_range.1 hk))
  have fits := (List.nodup_range.subperm listed).length_le
  rw [List.length_range, List.length_map] at fits
  omega

/-! ### The commands on the state after the fetch -/

theorem crcOpen_of_free {s : State} {k : Nat} (h : s.freeContext = some k) (o : Outstanding) (code : Nat) :
    s.crcOpen o code = (s.setContext { num := k, poly := code, raw := crcOnes code, bytes := 0, session := o.session }).answer o .done 0
      (leBytes 1 k ++ leBytes 1 code) := by
  unfold State.crcOpen; rw [h]

theorem crcOpen_of_full {s : State} (h : s.freeContext = none) (o : Outstanding) (code : Nat) :
    s.crcOpen o code = (s.answer o .limit 0 []).recordBatch [recCount 0x0108 3] := by
  unfold State.crcOpen; rw [h]

section
variable {s : State} {o : Outstanding} {n : Nat}

theorem crcFeed_of_none (h : s.context o n = none) (data : List Byte) : s.crcFeed o n data = s.answer o .state 0 [] := by
  unfold State.crcFeed; rw [h]

theorem crcFeed_of_some {c : CrcContext} (h : s.context o n = some c) (data : List Byte) :
    s.crcFeed o n data = (s.setContext { c with raw := crcFold c.poly c.raw data, bytes := c.bytes + data.length }).answer o .done 0
      (leBytes 8 (c.bytes + data.length)) := by
  unfold State.crcFeed; rw [h]

theorem crcWrite_of_none (h : s.context o n = none) (v : Nat) : s.crcWrite o n v = s.answer o .state 0 [] := by
  unfold State.crcWrite; rw [h]

theorem crcWrite_of_some {c : CrcContext} (h : s.context o n = some c) (v : Nat) :
    s.crcWrite o n v = (s.setContext { c with raw := min v (crcOnes c.poly) }).answer o .done 0 (leBytes 8 (min v (crcOnes c.poly))) := by
  unfold State.crcWrite; rw [h]

end

/-! ### Accepted commands -/

section
variable {s u : State} {op : Nat} {needs needsUdp : Bool} {e : Entry} {o : Outstanding}

/-- The fetch of a command leaves the contexts. -/
theorem accepts_crc (h : s.accepts op needs needsUdp e u o) : u.crc = s.crc := by
  obtain ⟨-, rfl, -⟩ := h; exact dequeue_crc s e

theorem accepts_recorder (h : s.accepts op needs needsUdp e u o) : u.recorder = s.recorder := by
  obtain ⟨-, rfl, -⟩ := h; exact dequeue_recorder s e

theorem accepts_context (h : s.accepts op needs needsUdp e u o) (p : Outstanding) (n : Nat) : u.context p n = s.context p n := by
  unfold State.context; rw [accepts_crc h]

theorem accepts_freeContext (h : s.accepts op needs needsUdp e u o) : u.freeContext = s.freeContext := by
  unfold State.freeContext; rw [accepts_crc h]

end

section
variable {s u : State} {e : Entry} {o : Outstanding}

theorem exec_crcOpen (h : s.accepts 0x1101 true true e u o) (sized : Entry.size e 1 = true) :
    exec (.crcOpen e) s = .next (u.crcOpen o (polyCode (Entry.field e 0 1))) :=
  congrArg _ ((command_accepts h _).trans (if_pos sized))

theorem exec_crcFeed (h : s.accepts 0x1102 true true e u o) (sized : 2 ≤ (Entry.body e).length ∧ (Entry.body e).length ≤ 4073) :
    exec (.crcFeed e) s = .next (u.crcFeed o (Entry.field e 0 1) ((Entry.body e).drop 1)) :=
  congrArg _ ((command_accepts h _).trans (if_pos sized))

theorem exec_crcWrite (h : s.accepts 0x1104 true true e u o) (sized : Entry.size e 9 = true) :
    exec (.crcWrite e) s = .next (u.crcWrite o (Entry.field e 0 1) (Entry.field e 1 8)) :=
  congrArg _ ((command_accepts h _).trans (if_pos sized))

/-- A payload of the right size is not refused by a test for the wrong one. -/
theorem not_unsized {n : Nat} (sized : Entry.size e n = true) : ¬ (!Entry.size e n) = true := by rw [sized]; decide

theorem exec_crcRead_of_none (h : s.accepts 0x1103 false true e u o) (sized : Entry.size e 1 = true)
    (absent : s.context o (Entry.field e 0 1) = none) : exec (.crcRead e) s = .next (u.answer o .state 0 []) := by
  rw [← accepts_context h] at absent
  refine congrArg _ ((command_accepts h _).trans ?_)
  rw [if_neg (not_unsized sized), absent]

theorem exec_crcRead_of_some {c : CrcContext} (h : s.accepts 0x1103 false true e u o) (sized : Entry.size e 1 = true)
    (found : s.context o (Entry.field e 0 1) = some c) :
    exec (.crcRead e) s = .next (u.answer o .done 0 (leBytes 8 c.raw ++ leBytes 8 (crcFinal c.poly c.raw))) := by
  rw [← accepts_context h] at found
  refine congrArg _ ((command_accepts h _).trans ?_)
  rw [if_neg (not_unsized sized), found]

theorem exec_crcClose_of_none (h : s.accepts 0x1105 true true e u o) (sized : Entry.size e 1 = true)
    (absent : s.context o (Entry.field e 0 1) = none) : exec (.crcClose e) s = .next (u.answer o .state 0 []) := by
  rw [← accepts_context h] at absent
  refine congrArg _ ((command_accepts h _).trans ?_)
  rw [if_neg (not_unsized sized), absent]

theorem exec_crcClose_of_some {c : CrcContext} (h : s.accepts 0x1105 true true e u o) (sized : Entry.size e 1 = true)
    (found : s.context o (Entry.field e 0 1) = some c) :
    exec (.crcClose e) s =
      .next (({ u with crc := u.crc.filter (fun d => d.num != c.num) } : State).answer o .done 0 (leBytes 8 (crcFinal c.poly c.raw))) := by
  rw [← accepts_context h] at found
  refine congrArg _ ((command_accepts h _).trans ?_)
  rw [if_neg (not_unsized sized), found]

/-! ### The commands as the statement has them -/

/-- crc.open with fewer than 64 contexts adds one, under the lowest free number. -/
theorem crcOpen_adds (h : s.accepts 0x1101 true true e u o) (sized : Entry.size e 1 = true) (room : s.crc.length < 64) :
    ∃ (t : State) (k code : Nat), exec (.crcOpen e) s = .next (t.answer o .done 0 (leBytes 1 k ++ leBytes 1 code)) ∧
      k < 64 ∧ (∀ d ∈ s.crc, d.num ≠ k) ∧ (∀ j, j < k → ∃ d ∈ s.crc, d.num = j) ∧ code = polyCode (Entry.field e 0 1) ∧
      t = { u with crc := t.crc } ∧
      (∀ d, d ∈ t.crc ↔ d ∈ s.crc ∨ d = { num := k, poly := code, raw := crcOnes code, bytes := 0, session := o.session }) := by
  obtain ⟨k, hk⟩ := freeContext_of_length_lt room
  obtain ⟨bound, free, lower⟩ := freeContext_eq_some hk
  refine ⟨_, k, _, (exec_crcOpen h sized).trans (congrArg _ (crcOpen_of_free ((accepts_freeContext h).trans hk) o _)), bound, free, lower,
    rfl, rfl, fun d => ?_⟩
  rw [mem_setContext, accepts_crc h, or_comm, and_iff_left_of_imp (free d)]

/-- Feed, write and close answer STATE for a number that the session does not hold. -/
theorem exec_absentContext {n op : Nat} {m : Instr} (hn : n = Entry.field e 0 1)
    (row : (m = .crcFeed e ∧ op = 0x1102 ∧ 2 ≤ (Entry.body e).length ∧ (Entry.body e).length ≤ 4073) ∨
      (m = .crcWrite e ∧ op = 0x1104 ∧ Entry.size e 9 = true) ∨ (m = .crcClose e ∧ op = 0x1105 ∧ Entry.size e 1 = true))
    (h : s.accepts op true true e u o) (absent : s.context o n = none) : exec m s = .next (u.answer o .state 0 []) := by
  subst hn
  have gone := (accepts_context h o (Entry.field e 0 1)).trans absent
  rcases row with ⟨rfl, rfl, sized⟩ | ⟨rfl, rfl, sized⟩ | ⟨rfl, rfl, sized⟩
  · rw [exec_crcFeed h sized, crcFeed_of_none gone]
  · rw [exec_crcWrite h sized, crcWrite_of_none gone]
  · exact exec_crcClose_of_none h sized absent

section
variable {c : CrcContext} (found : s.context o (Entry.field e 0 1) = some c)
include found

/-- A context put back under its own number replaces the one of that number. -/
theorem mem_setContext_found {d : CrcContext} (num : d.num = c.num) (crc : u.crc = s.crc) (y : CrcContext) :
    y ∈ (u.setContext d).crc ↔ y = d ∨ (y ∈ s.crc ∧ y.num ≠ Entry.field e 0 1) := by
  obtain ⟨-, hnum, -⟩ := context_eq_some found
  rw [mem_setContext, num, hnum, crc]

theorem crcFeed_folds (h : s.accepts 0x1102 true true e u o) (sized : 2 ≤ (Entry.body e).length ∧ (Entry.body e).length ≤ 4073) :
    ∃ (t : State) (d : CrcContext),
      d = { c with raw := crcFold c.poly c.raw ((Entry.body e).drop 1), bytes := c.bytes + ((Entry.body e).length - 1) } ∧
      exec (.crcFeed e) s = .next (t.answer o .done 0 (leBytes 8 d.bytes)) ∧ t = { u with crc := t.crc } ∧
      (∀ y, y ∈ t.crc ↔ y = d ∨ (y ∈ s.crc ∧ y.num ≠ Entry.field e 0 1)) := by
  refine ⟨_, _, rfl, ?_, ?_, mem_setContext_found found rfl (accepts_crc h)⟩
  · rw [exec_crcFeed h sized, crcFeed_of_some ((accepts_context h ..).trans found), List.length_drop]
  · rfl

theorem crcWrite_sets (h : s.accepts 0x1104 true true e u o) (sized : Entry.size e 9 = true) :
    ∃ (t : State) (d : CrcContext),
      d = { c with raw := if crcOnes c.poly < Entry.field e 1 8 then crcOnes c.poly else Entry.field e 1 8 } ∧
      exec (.crcWrite e) s = .next (t.answer o .done 0 (leBytes 8 d.raw)) ∧ t = { u with crc := t.crc } ∧
      (∀ y, y ∈ t.crc ↔ y = d ∨ (y ∈ s.crc ∧ y.num ≠ Entry.field e 0 1)) := by
  have clamped : min (Entry.field e 1 8) (crcOnes c.poly) =
      if crcOnes c.poly < Entry.field e 1 8 then crcOnes c.poly else Entry.field e 1 8 := by split <;> omega
  refine ⟨_, _, rfl, ?_, ?_, mem_setContext_found found rfl (accepts_crc h)⟩
  · rw [exec_crcWrite h sized, crcWrite_of_some ((accepts_context h ..).trans found), clamped]
  · rfl

theorem crcClose_removes (h : s.accepts 0x1105 true true e u o) (sized : Entry.size e 1 = true) :
    ∃ t : State, exec (.crcClose e) s = .next (t.answer o .done 0 (leBytes 8 (crcFinal c.poly c.raw))) ∧ t = { u with crc := t.crc } ∧
      (∀ y, y ∈ t.crc ↔ y ∈ s.crc ∧ y.num ≠ Entry.field e 0 1) := by
  obtain ⟨-, hnum, -⟩ := context_eq_some found
  refine ⟨_, exec_crcClose_of_some h sized found, rfl, fun y => ?_⟩
  rw [List.mem_filter, bne_iff_ne, hnum, accepts_crc h]

end
end

/-- Settles O50: each clause is what its command does to the table of contexts. -/
theorem crcContextsRunAndClose : Obligations.CrcContextsRunAndClose := by
  intro s u o e n c hn
  have absent := (context_eq_none_iff s o n).2
  refine ⟨fun h sized room => ?_, fun m op row h notOpen => exec_absentContext hn row h (absent notOpen),
    fun h sized => ⟨fun notOpen => ?_, fun found => ?_⟩, fun found => ?_⟩
  · obtain ⟨t, k, code, run, bound, free, lower, rfl, frame, crc⟩ := crcOpen_adds h sized room
    exact ⟨t, k, _, run, bound, free, lower, hn ▸ rfl, frame, crc⟩
  · exact exec_crcRead_of_none h sized (hn ▸ absent notOpen)
  · exact exec_crcRead_of_some h sized (hn ▸ found)
  · obtain ⟨mem, num, own⟩ := context_eq_some found
    subst hn
    refine ⟨mem, num, own, ?_, crcWrite_sets found, crcClose_removes found⟩
    rintro b h rfl least most
    exact crcFeed_folds found h ⟨least, most⟩

/-- Settles O51: with no number free, crc.open opens nothing, and its refusal waits as the last batch. -/
theorem sixtyFifthContextRefused : Obligations.SixtyFifthContextRefused := by
  intro s u o e h sized full
  have noneFree := (accepts_freeContext h).trans ((freeContext_eq_none_iff s).2 full)
  refine ⟨?_, ?_, ?_⟩
  · rw [exec_crcOpen h sized, crcOpen_of_full noneFree]
  · rw [recordBatch_crc, answer_crc, accepts_crc h]
  · show (u.answer o .limit 0 []).recorder.pending ++ _ = _
    rw [answer_recorder, accepts_recorder h]

end Sys2Proof.Laws
end

section
/-! The module at reset (R55, R300, R304, R306, R317) and its parameters: defaults, ranges, and what a write stores (R259, R313, R315). -/

namespace Sys2Proof.Laws

open Sys2Proof Sys2Proof.Machine

/-! ### Parameters -/

/-- Sorting keeps the first element of a key, where elements of one key stand equal in the order. -/
theorem find?_sortInsert {α : Type} {le : α → α → Bool} {p : α → Bool} {x : α} (tie : ∀ y, p x = true → p y = true → le x y = true) :
    ∀ l : List α, (sortInsert le x l).find? p = (x :: l).find? p
  | [] => rfl
  | y :: l => by
    unfold sortInsert
    split
    · rfl
    · next later =>
      rw [List.find?_cons, find?_sortInsert tie l, List.find?_cons, List.find?_cons, List.find?_cons]
      cases hx : p x with
      | false => rfl
      | true =>
        have other : p y = false := Bool.eq_false_iff.2 fun hy => later (tie y hx hy)
        rw [other]

theorem find?_sortBy {α : Type} {le : α → α → Bool} {p : α → Bool} (tie : ∀ x y, p x = true → p y = true → le x y = true) :
    ∀ l : List α, (sortBy le l).find? p = l.find? p
  | [] => rfl
  | x :: l => by
    show (sortInsert le x (sortBy le l)).find? p = _
    rw [find?_sortInsert (tie x), List.find?_cons, find?_sortBy tie l, List.find?_cons]

/-- The cells of one parameter, in a list of cells in the order of IDs. -/
theorem find?_cells (l : List ParamCell) (k : Nat) :
    (sortBy (fun a b => decide (a.id ≤ b.id)) l).find? (fun c => c.id == k) = l.find? (fun c => c.id == k) :=
  find?_sortBy (fun _ _ hx hy => decide_eq_true ((beq_iff_eq.1 hx).trans (beq_iff_eq.1 hy).symm).le) l

@[simp] theorem cell_id (s : State) (id : Nat) : (s.cell id).id = id := by
  unfold State.cell
  cases h : s.params.find? (fun c => c.id == id) with
  | none => rfl
  | some c => exact beq_iff_eq.1 (List.find?_some (p := fun c : ParamCell => c.id == id) h)

theorem setCell_cell_self (s : State) (c : ParamCell) : (s.setCell c).cell c.id = c := by
  have fresh : (s.params.filter (fun d => d.id != c.id)).find? (fun d => d.id == c.id) = none := by
    simp [List.find?_eq_none]
  unfold State.cell State.setCell
  dsimp only
  rw [find?_cells, List.find?_append, fresh]
  simp

theorem setCell_cell_ne (s : State) (c : ParamCell) {k : Nat} (h : k ≠ c.id) : (s.setCell c).cell k = s.cell k := by
  have kept : (s.params.filter (fun d => d.id != c.id)).find? (fun d => d.id == k) = s.params.find? (fun d => d.id == k) := by
    rw [List.find?_filter]
    congr 1
    funext d
    by_cases hd : d.id = k
    · simp [hd, h]
    · simp [hd]
  have other : [c].find? (fun d => d.id == k) = none := by simp [h.symm]
  unfold State.cell State.setCell
  dsimp only
  rw [find?_cells, List.find?_append, kept, other, Option.or_none]

/-- A write stores the effective value, and leaves the value in use and every other parameter (R315). -/
theorem store_cell (u : State) (id v : Nat) :
    (u.store id v).stored id = effectiveParam id v ∧ (u.store id v).inUse id = u.inUse id ∧
    ∀ k, k ≠ id → (u.store id v).stored k = u.stored k ∧ (u.store id v).inUse k = u.inUse k := by
  have own : (u.store id v).cell id = { u.cell id with stored := effectiveParam id v } := by
    have := setCell_cell_self u { u.cell id with stored := effectiveParam id v }
    rwa [show ({ u.cell id with stored := effectiveParam id v } : ParamCell).id = id from cell_id u id] at this
  have others : ∀ k, k ≠ id → (u.store id v).cell k = u.cell k := fun k hk =>
    setCell_cell_ne u _ (fun e => hk (e.trans (cell_id u id)))
  unfold State.stored State.inUse
  rw [own]
  exact ⟨rfl, rfl, fun k hk => by rw [others k hk]; exact ⟨rfl, rfl⟩⟩

/-- At reset every writable parameter stands at its default, stored and in use. -/
theorem reset_param {id lo hi d : Nat} (h : writableParam id = some (lo, hi, d)) : State.reset.inUse id = d ∧ State.reset.stored id = d := by
  have cell : State.reset.cell id = { id := id, stored := ((writableParam id).map (fun p => p.2.2)).getD 0,
                                      inUse := ((writableParam id).map (fun p => p.2.2)).getD 0 } := rfl
  unfold State.inUse State.stored
  rw [cell, h]
  exact ⟨rfl, rfl⟩

theorem clamp_bounds {lo hi : Nat} (h : lo ≤ hi) (v : Nat) : lo ≤ clamp lo hi v ∧ clamp lo hi v ≤ hi := by unfold clamp; omega

theorem clamp_of_mem {lo hi v : Nat} (h : lo ≤ v) (g : v ≤ hi) : clamp lo hi v = v := by unfold clamp; omega

/-- What holds of each row of a table holds of the row that is found. -/
theorem row_of_ite {α : Type} {P : α → Prop} {c : Prop} [Decidable c] {a : α} {rest : Option α} (ha : P a)
    (hrest : ∀ p, rest = some p → P p) (p : α) (h : (if c then some a else rest) = some p) : P p := by
  split at h
  · cases h; exact ha
  · exact hrest p h

theorem writableParam_default {id lo hi d : Nat} (h : writableParam id = some (lo, hi, d)) : lo ≤ d ∧ d ≤ hi := by
  have rows : ∀ p : Nat × Nat × Nat, writableParam id = some p → p.1 ≤ p.2.2 ∧ p.2.2 ≤ p.2.1 := by
    unfold writableParam
    repeat refine row_of_ite (by decide) ?_
    intro p missing
    cases missing
  exact rows _ h

theorem nearestBaud_mem (v : Nat) : nearestBaud v ∈ [9600, 19200, 38400, 57600, 115200] := by
  unfold nearestBaud
  refine List.foldlRecOn (motive := fun best => best ∈ [9600, 19200, 38400, 57600, 115200]) _ _ List.mem_cons_self
    fun best hbest b hb => ?_
  dsimp only
  split
  · exact List.mem_cons_of_mem _ hb
  · exact hbest

theorem nearestBaud_of_mem {v : Nat} (h : v ∈ [9600, 19200, 38400, 57600, 115200]) : nearestBaud v = v := by
  fin_cases h <;> decide

section
variable {id lo hi d : Nat} (h : writableParam id = some (lo, hi, d))
include h

theorem effectiveParam_eq (v : Nat) : effectiveParam id v =
    if id = 0x0C01 then clamp lo hi v / 1000 * 1000
    else if id = 0x1004 ∨ id = 0x1005 then nearestBaud v
    else if id = 0x1006 ∨ id = 0x1007 then (if v ≤ hi then v else d)
    else clamp lo hi v := by
  unfold effectiveParam; rw [h]

/-- The effective value is a value of the parameter's range. -/
theorem effectiveParam_bounds (v : Nat) : lo ≤ effectiveParam id v ∧ effectiveParam id v ≤ hi := by
  obtain ⟨low, high⟩ := writableParam_default h
  have range := clamp_bounds (low.trans high) v
  rw [effectiveParam_eq h]
  split
  · next period =>
    subst period
    cases h
    omega
  · split
    · next baud =>
      have fixed : lo = 9600 ∧ hi = 115200 := by rcases baud with rfl | rfl <;> cases h <;> exact ⟨rfl, rfl⟩
      have mem := nearestBaud_mem v
      simp only [List.mem_cons, List.not_mem_nil, or_false] at mem
      omega
    · split
      · next enumeration =>
        have least : lo = 0 := by rcases enumeration with rfl | rfl <;> cases h <;> rfl
        split <;> omega
      · exact range

/-- A legal value is its own effective value. -/
theorem effectiveParam_of_legal {v : Nat} (period : id ≠ 0x0C01 ∨ v % 1000 = 0)
    (baud : id ≠ 0x1004 ∧ id ≠ 0x1005 ∨ v ∈ [9600, 19200, 38400, 57600, 115200]) (low : lo ≤ v) (high : v ≤ hi) :
    effectiveParam id v = v := by
  rw [effectiveParam_eq h, clamp_of_mem low high]
  split
  · omega
  · split
    · next isBaud => exact nearestBaud_of_mem (baud.resolve_left (by omega))
    · exact ite_self _

end

/-! ### Registers -/

@[simp] theorem reset_queue (n : Nat) : HostLink.reset.queue n = Queue.reset := by
  show (List.replicate 64 Queue.reset).getD n Queue.reset = Queue.reset
  rw [List.getD_eq_getElem?_getD, List.getElem?_replicate]
  split <;> rfl

@[simp] theorem reset_qStatus (n : Nat) : HostLink.reset.qStatus n = 0 := by
  unfold HostLink.qStatus
  dsimp only
  rw [reset_queue]
  split <;> rfl

/-- Every queue block reads its configuration default and 0 elsewhere (R306, Table 15-7). -/
theorem reset_readQueueBlock {n k : Nat} (hn : n < 64) (hk : k < 0x40) :
    State.reset.readRegister (0x40 * n + k) = if k = 8 then 0x46 else 0 := by
  have block : 0x40 * n + k < 0x1000 := by omega
  have queue : (0x40 * n + k) / 0x40 = n := by omega
  have register : (0x40 * n + k) % 0x40 = k := by omega
  have atReset : (if portQueue n then Queue.reset else State.reset.host.queue n) = Queue.reset :=
    (congrArg _ (reset_queue n)).trans (ite_self _)
  unfold State.readRegister
  dsimp only
  rw [if_pos block, queue, register, atReset]
  split
  case h_6 => exact reset_qStatus n
  case h_7 not8 _ _ _ => rw [if_neg not8]
  all_goals rfl

/-- No session is open at reset, so the privileged window reads 0 (R304). -/
theorem reset_readPrivileged {off : Nat} (h : 0x8000 ≤ off) : State.reset.readRegister off = 0 := by
  unfold State.readRegister
  dsimp only
  rw [if_neg (by omega), if_neg (by omega), if_neg (by omega), if_pos h]
  rfl

theorem reset_evtRoute {i : Nat} (h : i < 64) : nthD State.reset.host.evtRoute i 0 = 0x10101010 := by
  show (List.replicate 64 (0x10101010 : Word32)).getD i 0 = _
  rw [List.getD_eq_getElem _ _ (by rw [List.length_replicate]; exact h), List.getElem_replicate]

/-! ### The invariants -/

theorem reset_withinLimits : State.reset.withinLimits :=
  ⟨Nat.zero_le _, Nat.zero_le _, List.nodup_nil, fun _ h => absurd h List.not_mem_nil⟩

theorem reset_recSound : RecSound State.reset.recorder where
  items _ h := absurd h List.not_mem_nil
  clear _ h := by cases h

/-- Settles O9: the empty tables of reset meet the invariants, and a parameter without a cell stands at its default. -/
theorem resetMeetsInvariants : Obligations.ResetMeetsInvariants := by
  have block (n k : Nat) (hn : n < 64) (hk : k < 0x40) := reset_readQueueBlock hn hk
  refine ⟨_, rfl, reset_withinLimits, reset_recSound, reset_storesWf, rfl, rfl, fun n hn => ?_, by decide, rfl, rfl, rfl,
    fun off => reset_readPrivileged, fun i => reset_evtRoute, fun n hn => List.mem_range.2 hn, rfl, rfl, fun id lo hi d h => ?_⟩
  · exact ⟨block n 0 hn (by decide), block n 4 hn (by decide), block n 8 hn (by decide), block n 12 hn (by decide),
      block n 16 hn (by decide), block n 20 hn (by decide)⟩
  · obtain ⟨inUse, stored⟩ := reset_param h
    obtain ⟨low, high⟩ := writableParam_default h
    refine ⟨inUse, stored, low, high, fun v => ?_⟩
    obtain ⟨least, most⟩ := effectiveParam_bounds h v
    exact ⟨least, most, effectiveParam_of_legal h, fun u => store_cell u id v⟩

end Sys2Proof.Laws
end

section
/-! The platen: the vote of a copy (R45, R46), when a copy votes (R42, R43, R49), the safe state and its exits (R54, R55), permits and gate
drives (R58, R59), and what a scrub fault leaves (R111). -/

namespace Sys2Proof.Laws

open Sys2Proof Sys2Proof.Machine

/-! ### The safe state -/

/-- The commands whose footprint allows the safe state to be left are those that start the module (R55). -/
theorem footprint_leavesSafe (c : Instr) : (footprint c).testBit 21 = c.starts := by
  cases c <;> simp only [footprint, Instr.starts] <;> decide

/-- Settles O3: a footprint without leave to end the safe state keeps it. -/
theorem safeStateLeftOnlyByStarts : Obligations.SafeStateLeftOnlyByStarts := by
  intro c s t stepped safe notStart
  obtain ⟨u, run, kept⟩ := exec_leads c s
  have front : step { s with pending := c :: s.pending } = exec c s := rfl
  cases stepped.symm.trans (front.trans run)
  exact kept.safe ((footprint_leavesSafe c).trans notStart) safe

/-- Entry into the safe state stores its cause (Table 3-5). -/
theorem enterSafe_platen {s : State} (notSafe : s.platen.safe = false) (cause : Nat) :
    (s.enterSafe cause).platen.safe = true ∧ (s.enterSafe cause).platen.safeCause = cause := by
  unfold State.enterSafe
  rw [if_neg (by rw [notSafe]; decide)]
  dsimp only
  rw [raiseWith_platen]
  exact ⟨rfl, rfl⟩

/-- A vote whose verdicts give a cause ends in the safe state of that cause (R49, R52, R54). -/
theorem finishVote_of_cause {s : State} {cause : Nat} (f : Forme) (notSafe : s.platen.safe = false) (given : s.voteCause = some cause) :
    (s.finishVote f).platen.safe = true ∧ (s.finishVote f).platen.safeCause = cause := by
  obtain ⟨safe, stored⟩ := enterSafe_platen notSafe cause
  have latched (u : State) (out : Tri (List Word64)) : (u.latchOut f out).platen = u.platen := (latchOut_same ..).platen rfl
  unfold State.finishVote
  simp only [notSafe, given, safe, stored, latched, Bool.false_eq_true, if_true, if_false, and_self]

theorem voteCause_of_three {s : State} (three : (lanesWhere s.serving).length = 3) (two : 2 ≤ s.verdicts 3) :
    s.voteCause = some causeNoMajority := by
  unfold State.voteCause
  dsimp only
  rw [if_pos three, if_pos (.inl two)]

theorem voteCause_of_two {s : State} (two : (lanesWhere s.serving).length = 2) (one : 1 ≤ s.verdicts 3) :
    s.voteCause = some causeTwoLanes := by
  unfold State.voteCause
  dsimp only
  rw [if_neg (by omega), if_pos two, if_pos (.inl one)]

/-! ### The vote at one position -/

/-- How many of the lanes must agree for a voted result (Tables 3-2 and 3-3). -/
def votesNeeded (lanes : Nat) : Nat := if lanes = 3 then 2 else lanes

/-- How many lanes have a value. -/
def votesFor (l : List (LaneId × Option Nat)) (v : Option Nat) : Nat := l.countP (fun q => q.2 == v)

/-- A value that enough of the lanes have: what a copy looks for at a position. -/
theorem carries_iff (l : List (LaneId × Option Nat)) (v : Option Nat) :
    (v.isSome && decide (2 ≤ votesNeeded l.length) && decide (votesNeeded l.length ≤ (l.filter (fun q => q.2 == v)).length)) = true ↔
      (∃ x, v = some x) ∧ 2 ≤ votesNeeded l.length ∧ votesNeeded l.length ≤ votesFor l v := by
  rw [Bool.and_eq_true, Bool.and_eq_true, decide_eq_true_iff, decide_eq_true_iff, Option.isSome_iff_exists, and_assoc, votesFor,
    List.countP_eq_length_filter]

/-- Two different values have no more votes together than there are lanes. -/
theorem votesFor_add_le {v w : Option Nat} (h : v ≠ w) (l : List (LaneId × Option Nat)) : votesFor l v + votesFor l w ≤ l.length := by
  rw [List.length_eq_countP_add_countP (fun q : LaneId × Option Nat => q.2 == v)]
  refine Nat.add_le_add_left (List.countP_mono_left fun q _ hw => ?_) _
  rw [beq_iff_eq] at hw
  simpa [hw] using h.symm

/-- A value with the votes needed is voted, since no other value can have them too, and the lanes without it are named. -/
theorem voteValues_of_majority {l : List (LaneId × Option Nat)} {x : Nat} (two : 2 ≤ l.length)
    (h : votesNeeded l.length ≤ votesFor l (some x)) :
    voteValues l = (some x, (l.filter (fun q => q.2 != some x)).map (·.1)) := by
  have need : 2 ≤ votesNeeded l.length ∧ l.length < 2 * votesNeeded l.length := by unfold votesNeeded; split <;> omega
  obtain ⟨q, hq, hx⟩ := List.countP_pos_iff.1 (show 0 < votesFor l (some x) by omega)
  rw [beq_iff_eq] at hx
  unfold voteValues
  dsimp only
  split
  · next p found =>
    have carried := List.find?_some found
    obtain ⟨⟨y, hy⟩, -, many⟩ := (carries_iff l p.2).1 carried
    have same : p.2 = some x := by
      by_contra other
      have := votesFor_add_le other l
      omega
    rw [same]
  · next missing =>
    exact absurd ((carries_iff l q.2).2 ⟨⟨x, hx⟩, need.1, hx ▸ h⟩) (List.find?_eq_none.1 missing q hq)

/-- Without a value that has the votes needed there is no voted result, and no lane is named. -/
theorem voteValues_of_no_majority {l : List (LaneId × Option Nat)} (h : ∀ x, votesFor l (some x) < votesNeeded l.length) :
    voteValues l = (none, []) := by
  unfold voteValues
  dsimp only
  split
  · next p found =>
    have carried := List.find?_some found
    obtain ⟨⟨y, hy⟩, -, many⟩ := (carries_iff l p.2).1 carried
    have := h y
    rw [← hy] at this
    omega
  · rfl

@[simp] theorem votesFor_nil (v : Option Nat) : votesFor [] v = 0 := rfl

@[simp] theorem votesFor_cons (q : LaneId × Option Nat) (l : List (LaneId × Option Nat)) (v : Option Nat) :
    votesFor (q :: l) v = votesFor l v + if q.2 = v then 1 else 0 := by
  unfold votesFor
  rw [List.countP_cons]
  simp only [beq_iff_eq]

section
variable (l1 l2 l3 : LaneId)

theorem voteValues_three_equal (x : Nat) : voteValues [(l1, some x), (l2, some x), (l3, some x)] = (some x, []) := by
  rw [voteValues_of_majority (x := x) (by simp) (by simp [votesNeeded])]
  simp

/-- A lane against two is named, wherever it stands. -/
theorem voteValues_two_of_three {x : Nat} {v : Option Nat} (h : v ≠ some x) :
    voteValues [(l1, v), (l2, some x), (l3, some x)] = (some x, [l1]) ∧
    voteValues [(l1, some x), (l2, v), (l3, some x)] = (some x, [l2]) ∧
    voteValues [(l1, some x), (l2, some x), (l3, v)] = (some x, [l3]) := by
  refine ⟨?_, ?_, ?_⟩ <;>
  · rw [voteValues_of_majority (x := x) (by simp) (by simp [votesNeeded])]
    simp [h]

theorem voteValues_three_different {v1 v2 v3 : Option Nat}
    (h : ∀ y, ¬ (v1 = some y ∧ v2 = some y) ∧ ¬ (v1 = some y ∧ v3 = some y) ∧ ¬ (v2 = some y ∧ v3 = some y)) :
    voteValues [(l1, v1), (l2, v2), (l3, v3)] = (none, []) := by
  refine voteValues_of_no_majority fun x => ?_
  obtain ⟨h12, h13, h23⟩ := h x
  simp only [votesFor_cons, votesFor_nil, votesNeeded, List.length_cons, List.length_nil]
  grind

theorem voteValues_two_equal (x : Nat) : voteValues [(l1, some x), (l2, some x)] = (some x, []) := by
  rw [voteValues_of_majority (x := x) (by simp) (by simp [votesNeeded])]
  simp

theorem voteValues_two_different {v1 v2 : Option Nat} (h : ∀ y, ¬ (v1 = some y ∧ v2 = some y)) :
    voteValues [(l1, v1), (l2, v2)] = (none, []) := by
  refine voteValues_of_no_majority fun x => ?_
  have apart := h x
  simp only [votesFor_cons, votesFor_nil, votesNeeded, List.length_cons, List.length_nil]
  grind

end

/-! ### The vote of a copy -/

theorem member_ofMembers : ∀ (l : List Bool) (i : Nat), member (ofMembers l) i = l.getD i false
  | [], i => Nat.zero_testBit i
  | b :: l, 0 => by cases b <;> simp [ofMembers, member, b2n, Nat.testBit_zero]
  | b :: l, i + 1 => by
    have half : ofMembers (b :: l) / 2 = ofMembers l := by cases b <;> simp [ofMembers, b2n]; omega
    rw [List.getD_cons_succ, ← member_ofMembers l i]
    unfold member
    rw [Nat.testBit_succ, half]

/-- A copy votes every position, and bit 3 of its verdict stands where one has no voted result (R45, R49). -/
theorem copyVote_voted (c : Copy) (f : Forme) (now : Nat) (own : LaneId) (vs : List LaneId) :
    ∃ xs, (c.vote f now own vs).voted = some xs ∧
      xs = (indexed f.galley).map (fun q => (voteValues (c.values f now own vs q.1 q.2)).1) ∧
      (none ∈ xs → member (c.vote f now own vs).verdict 3 = true) := by
  refine ⟨_, rfl, List.map_map, fun missing => ?_⟩
  obtain ⟨r, hr, unvoted⟩ := List.mem_map.1 missing
  unfold Copy.vote
  dsimp only
  rw [member_ofMembers]
  refine Bool.or_eq_true_iff.2 (.inl (List.any_eq_true.2 ⟨r, hr, ?_⟩))
  rw [unvoted]; rfl

/-- Settles O17: two lanes outvote a third and name it, three different ones vote nothing, and two copies without majority give a cause. -/
theorem voteOfThreeLanes : Obligations.VoteOfThreeLanes := by
  intro l1 l2 l3 x v v1 v2 v3
  exact ⟨voteValues_three_equal l1 l2 l3 x, voteValues_two_of_three l1 l2 l3, voteValues_three_different l1 l2 l3, copyVote_voted,
    fun s f three two notSafe => finishVote_of_cause f notSafe (voteCause_of_three three two)⟩

/-- Settles O18: one lane cannot outvote the other, and one copy without a voted result gives a cause. -/
theorem voteOfTwoLanes : Obligations.VoteOfTwoLanes := by
  intro l1 l2 x v1 v2
  refine ⟨voteValues_two_equal l1 l2 x, fun apart => ?_, fun c f now i own vs g => ?_,
    fun s f two one notSafe => finishVote_of_cause f notSafe (voteCause_of_two two one)⟩
  · rw [voteValues_two_different l1 l2 apart]
  · unfold Copy.values
    simp only [List.map_map, Function.comp_def, List.map_id']

/-! ### When a copy votes -/

section
variable {s : State} {f : Forme}

theorem all_lanesWhere (p q : LaneId → Bool) : (lanesWhere p).all q = true ↔ ∀ l, p l = true → q l = true := by
  unfold lanesWhere
  rw [List.all_eq_true]
  constructor
  · intro h l hp
    exact h l (List.mem_filter.2 ⟨by cases l <;> decide, hp⟩)
  · intro h l hl
    exact h l (List.mem_filter.1 hl).2

/-- One copy's vote changes no other copy. -/
theorem copyVote_copies (s : State) (f : Forme) (copy : LaneId) : (s.copyVote f copy).platen.copies =
    s.platen.copies.upd copy (fun k => k.vote f s.net.count copy (lanesWhere s.serving)) := endVote_copies ..

/-- A vote that waits for another copy goes on waiting. -/
theorem endVote_of_missing {k : LaneId} (inService : s.laneIn k = true) (missing : (s.platen.copies.get k).voted = none) :
    s.endVote f = s := by
  refine if_neg fun ⟨_, _, all⟩ => ?_
  have voted := (all_lanesWhere ..).1 all k inService
  rw [missing] at voted
  cases voted

theorem endVote_of_all (cycleOpen : s.platen.cycleOpen = true) (running : s.platen.complete = false)
    (all : ∀ k, s.laneIn k = true → (s.platen.copies.get k).voted.isSome = true) : s.endVote f = s.noteVoted.finishVote f :=
  if_pos ⟨cycleOpen, by rw [running]; rfl, (all_lanesWhere ..).2 all⟩

theorem copyOpen_cycleOpen {copy : LaneId} (h : s.copyOpen copy = true) : s.platen.cycleOpen = true := by
  unfold State.copyOpen at h
  simp only [Bool.and_eq_true] at h
  obtain ⟨⟨⟨-, cycleOpen⟩, -⟩, -⟩ := h
  exact cycleOpen

/-- A galley that reaches an open copy is stored, and the last of the lanes that work makes the copy vote (R43). -/
theorem deliver_open {copy lane : LaneId} {ws : List Word64} (bad : List (Nat × Word64)) (sent : (s.lanes.get lane).galley = some ws)
    (isOpen : s.copyOpen copy = true) (inService : s.laneIn lane = true) {u : State}
    (hu : u = { s with platen := { s.platen with copies := s.platen.copies.upd copy (fun k =>
      { k with got := k.got.set lane (some (arrivedGalley ws bad)) }) } }) :
    ((∃ k, s.serving k = true ∧ k ≠ lane ∧ (s.platen.copies.get copy).got.get k = none) → s.deliver f copy lane bad = u) ∧
    ((∀ k, s.serving k = true → k ≠ lane → ((s.platen.copies.get copy).got.get k).isSome = true) →
      s.deliver f copy lane bad = u.copyVote f copy) := by
  have stored : (u.platen.copies.get copy).got = (s.platen.copies.get copy).got.set lane (some (arrivedGalley ws bad)) := by
    rw [hu]
    exact congrArg Copy.got (get_upd_self ..)
  have serving : u.serving = s.serving := by rw [hu]; rfl
  have complete : (lanesWhere u.serving).all (fun l => ((u.platen.copies.get copy).got.get l).isSome) = true ↔
      ∀ k, s.serving k = true → k ≠ lane → ((s.platen.copies.get copy).got.get k).isSome = true := by
    rw [all_lanesWhere, serving, stored]
    refine forall_congr' fun k => imp_congr_right fun _ => ?_
    by_cases own : k = lane
    · subst own
      rw [get_set_self]
      simp
    · rw [get_set_ne _ _ _ _ own]
      simp [own]
  have delivered : s.deliver f copy lane bad =
      if (lanesWhere u.serving).all (fun l => ((u.platen.copies.get copy).got.get l).isSome) then u.copyVote f copy else u := by
    unfold State.deliver
    rw [sent]
    dsimp only
    rw [if_pos ⟨isOpen, inService⟩]
    subst hu
    rfl
  refine ⟨fun ⟨k, serves, other, missing⟩ => ?_, fun all => delivered.trans (if_pos (complete.2 all))⟩
  refine delivered.trans (if_neg fun all => ?_)
  have got := complete.1 all k serves other
  rw [missing] at got
  cases got

end

/-- Settles O29: a galley that completes a copy's set or the end of the window makes it vote, and the last vote ends the cycle's. -/
theorem galleysMakeTheVote : Obligations.GalleysMakeTheVote := by
  intro s f copy lane bad ws formed isOpen
  have received : exec (.galleyReceived copy lane bad) s = .next (s.deliver f copy lane bad) := by
    show execGalleyReceived copy lane bad s = _
    unfold execGalleyReceived
    rw [formed]
  have closed : exec (.galleyWindowClose copy) s = .next (s.copyVote f copy) := by
    show execGalleyWindowClose copy s = _
    unfold execGalleyWindowClose
    rw [formed]
    exact if_pos isOpen
  refine ⟨fun u hu sent inService => ?_, closed, ?_, fun k other => ?_, ?_, ?_⟩
  · rw [received]
    obtain ⟨waits, votes⟩ := deliver_open (f := f) bad sent isOpen inService hu
    exact ⟨fun missing => congrArg _ (waits missing), fun all => congrArg _ (votes all)⟩
  · rw [copyVote_copies, get_upd_self]
  · rw [copyVote_copies, get_upd_ne _ _ _ _ other]
  · rintro ⟨k, other, inService, missing⟩
    refine ⟨_, endVote_of_missing (k := k) inService ?_⟩
    rw [← missing]
    exact congrArg Copy.voted (get_upd_ne _ _ _ _ other)
  · intro running voted
    have cycleOpen := copyOpen_cycleOpen isOpen
    refine ⟨_, rfl, endVote_of_all cycleOpen running fun k inService => ?_⟩
    by_cases own : k = copy
    · subst own
      rw [show (State.platen _).copies.get k = _ from get_upd_self ..]
      rfl
    · rw [show (State.platen _).copies.get k = _ from get_upd_ne _ _ _ _ own]
      exact voted k own inService

/-! ### Permits, gate drives and the quoin scrubber -/

/-- No switch of a lane without gate drive is closed (R58). -/
theorem switchClosed_of_no_gate {s : State} {l : LaneId} (h : (s.lanes.get l).gate = false) {o sw : Nat} (own : LaneId.ofNum (sw / 2) = l) :
    s.switchClosed o sw = false := by
  unfold State.switchClosed State.drives
  rw [own, h, Bool.false_and]

theorem mem_insertOnce (l : List Nat) (n k : Nat) : k ∈ insertOnce l n ↔ k ∈ l ∨ k = n := by
  unfold insertOnce
  split
  · next h =>
    have listed : n ∈ l := List.contains_iff_mem.1 h
    exact ⟨.inl, fun h => h.elim id fun e => e ▸ listed⟩
  · rw [List.mem_append, List.mem_singleton]

/-- A scrub fault of a row that the lane holds and that is not known yet (R111). -/
theorem scrubFault_of_held {s : State} {l : LaneId} {row : Nat} (running : s.power.running = true) (inService : s.laneIn l = true)
    (held : (kvGet (s.lanes.get l).core.quoin row).isSome = true) (new : row ∉ (s.lanes.get l).badRows) :
    ∃ u : State, s.scrubFault l row = u.recordBatch [recCount (0x0020 + l.num) 5] ∧
      u.lanes = (s.updLane l (fun st => { st with badRows := insertOnce st.badRows row, quoinSound := false })).lanes ∧
      u.req = { s.req with scrubFaults := s.req.scrubFaults.upd l (fun n => sat32 n 1) } ∧
      u.field = s.field ∧ u.platen = s.platen ∧ u.net = s.net ∧ u.host = s.host :=
  ⟨_, if_pos ⟨running, inService, held, by simpa using new⟩, rfl, rfl, rfl, rfl, rfl, rfl⟩

/-- Settles O30: each of the three rows writes one part of the field side or of a lane. -/
theorem permitsGatesAndScrub : Obligations.PermitsGatesAndScrub := by
  intro s l item row
  refine ⟨⟨_, rfl, rfl, fun p => ?_⟩, ⟨_, rfl, rfl, fun o sw own => ?_⟩, fun running inService held new => ?_⟩
  · simp only [List.mem_filter, Bool.not_eq_true', ← Bool.not_eq_true, Bool.and_eq_true, beq_iff_eq]
  · exact switchClosed_of_no_gate (l := l) (by rw [updLane_get_self]) own
  · obtain ⟨u, fault, lanes, req, field, platen, net, host⟩ := scrubFault_of_held running inService held new
    have run : exec (.quoinScrubFault l row) s = .next (s.scrubFault l row) := rfl
    rw [run, fault]
    refine ⟨_, rfl, ?_, ?_, ?_, ?_, ?_, ?_, ?_, ?_, ?_⟩
    all_goals simp only [recordBatch_lanes, recordBatch_req, recordBatch_field, recordBatch_platen, recordBatch_net, recordBatch_host,
      lanes, req, field, platen, net, host, updLane_get_self, get_upd_self]
    · rw [mem_insertOnce]; exact .inr rfl
    · exact fun k other => updLane_get_ne _ _ _ _ other

end Sys2Proof.Laws
end

section
/-! The field side's tests and inputs: dark tests (R60 to R62), axle counting and frequency (R12, R196, R197), wire breaks (R195), and the
procedure for external energy (R205). -/

namespace Sys2Proof.Laws

open Sys2Proof Sys2Proof.Machine

/-! ### Lists and keyed lists -/

theorem mem_withFlag_self (l : List Nat) (n : Nat) (on : Bool) : n ∈ withFlag l n on ↔ on = true := by
  unfold withFlag
  cases on
  · simp [removeAll]
  · simp [mem_insertOnce]

theorem kvGetD_kvUpd_self {α : Type} (l : List (Nat × α)) (k : Nat) (d : α) (g : α → α) :
    kvGetD (kvUpd l k d g) k d = g (kvGetD l k d) := by
  unfold kvUpd
  conv_lhs => unfold kvGetD
  rw [kvGet_kvSet, if_pos rfl]
  rfl

/-! ### Dark tests -/

section
variable (d : Field) (item : Nat) (looked conducting : List Nat)

@[simp] theorem noteStuck_voBad : (d.noteStuck item looked conducting).voBad = d.voBad := rfl

/-- Of the switches that a test looked at, those that conducted are known as stuck closed. -/
theorem mem_noteStuck {n : Nat} (h : n ∈ looked) : (item, n) ∈ (d.noteStuck item looked conducting).stuckClosed ↔ n ∈ conducting := by
  unfold Field.noteStuck
  simp [h]

end

/-- A switch of the output's six conducts, as the sampling and the test judge it. -/
theorem anySwitch_iff (l : List Nat) : (l.any (fun n => decide (n < 6))) = true ↔ ∃ n ∈ l, n < 6 := by simp

section
variable {s : State} {vo : Nat} {d : DarkSample}

/-- Off-pulses seen on other outputs that were on (R61). -/
def crossedOutputs (s : State) (vo : Nat) (d : DarkSample) : List Nat := d.othersOff.filter (fun o => o != vo && s.hasVital o && s.voEnergised o)

theorem mem_testFindings (p : Nat × Nat) : p ∈ s.testFindings vo d ↔
    ((∃ n ∈ d.conducting, n < 6) ∧ p = (3, vo)) ∨ (d.readsOn = true ∧ p = (1, vo)) ∨ ∃ o ∈ crossedOutputs s vo d, p = (2, vo + 16 * o) := by
  unfold State.testFindings
  rw [List.mem_append, List.mem_append, List.mem_map, ← anySwitch_iff, or_assoc]
  refine or_congr ?_ (or_congr ?_ (exists_congr fun o => and_congr_right fun _ => eq_comm))
  · split <;> simp_all
  · split <;> simp_all

theorem testFindings_empty_iff : s.testFindings vo d = [] ↔
    d.readsOn = false ∧ (∀ n ∈ d.conducting, ¬ n < 6) ∧ crossedOutputs s vo d = [] := by
  rw [List.eq_nil_iff_forall_not_mem, List.eq_nil_iff_forall_not_mem (l := crossedOutputs s vo d), ← Bool.not_eq_true]
  simp only [mem_testFindings]
  constructor
  · exact fun h => ⟨fun on => h _ (.inr (.inl ⟨on, rfl⟩)), fun n hn small => h _ (.inl ⟨⟨n, hn, small⟩, rfl⟩),
      fun o ho => h _ (.inr (.inr ⟨o, ho, rfl⟩))⟩
  · rintro ⟨off, sound, alone⟩ p (⟨⟨n, hn, small⟩, -⟩ | ⟨on, -⟩ | ⟨o, ho, -⟩)
    · exact sound n hn small
    · exact off on
    · exact alone o ho

/-- The field side after the test of an output that is on, without a dip of its supply. -/
theorem pulseOutput_field (noDip : d.dip = false) : (s.pulseOutput vo d).field =
    ({ s.field with voBad := withFlag s.field.voBad vo (!(s.testFindings vo d).isEmpty),
                    findings := s.field.findings ++ s.testFindings vo d } : Field).noteStuck vo (List.range 6) d.conducting := by
  unfold State.pulseOutput
  rw [noDip]
  exact recordBatch_field ..

theorem pulseOutput_of_dip (dip : d.dip = true) : s.pulseOutput vo d = s := by
  unfold State.pulseOutput
  rw [dip]
  rfl

/-- The test of an output that is on: what it found stands with the output and waits for the lanes. -/
theorem pulseOutput_facts (noDip : d.dip = false) :
    ((vo ∉ (s.pulseOutput vo d).field.voBad) ↔ d.readsOn = false ∧ (∀ n ∈ d.conducting, ¬ n < 6) ∧ crossedOutputs s vo d = []) ∧
    (∃ new, (s.pulseOutput vo d).field.findings = s.field.findings ++ new ∧ ((1, vo) ∈ new ↔ d.readsOn = true) ∧
      ((3, vo) ∈ new ↔ ∃ n ∈ d.conducting, n < 6) ∧ (∀ o ∈ crossedOutputs s vo d, (2, vo + 16 * o) ∈ new)) ∧
    (∀ n, n < 6 → ((vo, n) ∈ (s.pulseOutput vo d).field.stuckClosed ↔ n ∈ d.conducting)) := by
  rw [pulseOutput_field noDip]
  refine ⟨?_, ⟨s.testFindings vo d, rfl, ?_, ?_, ?_⟩, fun n small => mem_noteStuck _ _ _ _ (List.mem_range.2 small)⟩
  · rw [noteStuck_voBad, mem_withFlag_self, ← testFindings_empty_iff]
    simp
  · simp [mem_testFindings]
  · simp [mem_testFindings]
  · exact fun o ho => (mem_testFindings _).2 (.inr (.inr ⟨o, ho, rfl⟩))

/-- The sampling of an output that is off. -/
theorem sampleOutput_facts : (s.sampleOutput vo d).field.findings = s.field.findings ∧
    ((vo ∉ (s.sampleOutput vo d).field.voBad) ↔ d.readsOn = false ∧ ∀ n ∈ d.conducting, ¬ n < 6) ∧
    (∀ n, n < 6 → ((vo, n) ∈ (s.sampleOutput vo d).field.stuckClosed ↔ n ∈ d.conducting)) := by
  refine ⟨rfl, ?_, fun n small => mem_noteStuck _ _ _ _ (List.mem_range.2 small)⟩
  show vo ∉ withFlag s.field.voBad vo _ ↔ _
  rw [mem_withFlag_self]
  simp

theorem darkTestOutput_facts (on : s.fieldOn = true) (has : s.hasVital vo = true) (safe : s.platen.safe = false) :
    ∃ t : State, exec (.darkTestOutput vo d) s = .next t ∧ t.lanes = s.lanes ∧
      t.platen = s.platen ∧ t.host = s.host ∧ t.field.permits = s.field.permits ∧
      (s.voEnergised vo = true → d.dip = true → t = s) ∧
      (s.voEnergised vo = true → d.dip = false → ∀ others, others = crossedOutputs s vo d →
        ((vo ∉ t.field.voBad) ↔ d.readsOn = false ∧ (∀ n ∈ d.conducting, ¬ n < 6) ∧ others = []) ∧
        ∃ new, t.field.findings = s.field.findings ++ new ∧ ((1, vo) ∈ new ↔ d.readsOn = true) ∧
          ((3, vo) ∈ new ↔ ∃ n ∈ d.conducting, n < 6) ∧ (∀ o ∈ others, (2, vo + 16 * o) ∈ new)) ∧
      (s.voEnergised vo = false → t.field.findings = s.field.findings ∧
        ((vo ∉ t.field.voBad) ↔ d.readsOn = false ∧ ∀ n ∈ d.conducting, ¬ n < 6)) ∧
      (s.voEnergised vo = false ∨ d.dip = false → ∀ n, n < 6 → ((vo, n) ∈ t.field.stuckClosed ↔ n ∈ d.conducting)) := by
  have run : exec (.darkTestOutput vo d) s = .next (if s.voEnergised vo then s.pulseOutput vo d else s.sampleOutput vo d) :=
    if_pos ⟨on, has, by rw [safe]; rfl⟩
  cases energised : s.voEnergised vo with
  | false =>
    rw [if_neg (Bool.eq_false_iff.1 energised)] at run
    obtain ⟨findings, bad, stuck⟩ := sampleOutput_facts (s := s) (vo := vo) (d := d)
    exact ⟨_, run, rfl, rfl, rfl, rfl, nofun, nofun, fun _ => ⟨findings, bad⟩, fun _ => stuck⟩
  | true =>
    rw [if_pos energised] at run
    have same := pulseOutput_same s vo d
    cases dip : d.dip with
    | true =>
      have kept := pulseOutput_of_dip (s := s) (vo := vo) dip
      refine ⟨_, run, same.lanes rfl, same.platen rfl, same.host rfl, ?_, fun _ _ => kept, nofun, nofun, nofun⟩
      exact congrArg (fun u : State => u.field.permits) kept
    | false =>
      obtain ⟨bad, findings, stuck⟩ := pulseOutput_facts (s := s) (vo := vo) dip
      refine ⟨_, run, same.lanes rfl, same.platen rfl, same.host rfl, ?_, nofun, ?_, nofun, fun _ => stuck⟩
      · rw [pulseOutput_field dip]; rfl
      · rintro - - others rfl
        exact ⟨bad, findings⟩

end

section
variable {s : State} {bank path : Nat} {conducting : List Nat}

/-- A switch of the path conducts. -/
def pathUnsound (path : Nat) (conducting : List Nat) : Bool := (pathSwitches path).any conducting.contains

theorem pathUnsound_iff : pathUnsound path conducting = true ↔ ∃ n ∈ pathSwitches path, n ∈ conducting := by
  unfold pathUnsound
  simp

/-- The sampling of a path of an open bank switch. -/
theorem pathSlot_of_open (isOpen : s.itemOn (12 + bank) = false) : (s.pathSlot bank path conducting).field =
    ({ s.field with pathBad := withFlag s.field.pathBad (3 * bank + path) (pathUnsound path conducting) } : Field).noteStuck
      (12 + bank) (pathSwitches path) conducting := by
  unfold State.pathSlot
  dsimp only
  rw [if_pos (by rw [isOpen]; rfl)]
  rfl

section
variable (closed : s.itemOn (12 + bank) = true)
include closed

/-- On two lanes a closed bank switch is not tested: the skip is counted (R62). -/
theorem pathSlot_of_two (two : s.lanesIn.length < 3) :
    (s.pathSlot bank path conducting).field = { s.field with skips := sat32 s.field.skips 1 } := by
  unfold State.pathSlot
  dsimp only
  rw [if_neg (by rw [closed]; decide), if_pos two]
  exact recordBatch_field ..

/-- The test of a path of a closed bank switch. -/
theorem pathSlot_of_closed (three : ¬ s.lanesIn.length < 3) : (s.pathSlot bank path conducting).field =
    ({ s.field with pathBad := withFlag s.field.pathBad (3 * bank + path) (pathUnsound path conducting),
                    findings := s.field.findings ++ (if pathUnsound path conducting then [(4, bank)] else []) } : Field).noteStuck
      (12 + bank) (pathSwitches path) conducting := by
  unfold State.pathSlot
  dsimp only
  rw [if_neg (by rw [closed]; decide), if_neg three]
  exact recordBatch_field ..

end

theorem darkTestBankPath_facts (on : s.fieldOn = true) (vital : 4 ≤ bank) (has : s.hasBank bank = true) (isPath : path < 3)
    (safe : s.platen.safe = false) :
    ∃ (t : State) (bad : Bool), exec (.darkTestBankPath bank path conducting) s = .next t ∧
        (bad = true ↔ ∃ n ∈ pathSwitches path, n ∈ conducting) ∧
        t.field.permits = s.field.permits ∧ t.lanes = s.lanes ∧
        (s.itemOn (12 + bank) = false ∨ s.lanesIn.length = 3 → ((3 * bank + path) ∈ t.field.pathBad ↔ bad = true)) ∧
        (s.itemOn (12 + bank) = true → s.lanesIn.length = 3 → t.field.findings = s.field.findings ++ (if bad then [(4, bank)] else [])) ∧
        (s.itemOn (12 + bank) = true → s.lanesIn.length < 3 → t.field.skips = sat32 s.field.skips 1 ∧ t.field.pathBad = s.field.pathBad) := by
  have run : exec (.darkTestBankPath bank path conducting) s = .next (s.pathSlot bank path conducting) :=
    if_pos ⟨on, vital, has, isPath, by rw [safe]; rfl⟩
  refine ⟨_, pathUnsound path conducting, run, pathUnsound_iff, ?_, (pathSlot_same ..).lanes rfl, ?_⟩
  · cases closed : s.itemOn (12 + bank) with
    | false => rw [pathSlot_of_open closed]; rfl
    | true =>
      by_cases two : s.lanesIn.length < 3
      · rw [pathSlot_of_two closed two]
      · rw [pathSlot_of_closed closed two]; rfl
  · cases closed : s.itemOn (12 + bank) with
    | false =>
      rw [pathSlot_of_open closed]
      exact ⟨fun _ => mem_withFlag_self .., nofun, nofun⟩
    | true =>
      by_cases two : s.lanesIn.length < 3
      · rw [pathSlot_of_two closed two]
        exact ⟨fun tested => tested.elim nofun (by omega), by omega, fun _ _ => ⟨rfl, rfl⟩⟩
      · rw [pathSlot_of_closed closed two]
        exact ⟨fun _ => mem_withFlag_self .., fun _ _ => rfl, by omega⟩

end

/-! ### Axle counting -/

/-- The pulse of the first system is long enough to be one (R196). -/
def firstSounds (h : HeadRec) (p : AxlePulse) : Bool := decide (h.minPulse ≤ p.pulseUs)

/-- The pulse of the other system is long enough, and overlapped the first. -/
def secondSounds (h : HeadRec) (p : AxlePulse) : Bool := decide (h.minPulse ≤ p.otherUs) && !p.lone

/-- The pulse of one system stands alone. -/
def isLone (h : HeadRec) (p : AxlePulse) : Bool := !(firstSounds h p && secondSounds h p)

/-- Both systems ran through in order, with the overlap the head asks for: an axle. -/
def isAxle (h : HeadRec) (p : AxlePulse) : Bool := p.complete && !isLone h p && decide (h.overlap ≤ p.overlapUs)

/-- A lone pulse, or a sequence that ended without being an axle. -/
def breaksSequence (h : HeadRec) (p : AxlePulse) : Bool := isLone h p || (p.complete && !isAxle h p)

/-- The gap to the previous pulse is below what the head's highest rate leaves. -/
def tooFast (h : HeadRec) (p : AxlePulse) : Bool := decide (p.gapUs * h.maxFreq < 1000000) || decide (p.gapUs < 100)

section
variable (d : Field) (even : Nat) (up : Bool) (miss : Nat)

/-- The first counter moves by one axle unless it is the one that misses it (R12). -/
theorem countAxle_counts : (miss ≠ 1 → kvGetD (d.countAxle even up miss).counts even 0 =
      (kvGetD d.counts even 0 + if up then 1 else 65535) % 65536) ∧ (miss = 1 → (d.countAxle even up miss).counts = d.counts) := by
  unfold Field.countAxle
  refine ⟨fun takes => ?_, fun misses => if_pos misses⟩
  dsimp only
  rw [if_neg takes, kvGetD_kvUpd_self]

theorem countAxle_counts2 : (miss ≠ 2 → kvGetD (d.countAxle even up miss).counts2 even 0 =
      (kvGetD d.counts2 even 0 + if up then 1 else 65535) % 65536) ∧ (miss = 2 → (d.countAxle even up miss).counts2 = d.counts2) := by
  unfold Field.countAxle
  refine ⟨fun takes => ?_, fun misses => if_pos misses⟩
  dsimp only
  rw [if_neg takes, kvGetD_kvUpd_self]

end

section
variable {s : State} {h : HeadRec} {even : Nat} {p : AxlePulse}

theorem firstSounds_iff : firstSounds h p = true ↔ h.minPulse ≤ p.pulseUs := decide_eq_true_iff

theorem secondSounds_iff : secondSounds h p = true ↔ h.minPulse ≤ p.otherUs ∧ p.lone = false := by
  unfold secondSounds
  rw [Bool.and_eq_true, decide_eq_true_iff, Bool.not_eq_true']

theorem isLone_iff : isLone h p = true ↔ firstSounds h p = false ∨ secondSounds h p = false := by
  unfold isLone
  rw [Bool.not_eq_true', Bool.and_eq_false_iff]

theorem isAxle_iff : isAxle h p = true ↔
    p.complete = true ∧ (firstSounds h p = true ∧ secondSounds h p = true) ∧ h.overlap ≤ p.overlapUs := by
  unfold isAxle isLone
  rw [Bool.and_eq_true, Bool.and_eq_true, Bool.not_not, Bool.and_eq_true, decide_eq_true_iff, and_assoc]

theorem tooFast_iff : tooFast h p = true ↔ p.gapUs * h.maxFreq < 1000000 ∨ p.gapUs < 100 := by
  unfold tooFast
  rw [Bool.or_eq_true, decide_eq_true_iff, decide_eq_true_iff]

theorem true_and_false_of_ne {a b : Bool} (h : a ≠ b) : (a = true ∨ b = true) ∧ (a = false ∨ b = false) := by
  cases a <;> cases b <;> simp at h ⊢

/-- Where neither system sounded there was no pulse. -/
theorem axle_of_silence (first : firstSounds h p = false) (second : secondSounds h p = false) : s.axle h even p = s :=
  if_pos (show (!firstSounds h p && !secondSounds h p) = true by rw [first, second]; rfl)

/-- The field side after a pulse pair of which at least one system sounded (R196). -/
theorem axle_field (sounds : firstSounds h p = true ∨ secondSounds h p = true) : ∃ d : Field,
    d = { s.field with rateBad := if tooFast h p then insertOnce s.field.rateBad even else s.field.rateBad,
                       seqBad := if breaksSequence h p then insertOnce s.field.seqBad even else s.field.seqBad } ∧
    (s.axle h even p).field = if isAxle h p then d.countAxle even p.evenLeads p.miss else d := by
  have heard : ¬ (!firstSounds h p && !secondSounds h p) = true := by
    rcases sounds with sounds | sounds <;> simp [sounds]
  have run : s.axle h even p = _ := if_neg heard
  rw [run]
  exact ⟨_, rfl, recordBatch_field ..⟩

/-- A sequence that is no axle leaves both counters. -/
theorem axle_counts_of_no_axle (noAxle : isAxle h p = false) :
    (s.axle h even p).field.counts = s.field.counts ∧ (s.axle h even p).field.counts2 = s.field.counts2 := by
  by_cases sounds : firstSounds h p = true ∨ secondSounds h p = true
  · obtain ⟨d, hd, field⟩ := axle_field (s := s) (even := even) sounds
    rw [field, if_neg (Bool.eq_false_iff.1 noAxle), hd]
    exact ⟨rfl, rfl⟩
  · rw [not_or, Bool.not_eq_true, Bool.not_eq_true] at sounds
    rw [axle_of_silence sounds.1 sounds.2]
    exact ⟨rfl, rfl⟩

theorem axle_rateBad (sounds : firstSounds h p = true ∨ secondSounds h p = true) (fast : tooFast h p = true) :
    even ∈ (s.axle h even p).field.rateBad := by
  obtain ⟨d, hd, field⟩ := axle_field (s := s) (even := even) sounds
  have marked : (s.axle h even p).field.rateBad = d.rateBad := by rw [field]; split <;> rfl
  rw [marked, hd, if_pos fast]
  exact (mem_insertOnce ..).2 (.inr rfl)

theorem axle_seqBad (sounds : firstSounds h p = true ∨ secondSounds h p = true) :
    (s.axle h even p).field.seqBad = if breaksSequence h p then insertOnce s.field.seqBad even else s.field.seqBad := by
  obtain ⟨d, hd, field⟩ := axle_field (s := s) (even := even) sounds
  have marked : (s.axle h even p).field.seqBad = d.seqBad := by rw [field]; split <;> rfl
  rw [marked, hd]

theorem axle_breaks (sounds : firstSounds h p = true ∨ secondSounds h p = true) (broken : breaksSequence h p = true) :
    even ∈ (s.axle h even p).field.seqBad := by
  rw [axle_seqBad sounds, if_pos broken]
  exact (mem_insertOnce ..).2 (.inr rfl)

/-- An axle keeps the sequence member, and moves each counter that does not miss it. -/
theorem axle_of_axle (axle : isAxle h p = true) : (s.axle h even p).field.seqBad = s.field.seqBad ∧
    (∀ n, n = (if p.evenLeads then 1 else 65535) →
      (p.miss ≠ 1 → kvGetD (s.axle h even p).field.counts even 0 = (kvGetD s.field.counts even 0 + n) % 65536) ∧
      (p.miss ≠ 2 → kvGetD (s.axle h even p).field.counts2 even 0 = (kvGetD s.field.counts2 even 0 + n) % 65536)) ∧
    (p.miss = 1 → (s.axle h even p).field.counts = s.field.counts) ∧
    (p.miss = 2 → (s.axle h even p).field.counts2 = s.field.counts2) := by
  obtain ⟨complete, ⟨first, second⟩, -⟩ := isAxle_iff.1 axle
  have whole : breaksSequence h p = false := by simp [breaksSequence, isLone, axle, first, second]
  refine ⟨?_, ?_⟩
  · rw [axle_seqBad (.inl first), if_neg (Bool.eq_false_iff.1 whole)]
  · obtain ⟨d, hd, field⟩ := axle_field (s := s) (even := even) (.inl first)
    obtain ⟨moves, misses⟩ := countAxle_counts d even p.evenLeads p.miss
    obtain ⟨moves2, misses2⟩ := countAxle_counts2 d even p.evenLeads p.miss
    rw [field, if_pos axle]
    subst hd
    refine ⟨?_, misses, misses2⟩
    rintro n rfl
    exact ⟨moves, moves2⟩

theorem axleSequence_facts {f : Forme} {first second : Bool} (on : s.fieldOn = true) (formed : s.forme = some f) (head : f.headOf even = some h)
    (variant : s.ident.variant = .f) (has : f.hasFunc even 3 = true) (hFirst : first = true ↔ h.minPulse ≤ p.pulseUs)
    (hSecond : second = true ↔ h.minPulse ≤ p.otherUs ∧ p.lone = false) :
    ∃ t : State, exec (.axleSequence even p) s = .next t ∧ t.lanes = s.lanes ∧
        (first = false → second = false → t = s) ∧
        (first = true → second = true → p.complete = true → h.overlap ≤ p.overlapUs → t.field.seqBad = s.field.seqBad ∧
          (∀ n, n = (if p.evenLeads then 1 else 65535) →
            (p.miss ≠ 1 → kvGetD t.field.counts even 0 = (kvGetD s.field.counts even 0 + n) % 65536) ∧
            (p.miss ≠ 2 → kvGetD t.field.counts2 even 0 = (kvGetD s.field.counts2 even 0 + n) % 65536)) ∧
          (p.miss = 1 → t.field.counts = s.field.counts) ∧ (p.miss = 2 → t.field.counts2 = s.field.counts2)) ∧
        (first = false ∨ second = false ∨ p.complete = false ∨ p.overlapUs < h.overlap →
          t.field.counts = s.field.counts ∧ t.field.counts2 = s.field.counts2) ∧
        (first ≠ second ∨ (first = true ∧ p.complete = true ∧ p.overlapUs < h.overlap) → even ∈ t.field.seqBad) ∧
        (first = true ∨ second = true → p.gapUs * h.maxFreq < 1000000 ∨ p.gapUs < 100 → even ∈ t.field.rateBad) := by
  obtain rfl : firstSounds h p = first := Bool.eq_iff_iff.2 (firstSounds_iff.trans hFirst.symm)
  obtain rfl : secondSounds h p = second := Bool.eq_iff_iff.2 (secondSounds_iff.trans hSecond.symm)
  have run : exec (.axleSequence even p) s = .next (s.axle h even p) := by
    show execAxleSequence even p s = _
    unfold execAxleSequence
    rw [formed]
    dsimp only
    rw [head]
    exact if_pos ⟨on, variant, has⟩
  refine ⟨_, run, (axle_same ..).lanes rfl, axle_of_silence, fun first second complete overlap => ?_, fun lacks => ?_, fun broken => ?_,
    fun sounds fast => axle_rateBad sounds (tooFast_iff.2 fast)⟩
  · exact axle_of_axle (isAxle_iff.2 ⟨complete, ⟨first, second⟩, overlap⟩)
  · refine axle_counts_of_no_axle (Bool.eq_false_iff.2 fun axle => ?_)
    obtain ⟨complete, ⟨first, second⟩, overlap⟩ := isAxle_iff.1 axle
    simp only [complete, first, second, Bool.true_eq_false, false_or] at lacks
    omega
  · rcases broken with apart | ⟨first, complete, short⟩
    · obtain ⟨sounds, alone⟩ := true_and_false_of_ne apart
      exact axle_breaks sounds (by rw [breaksSequence, isLone_iff.2 alone, Bool.true_or])
    · have noAxle : isAxle h p = false := Bool.eq_false_iff.2 fun axle => by
        obtain ⟨-, -, overlap⟩ := isAxle_iff.1 axle
        omega
      exact axle_breaks (.inl first) (by simp [breaksSequence, complete, noAxle])

end

/-! ### Frequency and wire breaks -/

section
variable {s : State} {f : Forme} {ch pulse period since miss : Nat}

/-- A pulse below 40 µs is no pulse; it marks its channel (R197). -/
theorem frequencyPulse_of_short (short : pulse < 40) : (s.frequencyPulse ch ⟨pulse, period, since⟩ miss).field =
    { s.field with freqBad := insertOnce s.field.freqBad ch } := by
  unfold State.frequencyPulse
  rw [if_pos short]
  exact recordBatch_field ..

/-- A period joins the record of each counter that does not miss it, with the time since its edge (R12, R197). -/
theorem frequencyPulse_of_long (long : 40 ≤ pulse) : (s.frequencyPulse ch ⟨pulse, period, since⟩ miss).field =
    { s.field with
      freqBad := if decide (period < 100) then insertOnce s.field.freqBad ch else s.field.freqBad,
      periods := if miss = 1 then s.field.periods else
        kvUpd s.field.periods ch [] (fun l => (-((1000 * since : Nat) : Int), period) :: l),
      periods2 := if miss = 2 then s.field.periods2 else
        kvUpd s.field.periods2 ch [] (fun l => (-((1000 * since : Nat) : Int), period) :: l) } := by
  unfold State.frequencyPulse
  rw [if_neg (Nat.not_lt.2 long)]
  exact recordBatch_field ..

theorem frequencyPulse_facts (on : s.fieldOn = true) (formed : s.forme = some f) (variant : s.ident.variant = .f)
    (has : f.hasFunc ch 4 = true) :
    ∃ (t : State) (entry : Int × Nat), exec (.frequencyPulse ch ⟨pulse, period, since⟩ miss) s = .next t ∧
      entry = (-((1000 * since : Nat) : Int), period) ∧
      t.lanes = s.lanes ∧ (pulse < 40 → ch ∈ t.field.freqBad ∧ t.field.periods = s.field.periods ∧ t.field.periods2 = s.field.periods2) ∧
      (40 ≤ pulse → (miss ≠ 1 → kvGetD t.field.periods ch [] = entry :: kvGetD s.field.periods ch []) ∧
        (miss ≠ 2 → kvGetD t.field.periods2 ch [] = entry :: kvGetD s.field.periods2 ch []) ∧
        (miss = 1 → t.field.periods = s.field.periods) ∧ (miss = 2 → t.field.periods2 = s.field.periods2) ∧
        (period < 100 → ch ∈ t.field.freqBad) ∧ (100 ≤ period → t.field.freqBad = s.field.freqBad)) := by
  have run : exec (.frequencyPulse ch ⟨pulse, period, since⟩ miss) s = .next (s.frequencyPulse ch ⟨pulse, period, since⟩ miss) := by
    show execFrequencyPulse ch ⟨pulse, period, since⟩ miss s = _
    unfold execFrequencyPulse
    rw [formed]
    exact if_pos ⟨on, variant, has⟩
  refine ⟨_, _, run, rfl, (frequencyPulse_same ..).lanes rfl, fun short => ?_, fun long => ?_⟩
  · rw [frequencyPulse_of_short short]
    exact ⟨(mem_insertOnce ..).2 (.inr rfl), rfl, rfl⟩
  · rw [frequencyPulse_of_long long]
    refine ⟨fun takes => ?_, fun takes => ?_, fun misses => if_pos misses, fun misses => if_pos misses, fun fast => ?_, fun slow => ?_⟩
    · dsimp only; rw [if_neg takes, kvGetD_kvUpd_self]
    · dsimp only; rw [if_neg takes, kvGetD_kvUpd_self]
    · dsimp only; rw [if_pos (decide_eq_true fast)]; exact (mem_insertOnce ..).2 (.inr rfl)
    · exact if_neg (by rw [decide_eq_true_iff]; omega)

theorem wireBreak_facts (on : s.fieldOn = true) (formed : s.forme = some f) (variant : s.ident.variant = .l) (has : f.hasFunc ch 5 = true) :
    ∃ t : State, exec (.wireBreak ch) s = .next t ∧ t.lanes = s.lanes ∧
      t.field = { s.field with lineBad := insertOnce s.field.lineBad ch } := by
  have run : exec (.wireBreak ch) s =
      .next ((s.updField (fun d => { d with lineBad := insertOnce d.lineBad ch })).recordBatch [recChannel ch 0]) := by
    show execWireBreak ch s = _
    unfold execWireBreak
    rw [formed]
    exact if_pos ⟨on, variant, has⟩
  exact ⟨_, run, rfl, rfl⟩

end

/-! ### The procedure for external energy -/

section
variable {e : Env} {v : Ev} {vo bank : Nat}

/-- An output commanded off reads on, and is not blocked yet (step 1 of Table 10-8). -/
def misreads (e : Env) (v : Ev) (vo : Nat) : Prop := v.voOff e vo = true ∧ v.voReads e vo = true ∧ vo ∉ v.core.voBlocked

theorem judgeReadback_of_misreads (h : misreads e v vo) : v.judgeReadback e vo = (v.holdFor vo).extEnergised vo 0 := by
  obtain ⟨off, reads, free⟩ := h
  exact if_pos ⟨off, reads, by simpa using free⟩

theorem judgeReadback_of_not_misreads (h : ¬ misreads e v vo) : v.judgeReadback e vo = v :=
  if_neg fun ⟨off, reads, free⟩ => h ⟨off, reads, by simpa using free⟩

theorem foldl_judgeReadback_of_none {l : List Nat} (h : ∀ k ∈ l, ¬ misreads e v k) : l.foldl (Ev.judgeReadback e) v = v :=
  List.foldlRecOn (motive := fun w => w = v) l _ rfl fun _ same k hk => by
    rw [same]; exact judgeReadback_of_not_misreads (h k hk)

/-- The hold of a bank changes no readback, so a fold over outputs of which one misreads judges that one. -/
theorem foldl_judgeReadback_of_one {l : List Nat} (once : l.Nodup) (hvo : vo ∈ l) (h : misreads e v vo)
    (only : ∀ k ∈ l, misreads e v k → k = vo) : l.foldl (Ev.judgeReadback e) v = (v.holdFor vo).extEnergised vo 0 := by
  obtain ⟨before, after, rfl⟩ := List.append_of_mem hvo
  rw [List.nodup_middle, List.nodup_cons, List.mem_append, not_or] at once
  obtain ⟨⟨notBefore, notAfter⟩, -⟩ := once
  have idle : ∀ k ∈ before, ¬ misreads e v k := fun k hk bad =>
    notBefore (only k (List.mem_append_left _ hk) bad ▸ hk)
  have idleAfter : ∀ k ∈ after, ¬ misreads e ((v.holdFor vo).extEnergised vo 0) k := fun k hk bad =>
    notAfter (only k (List.mem_append_right _ (List.mem_cons_of_mem _ hk)) bad ▸ hk)
  rw [List.foldl_append, foldl_judgeReadback_of_none idle, List.foldl_cons, judgeReadback_of_misreads h,
    foldl_judgeReadback_of_none idleAfter]

/-- A bank that is not held yet is held for the output alone (step 2 of Table 10-8). -/
theorem holdFor_of_free (free : ∀ q ∈ v.core.holds, q.bank ≠ bankOf vo) : v.holdFor vo =
    { v with core := { v.core with holds := v.core.holds ++ [{ bank := bankOf vo, vos := [vo], strobes := 0 }] } } := by
  have unheld : ¬ v.core.holds.any (fun q => q.bank == bankOf vo) = true := by simpa using free
  unfold Ev.holdFor
  dsimp only
  rw [if_neg unheld]

/-- The outputs that the procedure looks at. -/
theorem mem_bankOutputs (k : Nat) : k ∈ (List.range 16).filter (fun o => bankOf o == bank) ↔ k < 16 ∧ bankOf k = bank := by
  rw [List.mem_filter, List.mem_range, beq_iff_eq]

theorem bankProcedure_of_idle (h : e.safe = true ∨ (∃ q ∈ v.core.holds, q.bank = bank) ∨
    ∀ k, k < 16 → bankOf k = bank → ¬ misreads e v k) : v.bankProcedure e bank = v := by
  unfold Ev.bankProcedure
  split
  · rfl
  · next runs =>
    rw [not_or] at runs
    rcases h with safe | held | sound
    · exact absurd safe runs.1
    · exact absurd (by simpa using held) runs.2
    · refine foldl_judgeReadback_of_none fun k hk => ?_
      obtain ⟨small, own⟩ := (mem_bankOutputs k).1 hk
      exact sound k small own

theorem bankProcedure_of_one (notSafe : e.safe = false) (free : ∀ q ∈ v.core.holds, q.bank ≠ bank) (small : vo < 16) (own : bankOf vo = bank)
    (bad : misreads e v vo) (only : ∀ k, k < 16 → bankOf k = bank → misreads e v k → k = vo) :
    v.bankProcedure e bank =
      ({ v with core := { v.core with holds := v.core.holds ++ [{ bank := bank, vos := [vo], strobes := 0 }] } } : Ev).extEnergised vo 0 := by
  subst own
  have runs : ¬ (e.safe = true ∨ v.core.holds.any (fun q => q.bank == bankOf vo) = true) := by
    rw [notSafe]; simpa using free
  unfold Ev.bankProcedure
  rw [if_neg runs, foldl_judgeReadback_of_one (List.nodup_range.filter _) ((mem_bankOutputs vo).2 ⟨small, rfl⟩) bad ?_, holdFor_of_free free]
  intro k hk
  obtain ⟨smallK, ownK⟩ := (mem_bankOutputs k).1 hk
  exact only k smallK ownK

/-! ### A hold at a strobe -/

/-- A hold with one output, the only one, and what stands once it has ended. -/
theorem judgeHold_of_off {x n : Nat} (status : v.bankStatus e bank = some x) (off : member x 11 = false)
    (alone : v.core.holds = [{ bank := bank, vos := [vo], strobes := n }]) :
    v.judgeHold e { bank := bank, vos := [vo], strobes := n } =
      ({ v with core := { v.core with holds := [] } } : Ev).judgeChannel bank vo (v.voReads e vo) := by
  unfold Ev.judgeHold
  dsimp only
  rw [status, alone]
  dsimp only
  rw [off]
  simp

/-- The bank gives no status that reads its rail off. -/
def railNotOff (e : Env) (v : Ev) (bank : Nat) : Prop :=
  v.bankStatus e bank = none ∨ ∃ x, v.bankStatus e bank = some x ∧ member x 11 = true

theorem judgeHold_of_not_off {n : Nat} (rail : railNotOff e v bank) (alone : v.core.holds = [{ bank := bank, vos := [vo], strobes := n }]) :
    v.judgeHold e { bank := bank, vos := [vo], strobes := n } =
      if 2 ≤ n then ({ v with core := { v.core with holds := [] } } : Ev).judgeChannel bank vo false
      else { v with core := { v.core with holds := [{ bank := bank, vos := [vo], strobes := n + 1 }] } } := by
  unfold Ev.judgeHold
  dsimp only
  rcases rail with missing | ⟨x, status, on⟩
  · rw [missing, alone]
    simp
  · rw [status, alone]
    dsimp only
    rw [on]
    simp

end

/-- Settles O37: each row of the field side writes what it found, and the procedure for external energy judges one output of a bank. -/
theorem fieldInputsAndDarkTests : Obligations.FieldInputsAndDarkTests := by
  intro s f on formed
  refine ⟨fun vo d has safe => darkTestOutput_facts on has safe,
    fun bank path conducting vital has isPath safe => darkTestBankPath_facts on vital has isPath safe,
    fun even h p first second head variant has hFirst hSecond => axleSequence_facts on formed head variant has hFirst hSecond,
    fun ch pulse period since miss variant has => frequencyPulse_facts on formed variant has,
    fun ch variant has => wireBreak_facts on formed variant has, ?_, ?_⟩
  · rintro l g e v bank bad inService running rfl rfl hbad
    have powered : s.power.running = true := (Bool.and_eq_true_iff.1 on).1
    refine ⟨_, rfl, fun idle => ?_, fun vo notSafe free isBad only => ⟨_, rfl, ?_⟩⟩
    · rw [laneOp_get powered inService running, bankProcedure_of_idle]
      exact idle.imp_right (Or.imp_right fun sound k small own judged => sound k ((hbad k).2 ⟨small, own, judged⟩))
    · obtain ⟨small, own, judged⟩ := (hbad vo).1 isBad
      rw [laneOp_get powered inService running, bankProcedure_of_one notSafe free small own judged]
      exact fun k smallK ownK judgedK => only k ((hbad k).2 ⟨smallK, ownK, judgedK⟩)
  · rintro e v u bank vo n h rfl alone rfl
    refine ⟨fun x status off reads => ?_, fun x status off reads => ?_, fun rail => ⟨fun late => ?_, fun early => ?_⟩⟩
    · rw [judgeHold_of_off status off alone, reads]; rfl
    · rw [judgeHold_of_off status off alone, reads]; rfl
    · rw [judgeHold_of_not_off rail alone, if_pos late]; rfl
    · rw [judgeHold_of_not_off rail alone, if_neg (Nat.not_le.2 early)]

end Sys2Proof.Laws
end

section
/-! The online exchange of a forme: the prepare command and the load it begins (R86, R87, R152), the comparison of both formes (R151),
and commit, abort and status (R153, R154). -/

namespace Sys2Proof.Laws

open Sys2Proof Sys2Proof.Machine

/-! ### The fetch -/

section
variable {s u : State} {op : Nat} {needs needsUdp : Bool} {e : Entry} {o : Outstanding}

/-- The fetch of a command reaches the host link alone. -/
theorem accepts_host (h : s.accepts op needs needsUdp e u o) :
    ∃ l, u = { s with host := l } := by
  obtain ⟨-, rfl, -⟩ := h
  obtain ⟨q, l, host⟩ := dequeue_host s e
  exact ⟨_, host⟩

theorem accepts_xchg (h : s.accepts op needs needsUdp e u o) : u.xchg = s.xchg := by
  obtain ⟨l, rfl⟩ := accepts_host h; rfl

theorem accepts_serves (h : s.accepts op needs needsUdp e u o) : u.serves = s.serves := by
  obtain ⟨l, rfl⟩ := accepts_host h; rfl

theorem accepts_standsBy (h : s.accepts op needs needsUdp e u o) : u.standsBy = s.standsBy := by
  obtain ⟨l, rfl⟩ := accepts_host h; rfl

end

/-! ### The prepare command -/

section
variable {s : State} {o : Outstanding} {d : Digest}

theorem proofBars_iff : s.proofBars = true ↔ s.proofs.running.map (·.2) = some 2 ∨ ∃ l, s.platen.lanes.get l = .isolated := by
  unfold State.proofBars
  rw [Bool.or_eq_true, beq_iff_eq, List.any_eq_true]
  refine or_congr Iff.rfl (exists_congr fun l => ?_)
  rw [beq_iff_eq]
  exact and_iff_right (by cases l <;> decide)

/-- An exchange may begin to load (Table 8-2; log 23, log 46): no other is under way, and neither a proof nor an inauguration stands in the way. -/
def mayPrepare (s : State) : Prop :=
  s.serves = true ∧ s.xchg.state = .idle ∧ s.lanesSlot.isSome = true ∧ s.proofBars = false ∧ s.inaugurating = false

theorem prepare_of_loading (serves : s.serves = true) (loading : s.xchg.state = .loading) (runs : s.xchg.loading = true) :
    s.prepare o d = s.answer o .busy 0 [] :=
  if_pos ⟨loading, runs, serves⟩

theorem prepare_of_not_may (notBusy : ¬ (s.xchg.state = .loading ∧ s.xchg.loading = true ∧ s.serves = true)) (h : ¬ mayPrepare s) :
    s.prepare o d = s.answer o .state 0 [] := by
  unfold State.prepare
  rw [if_neg notBusy, if_pos]
  by_contra may
  simp only [not_or, Bool.not_eq_true', Bool.not_eq_false, Option.isNone_iff_eq_none, Bool.not_eq_true, not_not] at may
  obtain ⟨serves, state, slot, bars, inaug⟩ := may
  exact h ⟨serves, state, Option.isSome_iff_ne_none.2 slot, bars, inaug⟩

theorem prepare_of_may (may : mayPrepare s) : s.prepare o d =
    if s.digestWaits d = false then ({ s with xchg := { s.xchg with reason := 0x27 } } : State).answer o .refused 0 (leBytes 1 0x27)
    else ({ s.unsealFree with
      xchg := { s.xchg with state := .loading, loading := true, asked := some o, digest := d, target := 0 } } : State).keep o := by
  obtain ⟨serves, idle, slot, bars, inaug⟩ := may
  unfold State.prepare
  rw [if_neg (by simp [idle]), if_neg (by simp [serves, idle, Option.isSome_iff_ne_none.1 slot, bars, inaug])]
  simp only [Bool.not_eq_true']

theorem unsealFree_get_running {l : LaneId} {n : Nat} (inService : s.laneIn l = true) (running : (s.lanes.get l).running = some n) :
    s.unsealFree.lanes.get l = (s.lanes.get l).unseal (1 - n) := by
  unfold State.unsealFree
  rw [mapLanes_get, if_pos inService, running]

theorem unsealFree_get_kept {l : LaneId} (h : s.laneIn l = false ∨ (s.lanes.get l).running = none) :
    s.unsealFree.lanes.get l = s.lanes.get l := by
  unfold State.unsealFree
  rw [mapLanes_get]
  rcases h with out | idle
  · rw [if_neg (Bool.eq_false_iff.1 out)]
  · rw [idle, ite_self]

end

/-! ### What the lanes make of a load (R86) -/

theorem mem_lanesIn (s : State) (l : LaneId) : l ∈ s.lanesIn ↔ s.laneIn l = true := by
  unfold State.lanesIn lanesWhere
  rw [List.mem_filter]
  exact and_iff_right (by cases l <;> decide)

section
variable {x : LoadFail} {ls : List LaneId} {faults : List (LaneId × Bool)}

/-- The lanes in service that work out another digest (true) or another result (false). -/
def faulty (ls : List LaneId) (faults : List (LaneId × Bool)) (d : Bool) : List LaneId := ls.filter (fun l => faults.contains (l, d))

theorem faulty_isEmpty_iff {d : Bool} : (faulty ls faults d).isEmpty = true ↔ ∀ l ∈ ls, (l, d) ∉ faults := by
  simp [faulty]

/-- A check that fails in the image itself is the reason, when every lane agrees on the digest. -/
theorem loadJudged_of_fail (agreed : ∀ l ∈ ls, (l, true) ∉ faults) : State.loadJudged (some x) ls faults = some (x, ls) :=
  if_pos (Or.inr (faulty_isEmpty_iff.2 agreed))

/-- An image that passes is judged by the lanes that differ, the digest before the result. -/
theorem loadJudged_none : State.loadJudged none ls faults =
    if !(faulty ls faults true).isEmpty then some ({ status := .refused, reason := 0x04 }, faulty ls faults true)
    else if !(faulty ls faults false).isEmpty then some ({ status := .refused, reason := 0x10 }, faulty ls faults false)
    else none := rfl

theorem loadJudged_of_results (agreed : ∀ l ∈ ls, (l, true) ∉ faults) (other : ∃ l ∈ ls, (l, false) ∈ faults) :
    State.loadJudged none ls faults = some ({ status := .refused, reason := 0x10 }, faulty ls faults false) := by
  have results : (faulty ls faults false).isEmpty = false := by
    obtain ⟨l, mem, found⟩ := other
    exact Bool.eq_false_iff.2 fun none => faulty_isEmpty_iff.1 none l mem found
  rw [loadJudged_none, faulty_isEmpty_iff.2 agreed, results]
  rfl

theorem loadJudged_of_no_faults : State.loadJudged none ls [] = none := by
  have agreed (d : Bool) : (faulty ls [] d).isEmpty = true := faulty_isEmpty_iff.2 fun _ _ => List.not_mem_nil
  rw [loadJudged_none, agreed, agreed]
  rfl

end

/-! ### The end of a load and of the comparison -/

section
variable {s : State}

/-- Answering the prepare that waits leaves nothing to answer, and the rest of the exchange as it is. -/
theorem answerPrepare_xchg (st : Status) (detail : Nat) (payload : List Byte) :
    (s.answerPrepare st detail payload).xchg = { s.xchg with asked := none } := by
  unfold State.answerPrepare
  split
  · next unasked => rw [← unasked]
  · rw [answerOut_xchg]

/-- An exchange that fails is idle with its reason, and lanes, platen and field side are as they were. -/
theorem prepareFails_facts (x : LoadFail) (ls : List LaneId) : (s.prepareFails x ls).xchg.state = .idle ∧
    (s.prepareFails x ls).xchg.reason = x.reason ∧ (s.prepareFails x ls).xchg.asked = none ∧
    (s.prepareFails x ls).lanes = s.lanes ∧ (s.prepareFails x ls).platen = s.platen ∧ (s.prepareFails x ls).field = s.field := by
  have same := prepareFails_same s x ls
  have xchg : (s.prepareFails x ls).xchg = { s.xchg with state := .idle, loading := false, reason := x.reason, asked := none } := by
    unfold State.prepareFails
    rw [answerPrepare_xchg, (formeRefusedBy_same ..).xchg rfl]
  rw [xchg]
  exact ⟨rfl, rfl, rfl, same.lanes rfl, same.platen rfl, same.field rfl⟩

section
variable {image : Image} {h a : Sig} {faults : List (LaneId × Bool)} {n : Nat} {nand : NandSlot} {c : Colophon}
variable (slot : s.lanesSlot = some n) (waits : s.waitingNand = some nand) (colophon : nand.colophon = some c)
include slot waits colophon

/-- A load that is judged to fail ends the exchange. -/
theorem formeLoad_of_fail {p : LoadFail × List LaneId} (judged : State.loadJudged
    (s.loadFail image c.digest c.installation h a s.net.cycleNs (some s.personality)) s.lanesIn faults = some p) :
    s.formeLoad image h a faults = s.prepareFails p.1 p.2 := by
  unfold State.formeLoad
  simp only [slot, waits, colophon, Option.bind_some, judged]

/-- A load that is judged to pass is sealed, in each lane in service, into the slot that does not run (R87). -/
theorem formeLoad_of_pass (judged : State.loadJudged
    (s.loadFail image c.digest c.installation h a s.net.cycleNs (some s.personality)) s.lanesIn faults = none) :
    s.formeLoad image h a faults = { s.mapLanes (fun l st => if s.laneIn l then st.sealLoaded (1 - n) (parseForme image) c else st) with
      xchg := { s.xchg with loading := false } } := by
  unfold State.formeLoad
  simp only [slot, waits, colophon, Option.bind_some, judged, mapLanes_xchg]

end

section
variable {old new : Forme} (pair : s.exchangePair = some (old, new))
include pair

/-- The first item of Table 8-1 that differs ends the exchange. -/
theorem exchangePrepared_of_fail {x : LoadFail} (fails : old.exchangeFail new (s.exchangeBound old new) = some x) :
    s.exchangePrepared = s.prepareFails x s.lanesIn := by
  unfold State.exchangePrepared
  rw [pair]
  dsimp only
  rw [fails]

theorem exchangePrepared_of_pass (passes : old.exchangeFail new (s.exchangeBound old new) = none) : s.exchangePrepared =
    (({ s with xchg := { s.xchg with state := .prepared } } : State).raise evExchangePrepared
      (leBytes 4 (s.exchangeBound old new))).answerPrepare .done 0 (old.prepareReport new (s.exchangeBound old new)) := by
  unfold State.exchangePrepared
  rw [pair]
  dsimp only
  rw [passes]

end
end

/-! ### Commit, abort and status (R153, R154) -/

section
variable {s : State} {o : Outstanding} {n : Nat}

theorem commitTarget_eq (count : Nat) : commitTarget count n =
    (if n < count + 2 then count + 2 else if count + 6000 < n then count + 6000 else n) % 4294967296 := by
  unfold commitTarget clamp
  congr 1
  split_ifs <;> omega

/-- A prepared exchange may be committed (R154, R291): the member commands, and the partner of a duplex pair is prepared. -/
def mayCommit (s : State) : Prop :=
  s.serves = true ∧ s.xchg.state = .prepared ∧ s.standsBy = false ∧ (s.isDuplex = false ∨ s.standbyPrepared = true)

theorem commitExchange_of_not_may (h : ¬ mayCommit s) : s.commitExchange o n = s.answer o .state 0 [] := by
  unfold State.commitExchange
  rw [if_pos]
  by_contra may
  simp only [not_or, Bool.not_eq_true', Bool.not_eq_false, Bool.not_eq_true, not_not, Bool.and_eq_false_iff,
    Bool.not_eq_false'] at may
  exact h may

theorem commitExchange_of_may (h : mayCommit s) : s.commitExchange o n =
    ({ s with xchg := { s.xchg with state := .committing, target := commitTarget s.net.count n } } : State).answer o .done 0
      (leBytes 4 (commitTarget s.net.count n)) := by
  obtain ⟨serves, prepared, commands, partner⟩ := h
  unfold State.commitExchange
  rw [if_neg]
  simp only [serves, prepared, commands]
  rcases partner with single | ready
  · simp [single]
  · simp [ready]

theorem abortExchange_of_prepared (serves : s.serves = true) (prepared : s.xchg.state = .prepared) : s.abortExchange o =
    ({ s with xchg := { s.xchg with state := .idle, target := 0 } } : State).answer o .done 0 [0x00] :=
  if_neg (by simp [serves, prepared])

theorem abortExchange_of_not_prepared (h : s.serves = false ∨ s.xchg.state ≠ .prepared) : s.abortExchange o = s.answer o .state 0 [] :=
  if_pos (by rwa [Bool.not_eq_true'])

end

/-! ### The commands as the statement has them -/

section
variable {s u : State} {o : Outstanding} {e : Entry}

theorem exec_exchangePrepare (h : s.accepts 0x0610 true true e u o) (sized : Entry.size e 64 = true) :
    exec (.ilkExchangePrepare e) s = .next (u.prepare o (digestAt (Entry.body e) 0)) :=
  congrArg _ ((command_accepts h _).trans (if_pos sized))

theorem exec_exchangeCommit (h : s.accepts 0x0611 true true e u o) (sized : Entry.size e 4 = true) :
    exec (.ilkExchangeCommit e) s = .next (u.commitExchange o (Entry.field e 0 4)) :=
  congrArg _ ((command_accepts h _).trans (if_pos sized))

theorem exec_exchangeAbort (h : s.accepts 0x0612 true true e u o) : exec (.ilkExchangeAbort e) s = .next (u.abortExchange o) :=
  congrArg _ (command_accepts h _)

theorem exec_exchangeStatus (h : s.accepts 0x0613 false true e u o) : exec (.ilkExchangeStatus e) s =
    .next (if !u.serves ∨ u.standsBy then u.answer o .state 0 [] else u.answer o .done 0 u.xchg.report) :=
  congrArg _ (command_accepts h _)

section
variable {op : Nat} {needs needsUdp : Bool}

theorem accepts_mayPrepare (h : s.accepts op needs needsUdp e u o) : mayPrepare u ↔ mayPrepare s := by
  obtain ⟨l, rfl⟩ := accepts_host h; rfl

theorem accepts_mayCommit (h : s.accepts op needs needsUdp e u o) : mayCommit u ↔ mayCommit s := by
  obtain ⟨l, rfl⟩ := accepts_host h; rfl

end

/-- While a load runs, a second prepare is BUSY (R87, log 61). -/
theorem exchangePrepare_busy (h : s.accepts 0x0610 true true e u o) (sized : Entry.size e 64 = true) (serves : s.serves = true)
    (loading : s.xchg.state = .loading) (runs : s.xchg.loading = true) : exec (.ilkExchangePrepare e) s = .next (u.answer o .busy 0 []) := by
  rw [← accepts_xchg h] at loading runs
  rw [exec_exchangePrepare h sized, prepare_of_loading ((accepts_serves h).trans serves) loading runs]

/-- While nothing loads, a prepare that must not begin is refused with STATE. -/
theorem exchangePrepare_refused (h : s.accepts 0x0610 true true e u o) (sized : Entry.size e 64 = true)
    (refused : s.serves = false ∨ (s.xchg.state = .loading ∧ s.xchg.loading = false) ∨ s.xchg.state = .prepared ∨ s.xchg.state = .committing ∨
      (s.xchg.state = .idle ∧ (s.inaugurating = true ∨ s.proofs.running.map (·.2) = some 2 ∨ ∃ l, s.platen.lanes.get l = .isolated))) :
    exec (.ilkExchangePrepare e) s = .next (u.answer o .state 0 []) := by
  rw [exec_exchangePrepare h sized, prepare_of_not_may]
  · rw [accepts_xchg h, accepts_serves h]
    rintro ⟨loading, runs, serves⟩
    simp [loading, runs, serves] at refused
  · rw [accepts_mayPrepare h]
    rintro ⟨serves, idle, -, bars, inaug⟩
    have noBar := (not_congr proofBars_iff).1 (Bool.eq_false_iff.1 bars)
    rcases refused with down | ⟨loading, -⟩ | prepared | committing | ⟨-, train | bar⟩
    · exact absurd (down.symm.trans serves) (by decide)
    · exact absurd (loading.symm.trans idle) (by decide)
    · exact absurd (prepared.symm.trans idle) (by decide)
    · exact absurd (committing.symm.trans idle) (by decide)
    · exact absurd (inaug.symm.trans train) (by decide)
    · exact noBar bar

/-- A prepare that may begin is refused for a digest that does not wait, and else begins the load. -/
theorem exchangePrepare_begins (h : s.accepts 0x0610 true true e u o) (sized : Entry.size e 64 = true) (may : mayPrepare s) {d : Digest}
    (hd : d = digestAt (Entry.body e) 0) :
    (s.digestWaits d = false → ∃ x, x = { s.xchg with reason := 0x27 } ∧
      exec (.ilkExchangePrepare e) s = .next (({ u with xchg := x } : State).answer o .refused 0 (leBytes 1 0x27))) ∧
    (s.digestWaits d = true → ∃ x lanes, x = { s.xchg with state := .loading, loading := true, asked := some o, digest := d, target := 0 } ∧
      exec (.ilkExchangePrepare e) s = .next (({ u with xchg := x, lanes := lanes } : State).keep o) ∧
      (∀ l n, s.laneIn l = true → (s.lanes.get l).running = some n → lanes.get l = (s.lanes.get l).unseal (1 - n)) ∧
      (∀ l, s.laneIn l = false ∨ (s.lanes.get l).running = none → lanes.get l = s.lanes.get l)) := by
  have run := exec_exchangePrepare h sized
  rw [prepare_of_may ((accepts_mayPrepare h).2 may), ← hd] at run
  obtain ⟨l, rfl⟩ := accepts_host h
  constructor
  · intro absent
    exact ⟨_, rfl, run.trans (congrArg _ (if_pos absent))⟩
  · intro waits
    have present : ¬ s.digestWaits d = false := by rw [waits]; decide
    exact ⟨_, s.unsealFree.lanes, rfl, run.trans (congrArg _ (if_neg present)),
      fun _ _ => unsealFree_get_running, fun _ => unsealFree_get_kept⟩

/-- The commit is refused with STATE when it may not be, and else takes the target held in its bounds. -/
theorem exchangeCommit_ends (h : s.accepts 0x0611 true true e u o) (sized : Entry.size e 4 = true) {n : Nat} (hn : n = Entry.field e 0 4) :
    (¬ mayCommit s → exec (.ilkExchangeCommit e) s = .next (u.answer o .state 0 [])) ∧
    (mayCommit s → ∃ t x,
      t = (if n < s.net.count + 2 then s.net.count + 2 else if s.net.count + 6000 < n then s.net.count + 6000 else n) % 4294967296 ∧
      x = { s.xchg with state := .committing, target := t } ∧
      exec (.ilkExchangeCommit e) s = .next (({ u with xchg := x } : State).answer o .done 0 (leBytes 4 t))) := by
  rw [exec_exchangeCommit h sized, ← hn, ← accepts_mayCommit h]
  constructor
  · exact fun refused => congrArg _ (commitExchange_of_not_may refused)
  · intro may
    rw [commitExchange_of_may may]
    obtain ⟨l, rfl⟩ := accepts_host h
    exact ⟨_, _, commitTarget_eq s.net.count, rfl, rfl⟩

theorem exchangeAbort_ends (h : s.accepts 0x0612 true true e u o) :
    (s.serves = true ∧ s.xchg.state = .prepared → ∃ x, x = { s.xchg with state := .idle, target := 0 } ∧
      exec (.ilkExchangeAbort e) s = .next (({ u with xchg := x } : State).answer o .done 0 [0x00])) ∧
    (s.serves = false ∨ s.xchg.state ≠ .prepared → exec (.ilkExchangeAbort e) s = .next (u.answer o .state 0 [])) := by
  rw [exec_exchangeAbort h, ← accepts_serves h, ← accepts_xchg h]
  constructor
  · rintro ⟨serves, prepared⟩
    exact ⟨_, rfl, congrArg _ (abortExchange_of_prepared serves prepared)⟩
  · exact fun refused => congrArg _ (abortExchange_of_not_prepared refused)

theorem exchangeStatus_ends (h : s.accepts 0x0613 false true e u o) :
    (s.serves = true ∧ s.standsBy = false → exec (.ilkExchangeStatus e) s =
      .next (u.answer o .done 0 (leBytes 1 s.xchg.state.code ++ leBytes 1 s.xchg.reason ++ leBytes 2 0 ++ leBytes 4 s.xchg.target))) ∧
    (s.serves = false ∨ s.standsBy = true → exec (.ilkExchangeStatus e) s = .next (u.answer o .state 0 [])) := by
  rw [exec_exchangeStatus h, accepts_serves h, accepts_standsBy h, accepts_xchg h]
  constructor
  · rintro ⟨serves, commands⟩
    rw [if_neg (by simp [serves, commands])]
    rfl
  · exact fun refused => congrArg _ (if_pos (by rwa [Bool.not_eq_true']))

end

/-- A load fails with its reason or 0x10, or is sealed into the slot of each lane in service that does not run. -/
theorem formeLoad_ends {s : State} {image : Image} {h a : Sig} {faults : List (LaneId × Bool)} {n : Nat} {nand : NandSlot} {c : Colophon}
    (running : s.power.running = true) (loading : s.xchg.state = .loading) (runs : s.xchg.loading = true)
    (slot : s.lanesSlot = some n) (waits : s.waitingNand = some nand) (colophon : nand.colophon = some c) {fail : Option LoadFail}
    (judged : fail = s.loadFail image c.digest c.installation h a s.net.cycleNs (some s.personality)) :
    (fail = none → (∀ l, s.laneIn l = true → (l, true) ∉ faults) → (∃ l, s.laneIn l = true ∧ (l, false) ∈ faults) →
      ∃ t : State, exec (.formeLoad image (h, a) faults) s = .next t ∧ t.xchg.state = .idle ∧ t.xchg.reason = 0x10) ∧
    (∀ x, fail = some x → (∀ l, (l, true) ∉ faults) → ∃ t : State, exec (.formeLoad image (h, a) faults) s = .next t ∧
      t.xchg.state = .idle ∧ t.xchg.reason = x.reason ∧
      t.xchg.asked = none ∧ t.lanes = s.lanes ∧ t.platen = s.platen ∧ t.field = s.field) ∧
    (fail = none → faults = [] → ∃ t : State, exec (.formeLoad image (h, a) faults) s = .next t ∧ t.xchg = { s.xchg with loading := false } ∧
      (∀ l, s.laneIn l = true → t.lanes.get l = (s.lanes.get l).sealLoaded (1 - n) (parseForme image) c) ∧
      (∀ l, s.laneIn l = false → t.lanes.get l = s.lanes.get l) ∧ t.host = s.host ∧ t.platen = s.platen ∧ t.field = s.field) := by
  have run : exec (.formeLoad image (h, a) faults) s = .next (s.formeLoad image h a faults) := if_pos ⟨running, loading, runs⟩
  rw [run]
  refine ⟨?_, ?_, ?_⟩
  · rintro rfl agreed ⟨l, inService, differs⟩
    have found := loadJudged_of_results (fun k mem => agreed k ((mem_lanesIn s k).1 mem)) ⟨l, (mem_lanesIn s l).2 inService, differs⟩
    obtain ⟨idle, reason, -⟩ := prepareFails_facts (s := s) { status := .refused, reason := 0x10 } (faulty s.lanesIn faults false)
    rw [formeLoad_of_fail slot waits colophon (judged ▸ found)]
    exact ⟨_, rfl, idle, reason⟩
  · rintro x rfl agreed
    rw [formeLoad_of_fail slot waits colophon (judged ▸ loadJudged_of_fail fun k _ => agreed k)]
    exact ⟨_, rfl, prepareFails_facts x s.lanesIn⟩
  · rintro rfl rfl
    rw [formeLoad_of_pass slot waits colophon (judged ▸ loadJudged_of_no_faults)]
    refine ⟨_, rfl, rfl, fun l inService => ?_, fun l out => ?_, rfl, rfl, rfl⟩
    · exact (mapLanes_get ..).trans (if_pos inService)
    · exact (mapLanes_get ..).trans (if_neg (Bool.eq_false_iff.1 out))

/-- The comparison of both formes ends the exchange with its reason, or prepares it and answers the report. -/
theorem exchangePrepared_ends {s : State} {old new : Forme} (running : s.power.running = true) (loading : s.xchg.state = .loading)
    (loaded : s.xchg.loading = false) (pair : s.exchangePair = some (old, new)) :
    (∀ x, old.exchangeFail new (s.exchangeBound old new) = some x → ∃ t : State, exec .exchangePrepared s = .next t ∧ t.xchg.state = .idle ∧
      t.xchg.reason = x.reason ∧ t.xchg.asked = none ∧ t.lanes = s.lanes ∧ t.platen = s.platen) ∧
    (old.exchangeFail new (s.exchangeBound old new) = none → ∃ t v : State, exec .exchangePrepared s = .next t ∧
      v = ({ s with xchg := { s.xchg with state := .prepared } } : State).raise evExchangePrepared (leBytes 4 (s.exchangeBound old new)) ∧
      t = v.answerPrepare .done 0 (old.prepareReport new (s.exchangeBound old new)) ∧ t.xchg.state = .prepared ∧ t.xchg.asked = none ∧
      t.lanes = s.lanes ∧ t.platen = s.platen) := by
  have run : exec .exchangePrepared s = .next s.exchangePrepared := if_pos ⟨running, loading, by rw [loaded]; rfl⟩
  have same := exchangePrepared_same s
  constructor
  · intro x fails
    obtain ⟨idle, reason, asked, lanes, platen, -⟩ := prepareFails_facts (s := s) x s.lanesIn
    rw [run, exchangePrepared_of_fail pair fails]
    exact ⟨_, rfl, idle, reason, asked, lanes, platen⟩
  · intro passes
    have made := exchangePrepared_of_pass pair passes
    have xchg : s.exchangePrepared.xchg = { s.xchg with state := .prepared, asked := none } := by
      rw [made, answerPrepare_xchg, raise_xchg]
    exact ⟨_, _, run, rfl, made, by rw [xchg], by rw [xchg], same.lanes rfl, same.platen rfl⟩

/-- Settles O47: each row of the exchange, from what its operation does on the machine after the fetch. -/
theorem exchangePreparesAndCommits : Obligations.ExchangePreparesAndCommits := by
  intro s u o e image h a faults
  refine ⟨fun acc sized d hd => ⟨exchangePrepare_busy acc sized, exchangePrepare_refused acc sized,
      fun serves idle slot train noProof noIsolated => exchangePrepare_begins acc sized ⟨serves, idle, slot, ?_, train⟩ hd⟩,
    fun running loading runs n nand c slot waits colophon fail judged => formeLoad_ends running loading runs slot waits colophon judged,
    fun running loading loaded old new pair => exchangePrepared_ends running loading loaded pair,
    fun acc sized n hn => ⟨fun refused => (exchangeCommit_ends acc sized hn).1 ?_,
      fun serves prepared commands partner => (exchangeCommit_ends acc sized hn).2 ⟨serves, prepared, commands, partner⟩⟩,
    exchangeAbort_ends, exchangeStatus_ends⟩
  · exact Bool.eq_false_iff.2 fun bars => (proofBars_iff.1 bars).elim noProof fun ⟨l, isolated⟩ => noIsolated l isolated
  · rintro ⟨serves, prepared, commands, partner⟩
    simp [serves, prepared, commands] at refused
    simp [refused] at partner

end Sys2Proof.Laws
end

section
/-! Operation ends and begins anew (R55, R103, R106): sys.restart, and the restart that an activation asks for. -/

namespace Sys2Proof.Laws

open Sys2Proof Sys2Proof.Machine

/-- What a start leaves is told of its pending commands and its identity alone: a state before it with the same ones may stand for it. -/
theorem started_congr {s u t : State} {f : StartFacts} {cause : Nat} (h : Started u t f cause) (pending : u.pending = s.pending)
    (ident : u.ident = s.ident) : Started s t f cause :=
  { h with rest := ⟨h.rest.1.trans pending, h.rest.2.trans ident⟩ }

theorem stopVital_outputsOpen (s : State) : s.stopVital.outputsOpen = true := rfl

/-- What the start after a stop of the vital part finds: the vital part stopped, and a cold restart asked for or not. -/
def stoppedFor (s : State) (cold : Bool) : State :=
  { s.stopVital with power := { s.stopVital.power with coldAsked := cold } }

/-- A stop of the vital part and the start after it give a started module, which restarts cold where no checkpoint is sealed. -/
theorem start_stoppedFor {s : State} {f : StartFacts} (passes : startPasses f 0x40 = true) (cold : Bool) (cause : Nat) :
    Started s ((stoppedFor s cold).start f cause false) f cause ∧
    (s.unsealed → ((stoppedFor s cold).start f cause false).platen.safe = false →
      ((stoppedFor s cold).start f cause false).req.restartKind = 2) := by
  have same := stopVital_same s
  obtain ⟨started, -, -, -, told⟩ := start_begun (stoppedFor s cold) f cause false passes
  refine ⟨started_congr started same.pending same.ident, fun unsealed notSafe => told notSafe ?_⟩
  exact (stopVital_halves s).unsealed unsealed

/-- The profile that sys.restart takes: 1 is warm, and every other code the cold one, 2 (log 18). -/
def restartProfile (e : Entry) : Nat := if Entry.field e 0 1 = 1 then 1 else 2

/-- An accepted sys.restart is answered with its profile, and the module stopped for it starts (R106). -/
theorem exec_sysRestart {s u : State} {o : Outstanding} {e : Entry} (h : s.accepts 0x0301 true true e u o) (f : StartFacts)
    (sized : 1 ≤ (Entry.body e).length) : exec (.sysRestart e f) s =
      .next ((stoppedFor (u.answer o .done 0 (leBytes 1 (restartProfile e))) (restartProfile e == 2)).start f 3 false) :=
  congrArg _ ((command_accepts h _).trans (if_pos (decide_eq_true sized)))

/-- Settles O22: the answer leaves lanes, identity and waiting commands, and the start is that of a stopped module. -/
theorem sysRestartStartsAnew : Obligations.SysRestartStartsAnew := by
  intro s e f accepted sized passes
  obtain ⟨u, hu⟩ : ∃ u, u = (s.dequeue e).answer (outstandingOf 0x0301 e none) .done 0 (leBytes 1 (restartProfile e)) := ⟨_, rfl⟩
  obtain ⟨started, told⟩ := start_stoppedFor (s := u) passes (restartProfile e == 2) 3
  have lanes : u.lanes = s.lanes := by rw [hu, answer_lanes, dequeue_lanes]
  have pending : u.pending = s.pending := by rw [hu, answer_pending, dequeue_pending]
  have ident : u.ident = s.ident := by rw [hu, answer_ident, dequeue_ident]
  refine ⟨restartProfile e, u.stopVital, _, rfl, by rw [hu], rfl, ?_, stopVital_outputsOpen u, started_congr started pending ident,
    fun unsealed => told ((HalvesKept.of_lanes lanes).unsealed unsealed)⟩
  rw [exec_sysRestart ⟨accepted, rfl, rfl⟩ f sized, ← hu]
  rfl

end Sys2Proof.Laws
end

section
/-! The deadline of a cycle and a missing strobe (R96, R97, R404), and what the entry into the safe state leaves (R54). -/

namespace Sys2Proof.Laws

open Sys2Proof Sys2Proof.Machine

/-! ### Lanes that are late -/

theorem asking_eq (s : State) (late : List LaneId) : s.asking late = s.lanesIn.filter late.contains :=
  (List.filter_congr fun _ _ => Bool.and_comm ..).trans List.filter_filter.symm

theorem contains_asking (s : State) (late : List LaneId) (l : LaneId) : (s.asking late).contains l = (s.laneIn l && late.contains l) := by
  rw [Bool.eq_iff_iff, List.contains_iff_mem, asking_eq, List.mem_filter, mem_lanesIn, Bool.and_eq_true]

/-- Where every lane that serves is in service, the stretch is granted by the count of the lanes that are late (R96). -/
theorem grants_of_serving {s : State} {late : List LaneId} (all : ∀ k, s.serving k = s.laneIn k) :
    s.grants late = if s.lanesIn.length = 3 then decide (2 ≤ (s.lanesIn.filter late.contains).length)
      else s.lanesIn.length == 2 && decide (1 ≤ (s.lanesIn.filter late.contains).length) := by
  unfold State.grants
  rw [asking_eq, funext all]
  rfl

/-! ### The deadline -/

theorem stretchable_of {s : State} (running : s.power.running = true) (cycleOpen : s.platen.cycleOpen = true)
    (notStretched : s.platen.stretched = false) (notLengthened : s.platen.lengthened = false) (notSafe : s.platen.safe = false) :
    s.stretchable = true := by
  unfold State.stretchable
  rw [running, cycleOpen, notStretched, notLengthened, notSafe]
  rfl

theorem raiseWith_host (s : State) (num : Nat) (payload : List Byte) (l : List RecUpd) :
    (s.raiseWith num payload l).host = (s.raise num payload).host :=
  (recordRaise_host ..).trans (recordRaise_host ..).symm

/-- A granted stretch is counted, and the event names the lanes that asked. -/
theorem overrun_facts (s : State) (late : List LaneId) :
    (s.overrun late).platen = { s.platen with stretched := true, overrunRun := s.platen.overrunRun + 1, overruns := sat32 s.platen.overruns 1 } ∧
    (s.overrun late).net = s.net ∧ (s.overrun late).field = s.field ∧ (s.overrun late).lanes = s.lanes ∧ (s.overrun late).params = s.params ∧
    ∃ (u : State) (mask : Nat), u.host = s.host ∧ u.recorder = s.recorder ∧
      mask = ofMembers (LaneId.all.map (fun k => s.laneIn k && late.contains k)) ∧
      (s.overrun late).host = (u.raise evOverrun (leBytes 1 mask ++ leBytes 1 (s.platen.overrunRun + 1))).host := by
  have same := overrun_same s late
  refine ⟨?_, same.net rfl, same.field rfl, same.lanes rfl, same.params rfl, ?_⟩
  · exact raiseWith_platen ..
  · refine ⟨{ s with platen := { s.platen with stretched := true, overrunRun := s.platen.overrunRun + 1, overruns := sat32 s.platen.overruns 1 } },
      _, rfl, rfl, rfl, ?_⟩
    unfold State.overrun
    dsimp only
    rw [raiseWith_host, funext (contains_asking s late)]

section
variable {s : State} {late : List LaneId}

theorem exec_deadline_of_grant (can : s.stretchable = true) (granted : s.grants late = true) :
    exec (.evaluationDeadline late) s = .next (if s.platen.overrunRun < 2 then s.overrun late else s.enterSafe causeOverruns) :=
  if_pos ⟨can, granted⟩

theorem exec_deadline_of_no_grant (refused : s.grants late = false) :
    exec (.evaluationDeadline late) s = .next s ∧ exec (.overrunLimit late) s = .next s := by
  have no : ¬ s.grants late = true := Bool.eq_false_iff.1 refused
  exact ⟨if_neg fun ⟨_, granted⟩ => no granted, if_neg fun ⟨_, granted, _⟩ => no granted⟩

end

/-! ### A missing strobe -/

section
variable {s : State} {l : LaneId}

theorem serving_of_laneIn (h : s.laneIn l = true) : s.serving l = true := by
  unfold State.laneIn at h
  unfold State.serving
  revert h
  cases s.platen.lanes.get l with
  | inService n => exact fun _ => rfl
  | isolated => exact fun h => Bool.noConfusion h
  | excluded => exact fun h => Bool.noConfusion h

/-- The machine once lane l has asked for the safe state. -/
def withAsk (s : State) (l : LaneId) : State := { s with platen := { s.platen with safeAsked := s.platen.safeAsked.set l true } }

/-- How many of the lanes that work ask for the safe state. -/
def asks (s : State) : Nat := (lanesWhere (fun k => s.serving k && s.platen.safeAsked.get k)).length

theorem asks_withAsk_pos (h : s.laneIn l = true) : 1 ≤ asks (withAsk s l) := by
  refine List.length_pos_of_mem (a := l) (List.mem_filter.2 ⟨by cases l <;> decide, Bool.and_eq_true_iff.2 ⟨serving_of_laneIn h, ?_⟩⟩)
  exact get_set_self ..

theorem exec_strobeTimeout (running : s.power.running = true) (h : s.laneIn l = true) :
    exec (.strobeTimeout l) s = .next
      (if ((lanesWhere s.serving).length = 3 ∧ 2 ≤ asks (withAsk s l)) ∨ ((lanesWhere s.serving).length ≠ 3 ∧ 1 ≤ asks (withAsk s l))
        then (withAsk s l).enterSafe causeRequest else withAsk s l) :=
  if_pos ⟨running, h⟩

/-- Of three lanes that work one request alone only stands; two of them, or one of fewer lanes, make the safe state. -/
theorem strobeTimeout_facts (running : s.power.running = true) (h : s.laneIn l = true) :
    (asks (withAsk s l) = 1 ∧ (lanesWhere s.serving).length = 3 → exec (.strobeTimeout l) s = .next (withAsk s l)) ∧
    (2 ≤ asks (withAsk s l) ∨ (lanesWhere s.serving).length ≠ 3 →
      exec (.strobeTimeout l) s = .next ((withAsk s l).enterSafe causeRequest)) := by
  have asked := asks_withAsk_pos h
  rw [exec_strobeTimeout running h]
  exact ⟨fun _ => congrArg _ (if_neg (by omega)), fun _ => congrArg _ (if_pos (by omega))⟩

end

/-! ### The entry into the safe state -/

/-- Entry into the safe state opens the outputs and turns copies and network restrictive; what it does not name it keeps (Table 3-5). -/
theorem enterSafe_facts {s : State} (notSafe : s.platen.safe = false) (cause : Nat) :
    (s.enterSafe cause).platen = { s.platen with safe := true, safeCause := cause, out := s.safeOut } ∧
    (s.enterSafe cause).field = s.field.allOff ∧ (s.enterSafe cause).net = { s.net with tx := s.restrictiveTx, txNext := none } := by
  unfold State.enterSafe
  rw [if_neg (by rw [notSafe]; decide)]
  dsimp only
  rw [raiseWith_platen, raiseWith_field, raiseWith_net]
  exact ⟨rfl, rfl, rfl⟩

/-- Settles O28: the count of the late lanes grants the stretch, and the run of overruns or the requests decide on the safe state. -/
theorem overrunsAndMissingStrobe : Obligations.OverrunsAndMissingStrobe := by
  intro s late l running
  refine ⟨fun cycleOpen notStretched notLengthened notSafe => ?_, fun inService => ?_, fun cause notSafe => ?_⟩
  · have can := stretchable_of running cycleOpen notStretched notLengthened notSafe
    refine ⟨fun ⟨three, all⟩ => ?_, fun ⟨two, all⟩ => ?_, fun granted below => ?_, fun granted third => ?_, exec_deadline_of_no_grant⟩
    · rw [grants_of_serving all, if_pos three]
    · rw [grants_of_serving all, two]; rfl
    · exact ⟨_, (exec_deadline_of_grant can granted).trans (congrArg _ (if_pos below)), overrun_facts s late⟩
    · exact ⟨(exec_deadline_of_grant can granted).trans (congrArg _ (if_neg (Nat.not_lt.2 third))), if_pos ⟨can, granted, third⟩⟩
  · exact ⟨_, _, rfl, rfl, strobeTimeout_facts running inService⟩
  · have same := enterSafe_same s cause
    obtain ⟨platen, field, net⟩ := enterSafe_facts notSafe cause
    unfold State.outputsOpen
    rw [platen, field, net]
    exact ⟨rfl, rfl, rfl, rfl, rfl, same.params rfl, same.train rfl, same.life rfl, same.power rfl⟩

end Sys2Proof.Laws
end

section
/-! The cycle strobe (R89, R93) and the exchange cycle (R157): what opens with either, and what each does to requests and lanes. -/

namespace Sys2Proof.Laws

open Sys2Proof Sys2Proof.Machine

theorem isDuplex_congr {s t : State} (forme : t.forme = s.forme) (duplex : t.duplex = s.duplex) : t.isDuplex = s.isDuplex := by
  unfold State.isDuplex State.dupRole
  rw [forme, duplex]

/-- The machine whose cycle has opened, its exchange being y: what may come before is the target of the partner (R154). -/
def opened (s : State) (y : Xchg) (b : Bool) : State := ({ s with xchg := y } : State).openCycle b

theorem opened_lane (s : State) (y : Xchg) (b : Bool) (l : LaneId) : (opened s y b).lanes.get l = { s.lanes.get l with galley := none } :=
  openCycle_lane { s with xchg := y } b l

theorem opened_laneIn (s : State) (y : Xchg) (b : Bool) (l : LaneId) : (opened s y b).laneIn l = s.laneIn l :=
  openCycle_laneIn { s with xchg := y } b l

/-- Opening a cycle drops the galleys and keeps the forme that runs. -/
theorem opened_forme (s : State) (y : Xchg) (b : Bool) : (opened s y b).forme = s.forme :=
  forme_congr rfl rfl fun l => by rw [opened_lane]; exact ⟨rfl, rfl⟩

section
variable {s : State} {x : Sample}

theorem forme_of_canStrobe (can : s.canStrobe = true) : ∃ f, s.forme = some f := by
  unfold State.canStrobe at can
  simp only [Bool.and_eq_true] at can
  obtain ⟨⟨⟨⟨-, formed⟩, -⟩, -⟩, -⟩ := can
  exact Option.isSome_iff_exists.1 formed

/-- A cycle that runs from an opened state: the count, the snapshot and the vote begin anew, the supplies are read, and what a cycle does
not reach stands (R89, R406). -/
theorem runCycle_opens {y : Xchg} {u : State} {f : Forme} {failed : List LaneId} {b freeze : Bool} {ns : Nat} {t : State}
    (ht : t = u.runCycle f x failed freeze ns) (hu : ∃ ls, u = { opened s y b with lanes := ls }) :
    t.net.count = (if s.net.atStart then s.net.count else (s.net.count + 1) % 4294967296) ∧ t.net.atStart = false ∧
      t.net.phase = 0 ∧ t.net.snapshot = s.net.buffers ∧ t.net.ports = s.net.ports ∧ t.net.mode = s.net.mode ∧
      t.platen.cycleOpen = true ∧ t.platen.complete = false ∧ t.platen.stretched = false ∧ t.platen.copies = .all .empty ∧ t.platen.emitted = x.emitted ∧
      t.platen.safe = s.platen.safe ∧ t.power = { s.power with vsMv := x.vsMv.getD s.power.vsMv, holdupMv := x.holdupMv.getD s.power.holdupMv } ∧
      t.params = s.params ∧ t.life = s.life ∧ t.update = s.update ∧ t.bridge = s.bridge := by
  subst ht
  obtain ⟨ls, rfl⟩ := hu
  have same := runCycle_same { opened s y b with lanes := ls } f x failed freeze ns
  rw [same.net rfl, runCycle_platen, runCycle_power, same.params rfl, same.life rfl, same.update rfl, same.bridge rfl]
  exact ⟨rfl, rfl, rfl, rfl, rfl, rfl, rfl, rfl, rfl, rfl, rfl, rfl, rfl, rfl, rfl, rfl, rfl⟩

/-- The strobe of a cycle whose exchange is due is the exchange cycle without a lane that fails. -/
theorem exec_cycleStrobe_exchange (can : s.canStrobe = true) (due : s.followTarget.exchangeDue = true) :
    exec (.cycleStrobe x) s = exec (.exchangeCycle x []) s := by
  have run : exec (.cycleStrobe x) s = .next (s.followTarget.strobe x) := if_pos can
  have exchange : exec (.exchangeCycle x []) s = .next (s.followTarget.exchangeStrobe x []) := if_pos ⟨can, due⟩
  rw [run, exchange]
  exact congrArg _ (if_pos due)

section
variable (can : s.canStrobe = true) {y : Xchg} (follows : s.followTarget = { s with xchg := y })
include can follows

/-- With nothing due the strobe is that of an ordinary cycle. -/
theorem exec_cycleStrobe_plain (notDue : s.followTarget.exchangeDue = false) (noRejoin : s.rejoinDue = none) {f : Forme} (formed : s.forme = some f) :
    exec (.cycleStrobe x) s = .next ((opened s y false).runCycle f x [] true s.cycleLength) := by
  have run : exec (.cycleStrobe x) s = .next (s.followTarget.strobe x) := if_pos can
  rw [run]
  unfold State.strobe
  rw [if_neg (Bool.eq_false_iff.1 notDue), follows]
  rw [show ({ s with xchg := y } : State).rejoinDue = none from noRejoin]
  dsimp only
  rw [show ({ s with xchg := y } : State).forme = some f from formed]
  rfl

/-- The exchange cycle transfers every lane in service, then runs the forme that they hold then. -/
theorem exec_exchangeCycle_runs (due : s.followTarget.exchangeDue = true) (failed : List LaneId) :
    ∃ f, exec (.exchangeCycle x failed) s = .next (((opened s y true).exchangeLanes failed).runCycle f x failed false s.cycleLength) := by
  have run : exec (.exchangeCycle x failed) s = .next (s.followTarget.exchangeStrobe x failed) := if_pos ⟨can, due⟩
  have formed : ((opened s y true).exchangeLanes failed).forme.isSome = true := by
    obtain ⟨g, before⟩ := forme_of_canStrobe can
    obtain ⟨runs, l, holds⟩ := (forme_isSome s).1 (Option.isSome_iff_exists.2 ⟨g, before⟩)
    refine (forme_isSome _).2 ⟨runs, l, ?_⟩
    rw [exchangeLanes_get, opened_lane]
    split
    · exact exchange_forme _ _ _ _ _ holds
    · exact holds
  obtain ⟨f, formed⟩ := Option.isSome_iff_exists.1 formed
  refine ⟨f, run.trans ?_⟩
  unfold opened at formed
  unfold State.exchangeStrobe
  rw [follows]
  dsimp only
  rw [formed]
  rfl

end

/-- An ordinary cycle freezes the requests that wait, and gives each sound lane in service its galley (R93, R94). -/
theorem plainCycle_facts {y : Xchg} {f : Forme} {ns : Nat} {t : State}
    (ht : t = (opened s y false).runCycle f x [] true ns) :
    t.platen.lengthened = false ∧ t.proofs = s.proofs ∧ t.host = s.host ∧
      (s.isDuplex = false → t.req.frozen = s.req.waiting ∧ t.req.waiting = []) ∧
      (∀ l, s.laneIn l = false → t.lanes.get l = { s.lanes.get l with galley := none }) ∧
      (∀ l, s.laneIn l = true → ∀ f, (s.lanes.get l).forme = some f → l ∉ x.sram → ∃ ws, (t.lanes.get l).galley = some ws) := by
  subst ht
  have same := runCycle_same (opened s y false) f x [] true ns
  obtain ⟨u, stuck, findings, fell, evaluated, lanes, platen, req, -, -, frozen⟩ :=
    runCycle_lanes (opened s y false) f x [] true ns
  have lane (l : LaneId) : u.lanes.get l = { s.lanes.get l with galley := none } := by rw [lanes, opened_lane]
  have inService (l : LaneId) : u.laneIn l = s.laneIn l := laneIn_congr (by rw [platen]; rfl) l (by rw [lane])
  refine ⟨?_, same.proofs rfl, same.host rfl, fun single => ?_, fun l out => ?_, fun l inSvc f formed sound => ?_⟩
  · rw [runCycle_platen]; rfl
  · obtain ⟨v, vLanes, vPlaten, vReq, vDuplex, taken⟩ := frozen rfl
    have alone : v.isDuplex = false := by
      rw [← single]
      refine isDuplex_congr ((forme_congr ?_ ?_ fun l => ?_).trans (opened_forme s y false)) vDuplex
      · rw [vPlaten]
      · unfold State.runsNothing; rw [vPlaten]
      · rw [vLanes]; exact ⟨rfl, rfl⟩
    rw [req, taken, freezeRequests_single v alone, vReq]
    exact ⟨rfl, rfl⟩
  · obtain ⟨kept, -⟩ := evaluateLanes_get u x stuck findings fell [] l
    rw [evaluated, kept ((inService l).trans out), lane]
  · obtain ⟨-, -, -, -, -, -, -, galley⟩ := evaluateLanes_get u x stuck findings fell [] l
    obtain ⟨-, delivers⟩ := galley ((inService l).trans inSvc) f (by rw [lane]; exact formed)
    rw [evaluated]
    exact delivers List.not_mem_nil sound

/-- An exchange cycle freezes no request and swaps the running slots, a lane that fails delivering nothing (R157). -/
theorem exchangeCycle_facts {y : Xchg} {f : Forme} {failed : List LaneId} {ns : Nat} {t : State}
    (ht : t = ((opened s y true).exchangeLanes failed).runCycle f x failed false ns) :
    t.platen.lengthened = true ∧ t.req.frozen = [] ∧ t.req.waiting = s.req.waiting ∧ t.req.mirrored = s.req.mirrored ∧ t.host = s.host ∧
      (∀ l, s.laneIn l = true → (s.lanes.get l).forme.isSome = true → (s.lanes.get l).waitingForme.isSome = true →
        (t.lanes.get l).slot0 = (s.lanes.get l).swapRun.slot0 ∧ (t.lanes.get l).slot1 = (s.lanes.get l).swapRun.slot1 ∧
        (l ∈ failed → (t.lanes.get l).galley = none)) := by
  subst ht
  have same := runCycle_same ((opened s y true).exchangeLanes failed) f x failed false ns
  obtain ⟨u, stuck, findings, fell, evaluated, lanes, platen, req, -, unfrozen, -⟩ :=
    runCycle_lanes ((opened s y true).exchangeLanes failed) f x failed false ns
  rw [runCycle_platen, req, unfrozen rfl, same.host rfl]
  refine ⟨rfl, rfl, rfl, rfl, rfl, fun l inSvc formed waits => ?_⟩
  have before : ({ s.lanes.get l with galley := none } : LaneState).forme.isSome = true := formed
  have lane : u.lanes.get l =
      ({ s.lanes.get l with galley := none } : LaneState).exchange l s.keepsVital (failed.contains l) s.net.strobeCount := by
    rw [lanes, exchangeLanes_get, if_pos ((opened_laneIn s y true l).trans inSvc), opened_lane]
    rfl
  obtain ⟨first, second⟩ := exchange_slots ({ s.lanes.get l with galley := none }) l s.keepsVital (failed.contains l) s.net.strobeCount before waits
  obtain ⟨-, slot0, slot1, -, -, -, -, galley⟩ := evaluateLanes_get u x stuck findings fell failed l
  rw [evaluated, slot0, slot1, lane, first, second, swapRun_galley]
  refine ⟨rfl, rfl, fun fails => ?_⟩
  obtain ⟨g, runs⟩ := Option.isSome_iff_exists.1 (exchange_forme _ l s.keepsVital (failed.contains l) s.net.strobeCount before)
  have inService : u.laneIn l = true := by
    rw [← inSvc]
    exact laneIn_congr (by rw [platen]; rfl) l (by rw [lane, exchange_held])
  exact (galley inService g (lane ▸ runs)).1 fails

end

/-- Settles O26: the strobe runs an ordinary cycle, or the exchange cycle that is due, from the state in which the cycle was opened. -/
theorem strobeOpensTheCycle : Obligations.StrobeOpensTheCycle := by
  intro s w x failed can hw
  subst hw
  obtain ⟨y, follows⟩ := followTarget_alone s
  obtain ⟨f, formed⟩ := forme_of_canStrobe can
  refine ⟨fun notDue noRejoin => ?_, fun due => ?_, ?_⟩
  · exact ⟨_, exec_cycleStrobe_plain can follows notDue noRejoin formed, plainCycle_facts rfl⟩
  · obtain ⟨g, run⟩ := exec_exchangeCycle_runs (x := x) can follows due failed
    exact ⟨exec_cycleStrobe_exchange can due, _, run, exchangeCycle_facts rfl⟩
  · rintro c t (⟨rfl, notDue, noRejoin⟩ | ⟨rfl, due⟩) ran
    · have ended := Host.Outcome.next.inj (ran.symm.trans (exec_cycleStrobe_plain can follows notDue noRejoin formed))
      exact runCycle_opens (y := y) (b := false) ended ⟨_, rfl⟩
    · obtain ⟨g, run⟩ := exec_exchangeCycle_runs (x := x) can follows due failed
      have ended := Host.Outcome.next.inj (ran.symm.trans run)
      exact runCycle_opens (y := y) (b := true) ended ⟨_, rfl⟩

end Sys2Proof.Laws
end

section
/-! The expiries inside an evaluation of timers and routes (R99, R117, R120, R121), points (R130, R131) and auxiliary windows (R186, R187):
what each does to a lane whose words say that its limit is reached. -/

namespace Sys2Proof.Laws

open Sys2Proof Sys2Proof.Machine

section
variable {e : Env} {v : Ev} {i : Nat}

/-! ### Timers and routes -/

theorem timerExpiry_of_expired (expired : v.timerExpired e i = true) : v.timerExpiry e i =
    ((v.wr e 0x0F i 0 (v.rd e 0x0F i 0)).wr e 0x0F i 1 (v.rd e 0x0F i 1)).wr e 0x0F i 2 (v.rd e 0x0F i 2) :=
  if_pos expired

/-- The timer of a route in state 5, cancelling, frees the route (R120). -/
theorem approachExpiry_of_expired {rt : RouteRec} {n : Nat} (route : e.forme.routes[i]? = some rt)
    (timer : e.forme.timerNo rt.entry rt.timer = some n) (cancelling : v.rd e 0x0B i 0 = 5) (expired : v.timerExpired e n = true) :
    v.approachExpiry e i =
      ((if (v.route i).auxMark then v.routeEvent e evRouteReleased i (v.route i) 0x06 else v).freeRoute e i true).applyFrees e := by
  unfold Ev.approachExpiry
  rw [route]
  dsimp only
  rw [timer]
  exact if_pos ⟨cancelling, expired⟩

/-- The release timer of a locked overlap runs by its trigger section or by an auxiliary use, and drops it (R121). -/
theorem overlapExpiry_of_expired {r : OverlapRec} {n : Nat} (overlap : e.forme.overlaps[i]? = some r)
    (timer : e.forme.timerNo r.start r.timer = some n) (locked : v.rowsOwned e (ownerOverlap i) ≠ [])
    (expired : v.timerExpired e n = true) (released : occupied (v.sectionState e r.trigger) = true ∨ i ∈ v.core.ovlAux) {u : Ev}
    (hu : u = (v.dropOverlap i).freeOwned e (ownerOverlap i) none) :
    v.overlapExpiry e i = { u with core := { u.core with ovlAux := removeAll u.core.ovlAux i } } := by
  subst hu
  have runs : v.overlapRuns e i r = true := by
    unfold Ev.overlapRuns
    rw [Bool.and_eq_true, Bool.or_eq_true, Bool.not_eq_true', List.isEmpty_eq_false_iff, List.contains_iff_mem]
    exact ⟨locked, released⟩
  unfold Ev.overlapExpiry
  rw [overlap]
  dsimp only
  rw [timer]
  exact if_pos (Bool.and_eq_true_iff.2 ⟨runs, expired⟩)

/-- The request of a route whose setting timeout has run out ends; the route keeps its state (R117). -/
theorem routeStall_of_stalled (state : v.rd e 0x0B i 0 ≠ 0) (slot : (v.route i).slot.isSome = true) (timeout : (v.route i).timeout = 0) :
    v.routeStall e i = ((((v.endRequest e i (v.route i) 0x04 0).routeEvent e evRouteStalled i (v.route i) 0x04).setRoute i
      { v.route i with slot := none, withdrawn := true, clearReq := false }).setState e i (v.rd e 0x0B i 0)) :=
  if_pos ⟨state, slot, timeout⟩

/-! ### Points -/

/-- The event of a stroke that was too long, and the end of the movement's request (R130). -/
def strokeTold (e : Env) (v : Ev) (p : PointRec) (slot : Option Nat) : Ev :=
  match slot with
  | some k => (v.raise evPointStroke (leBytes 2 p.id)).hand (outRec false p.id (some k) 0x03 0x05 e.now)
  | none => v.raise evPointStroke (leBytes 2 p.id)

/-- State of the section of a point, 0 where it names none. -/
def sectionOf (e : Env) (v : Ev) (p : PointRec) : Nat :=
  match e.forme.sectionNo p.sec with
  | some j => v.rd e 0x08 j 0
  | none => 0

theorem sectionOf_eq {p : PointRec} {sec : Nat} (known : ∀ j, e.forme.sectionNo p.sec = some j → sec = v.rd e 0x08 j 0)
    (unnamed : e.forme.sectionNo p.sec = none → sec = 0) : sectionOf e v p = sec := by
  unfold sectionOf
  split
  · next j named => exact (known j named).symm
  · next missing => exact (unnamed missing).symm

section
variable {p : PointRec} (point : e.forme.points[i]? = some p)
include point

theorem strokeExpiry_of_late (driven : (v.pointMem i).drive ≠ 0) (moving : member (v.rd e 0x06 i 1) 3 = true)
    (elsewhere : v.detection e p ≠ (v.pointMem i).drive) (late : e.forme.floorCycles p.stroke ≤ v.rd e 0x06 i 2) :
    v.strokeExpiry e i =
      (((((strokeTold e v p (v.pointMem i).slot).setPointMem i
        { v.pointMem i with drive := 0, goal := 0, slot := none, asked := 0, byRequest := false }).wr e 0x06 i 0 5).wr
        e 0x06 i 1 (setMember (setMember (v.rd e 0x06 i 1) 3 false) 0 false)).wr e 0x06 i 2 0).stopDrives e p := by
  unfold Ev.strokeExpiry strokeTold
  rw [point]
  exact if_pos ⟨driven, moving, elsewhere, late⟩

/-- A point that no movement drives and whose detection stays lost is failed; a trailed machine takes its m4 down (R131, R134). -/
theorem lossExpiry_of_lost {out : Nat × Bool × Bool} (step : out = lossStep (e.forme.floorCycles p.filter) (v.detection e p) (p.typ == 3)
      (sectionOf e v p == 1 || sectionOf e v p == 2) (v.pointMem i))
    (idle : (v.pointMem i).drive = 0) (settled : (v.pointMem i).goal = 0) (lost : out.2.2 = true) :
    v.lossExpiry e i = (((v.raise evPointLost (leBytes 2 p.id)).setPointMem i { v.pointMem i with loss := out.1, failed := true }).wr e 0x06 i 0 5).wr
      e 0x06 i 1 (setMember (if (v.machineReadings e p).any (· == 3) then setMember (v.rd e 0x06 i 1) 4 false else v.rd e 0x06 i 1) 0 false) := by
  subst step
  unfold Ev.lossExpiry
  rw [point]
  exact if_pos ⟨idle, settled, lost⟩

end

/-! ### Auxiliary windows -/

/-- The staging of a window that ran out ends with reason 0x10 (R186). -/
theorem windowExpiry_of_expired {a : AuthorityRec} {g : Staging} {n : Nat} (authority : e.forme.authorities[i]? = some a)
    (staging : kvGet v.core.stagings i = some g) (timer : e.forme.timerNo a.offer a.timer = some n) (expired : v.timerExpired e n = true) :
    v.windowExpiry e i = ((v.endStaging e i g 0x0A 0x10).stopWindow e a).offers e [] i a := by
  unfold Ev.windowExpiry
  rw [authority, staging]
  dsimp only
  rw [timer]
  exact if_pos expired

/-- The only staging, confirmed three cycles ago and not counted, ends with reason 0x15 (R187). -/
theorem notCountedOf_single {q : Nat × Staging} {j : Nat} (only : v.core.stagings = [q]) (confirmed : q.2.confirmed = some j)
    (own : q.1 % 8 = i) (late : j + 3 ≤ e.now) : v.notCountedOf e i = (v.stagingRecord e i q.2 0x03 0x15).setStagings [] := by
  have gone : kvDel [q] q.1 = [] := by simp [kvDel]
  unfold Ev.notCountedOf
  rw [only, List.foldl_cons, List.foldl_nil, confirmed, only, gone]
  exact if_pos ⟨own, late⟩

end

/-- Settles O31: each row runs its operation in the lane, whose words say that the limit is reached. -/
theorem routePointAndTimerExpiries : Obligations.RoutePointAndTimerExpiries := by
  rintro s l f e v i running inService formed rfl rfl
  have acts (c : Instr) (op : Env → Ev → Ev) (run : exec c s = .next (s.laneOp op)) : ∃ t : State, exec c s = .next t ∧
      t.lanes.get l = (s.lanes.get l).take (op (s.envOf l f) (Ev.start (s.lanes.get l).core)) :=
    ⟨_, run, laneOp_get running inService formed op⟩
  refine ⟨_, rfl, fun expired => ?_, fun rt n route timer cancelling expired => ?_, fun r n overlap timer locked expired released => ?_,
    fun state slot timeout => ?_, ?_, ?_, fun a g n authority staging timer expired => ?_, fun q j only confirmed own late => ?_⟩
  · rw [← timerExpiry_of_expired expired]
    exact acts (.timerExpiry i) (fun e v => v.timerExpiry e i) rfl
  · rw [← approachExpiry_of_expired (e := s.envOf l f) route timer cancelling expired]
    exact acts (.approachLockExpiry i) (fun e v => v.approachExpiry e i) rfl
  · obtain ⟨t, run, lane⟩ := acts (.overlapReleaseExpiry i) (fun e v => v.overlapExpiry e i) rfl
    refine ⟨t, run, _, rfl, ?_⟩
    rw [lane, overlapExpiry_of_expired (e := s.envOf l f) overlap timer locked expired released rfl]
  · rw [← routeStall_of_stalled state slot timeout]
    exact acts (.routeStalled i) (fun e v => v.routeStall e i) rfl
  · rintro p m point rfl driven moving elsewhere late
    obtain ⟨t, run, lane⟩ := acts (.pointStroke i) (fun e v => v.strokeExpiry e i) rfl
    refine ⟨t, _, strokeTold (s.envOf l f) (Ev.start (s.lanes.get l).core) p ((Ev.start (s.lanes.get l).core).pointMem i).slot, run, rfl,
      fun free => ?_, fun k held => ?_, ?_⟩
    · rw [free]; rfl
    · rw [held]; rfl
    · rw [lane, strokeExpiry_of_late (e := s.envOf l f) point driven moving elsewhere late]
  · rintro p m sec out b point rfl known unnamed step idle settled lost rfl
    rw [← sectionOf_eq (e := s.envOf l f) known unnamed] at step
    rw [← lossExpiry_of_lost (e := s.envOf l f) point step idle settled lost]
    exact acts (.pointLost i) (fun e v => v.lossExpiry e i) rfl
  · rw [← windowExpiry_of_expired (e := s.envOf l f) authority staging timer expired]
    exact acts (.auxWindowExpiry i) (fun e v => v.windowExpiry e i) rfl
  · rw [← notCountedOf_single (e := s.envOf l f) only confirmed own late]
    exact acts (.auxNotCounted i) (fun e v => v.notCountedOf e i) rfl

end Sys2Proof.Laws
end

section
/-! Updates that end (R355, R359) and attestation (R362, R363): the boot records, activation, confirmation, and the report. -/

namespace Sys2Proof.Laws

open Sys2Proof Sys2Proof.Machine

/-! ### Boot records -/

section
variable {u : Update}

theorem winner_zero (valid : u.boot0.valid = true) (newer : u.boot1.valid = true → u.boot1.seq ≤ u.boot0.seq) : u.winner = some u.boot0 := by
  unfold Update.winner
  cases other : u.boot1.valid with
  | false => rw [valid]
  | true => rw [valid]; exact if_neg (Nat.not_lt.2 (newer other))

theorem winner_one (valid : u.boot1.valid = true) (newer : u.boot0.valid = true → u.boot0.seq < u.boot1.seq) : u.winner = some u.boot1 := by
  unfold Update.winner
  cases other : u.boot0.valid with
  | false => rw [valid]
  | true => rw [valid]; exact if_pos (newer other)

/-- Record 1 wins where it is valid and newer than a valid record 0. -/
theorem winsOne_iff : u.winsOne = true ↔ u.boot1.valid = true ∧ (u.boot0.valid = true → u.boot0.seq < u.boot1.seq) := by
  unfold Update.winsOne
  cases u.boot0.valid <;> simp

theorem record_of_winsOne (h : u.winsOne = true) : u.record = u.boot1 := by
  obtain ⟨valid, newer⟩ := winsOne_iff.1 h
  unfold Update.record
  rw [winner_one valid newer]
  rfl

theorem record_of_not_winsOne (h : ¬ u.winsOne = true) (valid : u.boot0.valid = true) : u.record = u.boot0 := by
  unfold Update.record
  rw [winner_zero valid fun one => ?_]
  · rfl
  · by_contra later
    exact h (winsOne_iff.2 ⟨one, fun _ => by omega⟩)

variable (g : BootRec → BootRec)

/-- A record as it is written: valid, and with the next sequence (Table 17-5). -/
def nextRec (u : Update) (g : BootRec → BootRec) : BootRec := { g u.record with valid := true, seq := u.record.seq + 1 }

/-- The copy goes over the record that loses, and nothing else of the update changes. -/
theorem writeRec_eq : ∃ x y, u.writeRec g = { u with boot0 := x, boot1 := y } ∧ (x = u.boot0 ∨ y = u.boot1) := by
  unfold Update.writeRec
  dsimp only
  split
  · exact ⟨_, u.boot1, rfl, .inr rfl⟩
  · exact ⟨u.boot0, _, rfl, .inl rfl⟩

/-- The copy wins, since its sequence is above that of the record that won. -/
theorem writeRec_winner : (u.writeRec g).winner = some (nextRec u g) := by
  unfold Update.writeRec
  dsimp only
  split
  · next one =>
    refine winner_zero (u := { u with boot0 := nextRec u g }) rfl fun _ => ?_
    show u.boot1.seq ≤ u.record.seq + 1
    rw [record_of_winsOne one]
    omega
  · next zero =>
    refine winner_one (u := { u with boot1 := nextRec u g }) rfl fun valid => ?_
    show u.boot0.seq < u.record.seq + 1
    rw [record_of_not_winsOne zero valid]
    omega

theorem writeRec_record : (u.writeRec g).record = nextRec u g := by
  unfold Update.record
  rw [writeRec_winner]
  rfl

end

theorem setEntry_entry_self {r : BootRec} {typ : Nat} (least : 1 ≤ typ) (most : typ ≤ r.entries.length) (g : BootEntry → BootEntry) :
    (r.setEntry typ g).entry typ = g (r.entry typ) := by
  unfold BootRec.setEntry BootRec.entry updNth
  rw [nthD_setNth, if_pos ⟨rfl, by omega⟩]

/-- A confirmed trial is the current image, with its version and its floor (R359). -/
theorem confirm_entry {r : BootRec} {c : Colophon} (least : 1 ≤ c.typ) (most : c.typ ≤ r.entries.length) :
    (r.confirm c).entry c.typ = { current := (r.entry c.typ).trial.getD (r.entry c.typ).current, trial := none,
                                  currentVersion := c.version, trialVersion := 0, floor := c.rollback } := by
  have own := setEntry_entry_self (r := r) least most (fun x =>
    { current := x.trial.getD x.current, trial := none, currentVersion := c.version, trialVersion := 0, floor := c.rollback })
  rw [← own]
  unfold BootRec.confirm
  dsimp only
  split <;> rfl

theorem confirm_cfgOld (r : BootRec) (c : Colophon) : (r.confirm c).cfgOld = none := by
  unfold BootRec.confirm
  dsimp only
  split <;> rfl

/-! ### A command of the session's source -/

section
variable {s : State} {o : Outstanding} {states : List Nat} {run : UpdSession → State → State} {q : UpdSession}

theorem withSession_of_none (absent : s.update.session = none) : s.withSession o states run = s.answer o .state 0 [] := by
  unfold State.withSession; rw [absent]

section
variable (session : s.update.session = some q)
include session

theorem foreign_iff : s.foreign o = true ↔ q.source ≠ s.sourceOf o := by
  unfold State.foreign; rw [session]; exact bne_iff_ne

theorem withSession_of_foreign (other : q.source ≠ s.sourceOf o) : s.withSession o states run = s.answer o .busy 0 [] := by
  unfold State.withSession
  rw [session]
  exact if_pos ((foreign_iff session).2 other)

variable (own : q.source = s.sourceOf o)
include own

theorem withSession_of_state (other : s.update.state ∉ states) : s.withSession o states run = s.answer o .state 0 [] := by
  unfold State.withSession
  rw [session]
  exact (if_neg fun foreign => (foreign_iff session).1 foreign own).trans (if_pos (by simpa using other))

theorem withSession_runs (state : s.update.state ∈ states) : s.withSession o states run = run q s := by
  unfold State.withSession
  rw [session]
  exact (if_neg fun foreign => (foreign_iff session).1 foreign own).trans (if_neg (by simpa using state))

end
end

/-! ### Activation (R355) -/

/-- The update once its verified image is on trial. -/
def activated (u : Update) (c : Colophon) : Update :=
  { u.active.writeRec (fun r => r.setEntry c.typ (fun x => { x with trial := some (u.freeSlotOf c.typ), trialVersion := c.version })) with
    trialSeq := u.record.seq + 1, trialCount := 0, state := 4 }

theorem activated_winner (u : Update) (c : Colophon) : (activated u c).winner = some (nextRec u (fun r => r.setEntry c.typ (fun x =>
    { x with trial := some (u.freeSlotOf c.typ), trialVersion := c.version }))) :=
  writeRec_winner (u := u.active) _

/-- The trial counter belongs to the record just written, at 0. -/
theorem activated_trialBoots (u : Update) (c : Colophon) : (activated u c).trialBoots = 0 := by
  unfold Update.trialBoots
  rw [activated_winner]
  exact ite_self _

theorem activated_keeps (u : Update) (c : Colophon) : ((activated u c).boot0 = u.boot0 ∨ (activated u c).boot1 = u.boot1) ∧
    (activated u c).session = u.session := by
  obtain ⟨x, y, written, kept⟩ := writeRec_eq (u := u.active) (fun r => r.setEntry c.typ (fun x =>
    { x with trial := some (u.freeSlotOf c.typ), trialVersion := c.version }))
  unfold activated
  rw [written]
  exact ⟨kept, rfl⟩

/-- The activation answered and told, before the vital part stops. -/
def activationTold (s : State) (o : Outstanding) (c : Colophon) : State :=
  (({ s with update := activated s.update c } : State).answer o .done 0 (leBytes 4 (s.update.record.seq + 1))).raiseWith evUpdActivated
    (leBytes 1 c.typ) [updKeep 1 c.typ (s.update.record.seq + 1)]

section
variable {s : State} {o : Outstanding} {q : UpdSession} {f : StartFacts}

theorem mayActivate_iff : s.mayActivate = true ↔
    s.life.state = .manufacture ∨ s.life.state = .commissioning ∨ s.life.state = .maintenance := by
  unfold State.mayActivate
  simp only [Bool.or_eq_true, beq_iff_eq, or_assoc]

theorem not_mayActivate (h : s.life.state = .operation ∨ s.life.state = .retired) : s.mayActivate = false := by
  rw [← Bool.not_eq_true, mayActivate_iff]
  rcases h with h | h <;> rw [h] <;> decide

theorem activate_of_refused (h : s.mayActivate = false ∨ (q.colophon.typ = 2 ∧ s.xchg.state ≠ .idle)) :
    s.activate o q f = s.answer o .state 0 [] :=
  if_pos (h.imp_left fun barred => by rw [barred]; rfl)

theorem activate_of_allowed (may : s.mayActivate = true) (free : q.colophon.typ = 2 → s.xchg.state = .idle) :
    s.activate o q f = (stoppedFor (activationTold s o q.colophon) true).start f 3 false := by
  unfold State.activate
  dsimp only
  rw [if_neg, writeRec_record]
  · rfl
  · rintro (barred | ⟨forme, busy⟩)
    · rw [may] at barred; cases barred
    · exact busy (free forme)

end

theorem exec_updActivate {s u : State} {o : Outstanding} {e : Entry} (h : s.accepts 0x1205 true true e u o) (f : StartFacts) :
    exec (.updActivate e f) s = .next (u.withSession o [3] (fun q s => s.activate o q f)) :=
  congrArg _ (command_accepts h _)

/-! ### Confirmation (R359) -/

section
variable {s : State} {o : Outstanding} {t : List Byte}

theorem withToken_of_pass {kinds : List Nat} {sig : Sig} {run : State → State} (sized : tokSized t = true) (passes : s.tokenFail kinds t sig = 0) :
    s.withToken o kinds t sig run = run (s.countToken t) := by
  unfold State.withToken
  rw [if_neg (by rw [sized]; decide), passes]
  rfl

theorem countToken_sourceOf (s : State) (t : List Byte) (o : Outstanding) : (s.countToken t).sourceOf o = s.sourceOf o := by
  unfold State.sourceOf
  rw [countToken_host]

theorem countToken_trialImageRuns (s : State) (t : List Byte) (q : UpdSession) : (s.countToken t).trialImageRuns q = s.trialImageRuns q := rfl

end

/-- The update once its trial image is confirmed. -/
def confirmed (u : Update) (c : Colophon) : Update :=
  (match u.record.cfgOld with
    | some k => (u.writeRec (fun r => r.confirm c)).setNand 3 k .empty
    | none => u.writeRec (fun r => r.confirm c)).endSession

/-- The record written stands, and the slot of the old configuration copy is erased. -/
theorem confirmed_eq (u : Update) (c : Colophon) : ∃ x y,
    confirmed u c = { u with boot0 := x, boot1 := y, state := 0, session := none, parts := [], idleS := 0,
                             nand := match u.record.cfgOld with | some k => setNth u.nand (4 + k) .empty | none => u.nand } ∧
    (x = u.boot0 ∨ y = u.boot1) ∧ (confirmed u c).winner = some (nextRec u (fun r => r.confirm c)) := by
  have wins := writeRec_winner (u := u) (fun r => r.confirm c)
  obtain ⟨x, y, written, kept⟩ := writeRec_eq (u := u) (fun r => r.confirm c)
  unfold confirmed
  rw [written] at wins ⊢
  cases u.record.cfgOld with
  | none => exact ⟨x, y, rfl, kept, wins⟩
  | some k => exact ⟨x, y, rfl, kept, wins⟩

section
variable {s : State} {o : Outstanding} {t : List Byte} {q : UpdSession}

theorem confirm_of_not_running (h : s.trialImageRuns q = false) : s.confirm o q t = s.answer o .state 0 [] :=
  if_pos (by rw [h]; rfl)

section
variable (runs : s.trialImageRuns q = true)
include runs

theorem confirm_of_other_image (h : fieldAt (tokBody t) 0 1 ≠ q.colophon.typ ∨ digestAt (tokBody t) 4 ≠ q.colophon.digest) :
    s.confirm o q t = s.answer o .auth 0 [] :=
  (if_neg (by rw [runs]; decide)).trans (if_pos h)

theorem confirm_of_own_image (typ : fieldAt (tokBody t) 0 1 = q.colophon.typ) (digest : digestAt (tokBody t) 4 = q.colophon.digest) :
    s.confirm o q t = (({ s with update := confirmed s.update q.colophon } : State).answer o .done 0 (leBytes 4 (s.update.record.seq + 1))).raiseWith
      evUpdConfirmed (leBytes 1 q.colophon.typ) [updKeep 2 q.colophon.typ (s.update.record.seq + 1)] := by
  have wins := writeRec_record (u := s.update) (fun r => r.confirm q.colophon)
  unfold State.confirm confirmed
  dsimp only
  rw [if_neg (by rw [runs]; decide), if_neg (fun other => other.elim (· typ) (· digest))]
  cases s.update.record.cfgOld with
  | none => dsimp only; rw [wins]; rfl
  | some k =>
    have kept : ((s.update.writeRec (fun r => r.confirm q.colophon)).setNand 3 k .empty).record = _ := wins
    dsimp only
    rw [kept]
    rfl

end
end

theorem exec_updConfirm {s u : State} {o : Outstanding} {e : Entry} {b : List Byte} {sig : Sig} (h : s.accepts 0x1206 true true e u o)
    (hb : b = Entry.body e) (sized : tokSized b = true) (passes : u.tokenFail [0x08] b sig = 0) :
    exec (.updConfirm e sig) s = .next ((u.countToken b).withSession o [4] (fun q s => s.confirm o q b)) := by
  subst hb
  exact congrArg _ ((command_accepts h _).trans (withToken_of_pass sized passes))

/-! ### Attestation (R362, R363) -/

@[simp] theorem length_leBytes : ∀ w n : Nat, (leBytes w n).length = w
  | 0, _ => rfl
  | w + 1, n => congrArg (· + 1) (length_leBytes w (n / 256))

@[simp] theorem length_digestBytes (d : Digest) : (digestBytes d).length = 64 := by
  unfold digestBytes beBytes
  rw [List.length_reverse, length_leBytes]

theorem leNat_leBytes : ∀ w n : Nat, leNat (leBytes w n) = n % 256 ^ w
  | 0, n => (Nat.mod_one n).symm
  | w + 1, n => by
    unfold leBytes leNat
    rw [leNat_leBytes w, BitVec.toNat_ofNat, Nat.pow_succ' (n := w), Nat.mod_mul]

/-- The field at the front of a record. -/
theorem fieldAt_front (w n : Nat) (m : List Byte) : fieldAt (leBytes w n ++ m) 0 w = n % 256 ^ w := by
  unfold fieldAt
  rw [List.drop_zero, List.take_append_of_le_length (length_leBytes w n).ge, List.take_of_length_le (length_leBytes w n).le, leNat_leBytes]

/-- A field behind the first one of a record. -/
theorem fieldAt_behind (w n : Nat) (m : List Byte) (off k : Nat) : fieldAt (leBytes w n ++ m) (w + off) k = fieldAt m off k := by
  unfold fieldAt
  rw [← List.drop_drop, List.drop_left' (length_leBytes w n)]

/-- Every entry of the report takes 80 bytes (Table 17-9). -/
theorem length_attestEntry (s : State) (typ : Nat) : (s.attestEntry typ).length = 80 := by
  unfold State.attestEntry
  split
  · exact length_leBytes ..
  · split
    · exact length_leBytes ..
    · simp only [List.length_append, length_leBytes, length_digestBytes]

/-- The bytes of the report before the nonce. -/
def attestHead (s : State) : List Byte :=
  leBytes 4 0x41585350 ++ leBytes 2 1 ++ leBytes 1 s.life.state.code ++
  leBytes 1 (ofMembers [s.trialRuns, s.update.session.isSome, s.platen.safe]) ++ leBytes 8 s.ident.serial ++
  leBytes 4 s.ident.part.toNat ++ leBytes 4 s.update.record.seq

/-- The bytes of the report behind the nonce. -/
def attestTail (s : State) : List Byte :=
  leBytes 56 s.ident.x448Key.toNat ++ [1, 2, 3, 4].flatMap s.attestEntry ++
  (if s.life.authority = 0 then leBytes 8 0 else (digestBytes (shake256 (leBytes 57 s.life.authority.toNat))).take 8) ++
  leBytes 8 s.life.installation

theorem attestReport_eq (s : State) (nonce : List Byte) : s.attestReport nonce = attestHead s ++ (nonce ++ attestTail s) := by
  unfold State.attestReport attestHead attestTail
  simp only [List.append_assoc]

theorem length_attestHead (s : State) : (attestHead s).length = 0x18 := by
  unfold attestHead
  simp only [List.length_append, length_leBytes]

theorem length_attestTail (s : State) : (attestTail s).length = 392 := by
  have key : (if s.life.authority = 0 then leBytes 8 0 else (digestBytes (shake256 (leBytes 57 s.life.authority.toNat))).take 8).length = 8 := by
    split
    · exact length_leBytes ..
    · rw [List.length_take, length_digestBytes]; rfl
  unfold attestTail
  simp only [List.length_append, key, length_leBytes, List.flatMap_cons, List.flatMap_nil, length_attestEntry, List.length_nil]

/-- What a verifier reads from a report of 32 bytes of nonce: its length, the nonce, the magic, and the life-cycle state. -/
theorem attestReport_facts (s : State) {nonce : List Byte} (sized : nonce.length = 32) :
    (s.attestReport nonce).length = 448 ∧ ((s.attestReport nonce).drop 0x18).take 32 = nonce ∧
    fieldAt (s.attestReport nonce) 0 4 = 0x41585350 ∧ fieldAt (s.attestReport nonce) 6 1 = s.life.state.code := by
  have head := length_attestHead s
  rw [attestReport_eq]
  refine ⟨?_, ?_, ?_, ?_⟩
  · simp only [List.length_append, head, sized, length_attestTail]
  · rw [← head, List.drop_left, ← sized, List.take_left]
  · simp only [attestHead, List.append_assoc]
    exact fieldAt_front 4 ..
  · simp only [attestHead, List.append_assoc]
    refine ((fieldAt_behind 4 _ _ 2 1).trans ((fieldAt_behind 2 _ _ 0 1).trans (fieldAt_front 1 ..))).trans ?_
    cases s.life.state <;> rfl

section
variable {s : State} {o : Outstanding}

theorem attest_of_signing (nonce : List Byte) (busy : s.update.signing.isSome = true) : s.attest o nonce = s.answer o .busy 0 [] :=
  if_pos busy

theorem attest_of_free (nonce : List Byte) (free : s.update.signing = none) (up : s.power.cryptoDown = false) : s.attest o nonce =
    ({ s with update := { s.update with signing := some (o, s.attestReport nonce) } } : State).keep o :=
  (if_neg (by rw [free]; decide)).trans (if_neg (by rw [up]; decide))

theorem exec_reportSigned {p : Outstanding × List Byte} (signing : s.update.signing = some p) : exec .reportSigned s =
    if s.power.running ∧ s.host.stewardUp ∧ !s.power.cryptoDown then
      .next (({ s with update := { s.update with signing := none } } : State).answerOut p.1 .done 0
        (p.2 ++ leBytes 114 (Config.signature p.2).toNat))
    else .next s := by
  show execReportSigned s = _
  unfold execReportSigned
  rw [signing]

end

theorem exec_updAttest {s u : State} {o : Outstanding} {e : Entry} (h : s.accepts 0x1208 false true e u o) (sized : Entry.size e 32 = true) :
    exec (.updAttest e) s = .next (u.attest o ((Entry.body e).take 32)) :=
  congrArg _ ((command_accepts h _).trans (if_pos sized))

/-! ### The commands as the statement has them -/

section
variable {s u : State} {op : Nat} {needs needsUdp : Bool} {e : Entry} {o : Outstanding}

theorem accepts_update (h : s.accepts op needs needsUdp e u o) : u.update = s.update := by
  obtain ⟨l, rfl⟩ := accepts_host h; rfl

theorem accepts_life (h : s.accepts op needs needsUdp e u o) : u.life = s.life := by
  obtain ⟨l, rfl⟩ := accepts_host h; rfl

theorem accepts_power (h : s.accepts op needs needsUdp e u o) : u.power = s.power := by
  obtain ⟨l, rfl⟩ := accepts_host h; rfl

theorem accepts_attestReport (h : s.accepts op needs needsUdp e u o) : u.attestReport = s.attestReport := by
  obtain ⟨l, rfl⟩ := accepts_host h; rfl

theorem accepts_trialImageRuns (h : s.accepts op needs needsUdp e u o) : u.trialImageRuns = s.trialImageRuns := by
  obtain ⟨l, rfl⟩ := accepts_host h; rfl

end

section
variable {s u : State} {o : Outstanding} {e : Entry} {b : List Byte} {q : UpdSession}

/-- upd.activate of a verified image: STATE where the life cycle or an exchange bars it, else the trial is recorded and the module starts. -/
theorem updActivate_facts (h : s.accepts 0x1205 true true e u o) (f : StartFacts) (session : s.update.session = some q)
    (own : q.source = u.sourceOf o) (state : s.update.state = 3) :
    ((s.life.state = .operation ∨ s.life.state = .retired) ∨ (q.colophon.typ = 2 ∧ s.xchg.state ≠ .idle) →
      exec (.updActivate e f) s = .next (u.answer o .state 0 [])) ∧
    (s.life.state = .manufacture ∨ s.life.state = .commissioning ∨ s.life.state = .maintenance → (q.colophon.typ = 2 → s.xchg.state = .idle) →
      exec (.updActivate e f) s = .next ((stoppedFor (activationTold u o q.colophon) true).start f 3 false)) := by
  rw [← accepts_update h] at session state
  rw [exec_updActivate h f, withSession_runs session own (by rw [state]; decide), ← accepts_life h, ← accepts_xchg h]
  exact ⟨fun barred => congrArg _ (activate_of_refused (barred.imp_left not_mayActivate)),
    fun may free => congrArg _ (activate_of_allowed (mayActivate_iff.2 may) free)⟩

/-- upd.confirm under a token that passed. -/
theorem updConfirm_facts (h : s.accepts 0x1206 true true e u o) {sig : Sig} (hb : b = Entry.body e) (sized : tokSized b = true)
    (passes : u.tokenFail [0x08] b sig = 0) {v : State} (hv : v = u.countToken b) :
    (s.update.session = none → exec (.updConfirm e sig) s = .next (v.answer o .state 0 [])) ∧
    (s.update.session = some q →
      (q.source ≠ u.sourceOf o → exec (.updConfirm e sig) s = .next (v.answer o .busy 0 [])) ∧
      (q.source = u.sourceOf o → s.update.state ≠ 4 ∨ s.trialImageRuns q = false → exec (.updConfirm e sig) s = .next (v.answer o .state 0 [])) ∧
      (q.source = u.sourceOf o → s.update.state = 4 → s.trialImageRuns q = true →
        exec (.updConfirm e sig) s = .next (v.confirm o q b) ∧ v.trialImageRuns q = true)) := by
  rw [exec_updConfirm h hb sized passes, ← accepts_update h, ← accepts_trialImageRuns h, ← countToken_sourceOf u b o,
    ← countToken_update u b, ← countToken_trialImageRuns u b, ← hv]
  refine ⟨fun absent => congrArg _ (withSession_of_none absent), fun session => ⟨fun other => congrArg _ (withSession_of_foreign session other),
    fun own barred => ?_, fun own state runs => ⟨congrArg _ (withSession_runs session own (by rw [state]; decide)), runs⟩⟩⟩
  by_cases state : v.update.state = 4
  · rw [withSession_runs session own (by rw [state]; decide), confirm_of_not_running (barred.resolve_left (not_not_intro state))]
  · rw [withSession_of_state session own (by simpa using state)]

theorem updAttest_facts (h : s.accepts 0x1208 false true e u o) (hb : b = Entry.body e) (sized : Entry.size e 32 = true) :
    (s.update.signing.isSome = true → exec (.updAttest e) s = .next (u.answer o .busy 0 [])) ∧
    (s.update.signing = none → s.power.cryptoDown = false → exec (.updAttest e) s = .next
      (({ u with update := { s.update with signing := some (o, s.attestReport (b.take 32)) } } : State).keep o)) := by
  rw [exec_updAttest h sized, ← hb, ← accepts_update h, ← accepts_power h, ← accepts_attestReport h]
  exact ⟨fun busy => congrArg _ (attest_of_signing _ busy), fun free up => congrArg _ (attest_of_free _ free up)⟩

end

/-- Settles O58: the record written wins over the one it replaces, and each command answers by what its operation does. -/
theorem imagesActivateConfirmAndAttest : Obligations.ImagesActivateConfirmAndAttest := by
  intro s u o e b q sig f hb
  refine ⟨fun h session own state => ?_, fun h sized passes v hv => ?_, fun r c least most k trial => ?_, fun h sized => ?_, fun p signing => ?_⟩
  · obtain ⟨barred, allowed⟩ := updActivate_facts h f session own state
    refine ⟨barred, fun may free => ?_⟩
    obtain ⟨kept, same⟩ := activated_keeps s.update q.colophon
    refine ⟨activated s.update q.colophon, _, _, rfl, activated_winner .., kept, rfl, same.trans session, activated_trialBoots .., rfl,
      allowed may free, ?_⟩
    unfold activationTold
    rw [accepts_update h]
    rintro v rfl
    exact ⟨rfl, fun passes => (start_begun _ f 3 false passes).1⟩
  · obtain ⟨absent, present⟩ := updConfirm_facts (q := q) h hb sized passes hv
    refine ⟨absent, fun session => ?_⟩
    obtain ⟨foreign, barred, runs⟩ := present session
    refine ⟨foreign, barred, fun own state trial => ?_⟩
    obtain ⟨run, trialRuns⟩ := runs own state trial
    rw [run]
    refine ⟨fun other => congrArg _ (confirm_of_other_image trialRuns other), fun typ digest => ?_⟩
    obtain ⟨x, y, written, kept, wins⟩ := confirmed_eq s.update q.colophon
    have update : v.update = s.update := (hv ▸ countToken_update u b).trans (accepts_update h)
    refine ⟨confirmed s.update q.colophon, _, rfl, wins, ?_, ?_, ?_, ?_, ?_, ?_⟩
    · rw [written]; exact kept
    · rw [written]
    · rw [written]
    · rw [written]
    · exact (congrArg Update.nand written).trans (by cases s.update.record.cfgOld <;> rfl)
    · rw [confirm_of_own_image trialRuns typ digest, update]
  · refine ⟨_, rfl, ?_⟩
    rw [confirm_entry least most, trial]
    exact ⟨rfl, rfl, rfl, rfl, confirm_cfgOld r c⟩
  · obtain ⟨busy, free⟩ := updAttest_facts h hb sized
    refine ⟨busy, fun signing up => ?_⟩
    have nonce : (b.take 32).length = 32 := by
      have := of_decide_eq_true sized
      rw [List.length_take, hb]
      omega
    obtain ⟨length, held, magic, state⟩ := attestReport_facts s nonce
    exact ⟨_, _, rfl, length, held, magic, state, rfl, free signing up⟩
  · rw [exec_reportSigned signing]
    refine ⟨fun running up sound => ⟨_, rfl, if_pos ⟨running, up, by rw [sound]; rfl⟩⟩, fun down => if_neg ?_⟩
    rintro ⟨running, up, sound⟩
    simp [running, up] at down
    simp [down] at sound

end Sys2Proof.Laws
end

section
/-! Operator requests (R122, R158, R175, R176): the request slots, when a request is taken, and the counters of auxiliary operations (R188). -/

namespace Sys2Proof.Laws

open Sys2Proof Sys2Proof.Machine

/-! ### Request slots -/

theorem kvGet_eq_none_iff {α : Type} {n : Nat} : ∀ {l : List (Nat × α)}, kvGet l n = none ↔ n ∉ l.map Prod.fst
  | [] => by simp [kvGet]
  | (k, v) :: l => by
    rw [kvGet, List.map_cons, List.mem_cons, not_or]
    by_cases own : k = n
    · simp [own]
    · rw [if_neg own, kvGet_eq_none_iff]
      simp [Ne.symm own]

section
variable {r : Requests}

/-- 256 slots do not all fit into fewer than 256 taken ones. -/
theorem exists_free_slot (room : r.taken < 256) : ∃ n < 256, kvGet r.slots n = none := by
  by_contra full
  have listed : List.range 256 ⊆ (r.slots.filter (fun p => decide (p.1 < 256))).map Prod.fst := by
    intro n hn
    have bound : n < 256 := List.mem_range.1 hn
    have taken : n ∈ r.slots.map Prod.fst := Classical.not_not.1 fun free => full ⟨n, bound, kvGet_eq_none_iff.2 free⟩
    obtain ⟨p, hp, rfl⟩ := List.mem_map.1 taken
    exact List.mem_map_of_mem (List.mem_filter.2 ⟨hp, decide_eq_true bound⟩)
  have fits := (List.nodup_range.subperm listed).length_le
  rw [List.length_range, List.length_map] at fits
  exact absurd room (Nat.not_lt.2 fits)

/-- With one of the slots free, the slot given is free, and every lower one is taken. -/
theorem slotFrom_zero_lowest {k : Nat} (free : kvGet r.slots k = none) (bound : k < 257) : r.slotFrom 0 ≤ k ∧
    kvGet r.slots (r.slotFrom 0) = none ∧ ∀ m, m < r.slotFrom 0 → (kvGet r.slots m).isSome = true := by
  unfold Requests.slotFrom
  simp only [Nat.zero_add]
  cases found : (List.range 257).find? (fun i => (kvGet r.slots i).isNone) with
  | none => exact absurd (List.find?_eq_none.1 found k (List.mem_range.2 bound)) (by simp [free])
  | some n =>
    obtain ⟨isFree, -, lower⟩ := List.find?_range_eq_some.1 found
    have taken (m : Nat) (hm : m < n) : (kvGet r.slots m).isSome = true := by simpa using lower m hm
    refine ⟨Nat.le_of_not_lt fun below => ?_, by simpa using isFree, taken⟩
    simpa [free] using taken k below

end

/-- A request that is no force goes into the lowest free slot, as the last one that waits (R122). -/
theorem file_facts {s : State} {k : ReqKind} (noForce : k.isForce = false) (room : s.req.taken < 256) (o : Outstanding) (key tok : Nat) :
    ∃ n < 256, kvGet s.req.slots n = none ∧ (∀ m, m < n → (kvGet s.req.slots m).isSome = true) ∧
      (∀ m, kvGet (s.file o k key tok).req.slots m = if m = n then some k else kvGet s.req.slots m) ∧
      (s.file o k key tok).req.waiting = s.req.waiting ++ [{ kind := k, slot := some n }] ∧
      kvGet (s.file o k key tok).req.origins n = some (o.session, key, tok) ∧
      (s.file o k key tok).host.outstanding = s.host.outstanding ++ [{ o with slot := some n }] := by
  obtain ⟨j, bound, free⟩ := exists_free_slot room
  obtain ⟨least, isFree, lower⟩ := slotFrom_zero_lowest free (Nat.lt_succ_of_lt bound)
  simp only [State.file, noForce, Bool.false_eq_true, if_false]
  refine ⟨s.req.slotFrom 0, Nat.lt_of_le_of_lt least bound, isFree, lower, fun m => ?_, rfl, ?_, rfl⟩
  · exact (kvGet_kvSet _).trans (by simp only [eq_comm])
  · exact (kvGet_kvSet _).trans (if_pos rfl)

/-! ### When requests are taken -/

section
variable {s : State} {o : Outstanding} {k : ReqKind} {cancel : Bool}

theorem serves_iff : s.serves = true ↔ s.life.state = .commissioning ∨ s.life.state = .operation ∨ s.life.state = .maintenance := by
  simp [State.serves, or_assoc]

/-- The exchange periods let everything pass while idle, and a cancel up to the commit (R158). -/
theorem exchangeBars_eq_false_iff : s.exchangeBars cancel = false ↔ s.xchg.state = .idle ∨ (cancel = true ∧ s.xchg.state ≠ .committing) := by
  unfold State.exchangeBars
  cases s.xchg.state <;> simp

/-- A request of the host is taken (R122, R158, R175, R291; log 33): the module serves with a forme, commands, is not in the safe state, no
exchange bars it, and its target holds no slot. -/
def mayRequest (s : State) (k : ReqKind) (cancel : Bool) : Prop :=
  (s.life.state = .commissioning ∨ s.life.state = .operation ∨ s.life.state = .maintenance) ∧ s.forme.isSome = true ∧
    s.standsBy = false ∧ s.platen.safe = false ∧ (s.xchg.state = .idle ∨ (cancel = true ∧ s.xchg.state ≠ .committing)) ∧ s.req.clashes k = false

/-- The request is the cancelling of a route, the one that an exchange lets pass until it commits (R158). -/
def isCancel : ReqKind → Bool
  | .routeCancel _ => true
  | _ => false

theorem mayRequest_iff : mayRequest s k cancel ↔ ¬ (!s.open' cancel ∨ s.platen.safe ∨ s.req.clashes k) := by
  unfold mayRequest State.open'
  rw [← serves_iff, ← exchangeBars_eq_false_iff]
  simp only [Bool.not_and, Bool.not_not, Bool.or_eq_true, Bool.not_eq_true', not_or, Bool.not_eq_false, Bool.not_eq_true]
  tauto

theorem request_eq : s.request o k = if !s.open' (isCancel k) ∨ s.platen.safe ∨ s.req.clashes k then s.answer o .state 0 []
    else if 256 ≤ s.req.taken then s.noSlot o else s.file o k 0xFF 0 := by
  cases k <;> rfl

theorem request_of_not_may (h : ¬ mayRequest s k (isCancel k)) : s.request o k = s.answer o .state 0 [] := by
  rw [request_eq, if_pos (Classical.not_not.1 (mt mayRequest_iff.2 h))]

theorem request_of_full (may : mayRequest s k (isCancel k)) (full : 256 ≤ s.req.taken) : s.request o k = s.noSlot o := by
  rw [request_eq, if_neg (mayRequest_iff.1 may), if_pos full]

theorem request_of_room (may : mayRequest s k (isCancel k)) (room : s.req.taken < 256) : s.request o k = s.file o k 0xFF 0 := by
  rw [request_eq, if_neg (mayRequest_iff.1 may), if_neg (Nat.not_le.2 room)]

/-- The counters of auxiliary operations are read (R158, R175, R188, R291). -/
def mayReadCounters (s : State) : Prop :=
  (s.life.state = .commissioning ∨ s.life.state = .operation ∨ s.life.state = .maintenance) ∧ s.platen.safe = false ∧
    s.xchg.state = .idle ∧ s.standsBy = false

theorem mayReadCounters_iff : mayReadCounters s ↔ ¬ (!s.serves ∨ s.platen.safe ∨ s.exchangeBars false ∨ s.standsBy) := by
  have idle : s.exchangeBars false = false ↔ s.xchg.state = .idle := exchangeBars_eq_false_iff.trans (by simp)
  unfold mayReadCounters
  rw [← serves_iff, ← idle]
  simp only [Bool.not_eq_true', not_or, Bool.not_eq_false, Bool.not_eq_true]

end

/-! ### The commands as the statement has them -/

section
variable {s u : State} {o : Outstanding} {e : Entry}

/-- A row whose command checks its length and files a request makes that request on the machine after the fetch. -/
theorem exec_request {c : Instr} {op size : Nat} {k : ReqKind} (h : s.accepts op true true e u o) (sized : Entry.size e size = true)
    (row : exec c s = .next (s.command op true true e (fun o s => if Entry.size e size then s.request o k else s.badPayload o))) :
    exec c s = .next (u.request o k) :=
  row.trans (congrArg _ ((command_accepts h _).trans (if_pos sized)))

/-- A request made after the fetch is refused with STATE, or with BUSY for want of a slot, or takes the lowest free slot. -/
theorem operatorRequest_ends {op : Nat} {c : Instr} {k : ReqKind} (h : s.accepts op true true e u o) (runs : exec c s = .next (u.request o k))
    (noForce : k.isForce = false) :
    (¬ mayRequest s k (isCancel k) → exec c s = .next (u.answer o .state 0 [])) ∧
    (mayRequest s k (isCancel k) → 256 ≤ s.req.taken → exec c s = .next ((u.answer o .busy 0 []).recordBatch [recCount 0x0108 0])) ∧
    (mayRequest s k (isCancel k) → s.req.taken < 256 → ∃ (n : Nat) (t : State), exec c s = .next t ∧ n < 256 ∧ kvGet s.req.slots n = none ∧
      (∀ m, m < n → (kvGet s.req.slots m).isSome = true) ∧ (∀ m, kvGet t.req.slots m = if m = n then some k else kvGet s.req.slots m) ∧
      t.req.waiting = s.req.waiting ++ [{ kind := k, slot := some n }] ∧ kvGet t.req.origins n = some (o.session, 0xFF, 0) ∧
      t.host.outstanding = u.host.outstanding ++ [{ o with slot := some n }] ∧ t.lanes = s.lanes ∧ t.platen = s.platen ∧ t.field = s.field) := by
  obtain ⟨link, rfl⟩ := accepts_host h
  rw [runs]
  refine ⟨fun closed => congrArg _ (request_of_not_may closed), fun may full => congrArg _ (request_of_full may full), fun may room => ?_⟩
  obtain ⟨n, bound, free, lower, slots, waiting, origin, outstanding⟩ :=
    file_facts (s := { s with host := link }) noForce room o 0xFF 0
  have kept := file_same { s with host := link } o k 0xFF 0
  exact ⟨n, _, congrArg _ (request_of_room may room), bound, free, lower, slots, waiting, origin, outstanding,
    kept.lanes rfl, kept.platen rfl, kept.field rfl⟩

/-- ilk.aux_counters answers the counters and their sum (R188, log 16), or STATE. -/
theorem auxCounters_ends (h : s.accepts 0x0622 true true e u o) :
    (mayReadCounters s → exec (.ilkAuxCounters e) s = .next (u.answer o .done 0 s.req.auxReport)) ∧
    (¬ mayReadCounters s → exec (.ilkAuxCounters e) s = .next (u.answer o .state 0 [])) := by
  have run : exec (.ilkAuxCounters e) s = .next (if !u.serves ∨ u.platen.safe ∨ u.exchangeBars false ∨ u.standsBy then u.answer o .state 0 []
      else u.answer o .done 0 u.req.auxReport) := congrArg _ (command_accepts h _)
  obtain ⟨link, rfl⟩ := accepts_host h
  rw [run]
  exact ⟨fun may => congrArg _ (if_neg (mayReadCounters_iff.1 may)),
    fun closed => congrArg _ (if_pos (Classical.not_not.1 (mt mayReadCounters_iff.2 closed)))⟩

end

/-- Settles O46: each of the seven rows makes its request on the machine after the fetch, where a request ends in one of three ways. -/
theorem operatorRequestsTakeSlots : Obligations.OperatorRequestsTakeSlots := by
  intro s u o e c op size k cancel h
  refine ⟨fun sized row => ⟨mayRequest s k cancel, Iff.rfl, ?_⟩, ?_⟩
  · obtain ⟨runs, noForce, rfl⟩ : exec c s = .next (u.request o k) ∧ k.isForce = false ∧ cancel = isCancel k := by
      rcases row with ⟨rfl, rfl, rfl, rfl, rfl⟩ | ⟨rfl, rfl, rfl, rfl, rfl⟩ | ⟨rfl, rfl, rfl, rfl, rfl⟩ | ⟨rfl, rfl, rfl, rfl, rfl⟩ |
        ⟨rfl, rfl, rfl, rfl, rfl⟩ | ⟨rfl, rfl, rfl, rfl, rfl⟩ | ⟨rfl, rfl, rfl, rfl, rfl⟩ <;>
      exact ⟨exec_request h sized rfl, rfl, rfl⟩
    exact operatorRequest_ends h runs noForce
  · rintro rfl
    exact ⟨mayReadCounters s, Iff.rfl, auxCounters_ends h⟩

end Sys2Proof.Laws
end

section
/-! The expiries inside an evaluation of signals (R138), sections (R144) and level crossings (R146, R147, R148): what each does to a lane
whose words and memories say that its limit is reached. -/

namespace Sys2Proof.Laws

open Sys2Proof Sys2Proof.Machine

section
variable {e : Env} {v : Ev} {i : Nat}

/-! ### Signals and sections -/

/-- The third proof of the stop aspect in a row gives the signal its m0 back (R138). -/
theorem restoreM0_of_proved (stop : (kvGetD v.core.signals i .empty).cmd = 0) (proved : 3 ≤ (kvGetD v.core.signals i .empty).stops) :
    v.restoreM0 e i = v.wr e 0x07 i 2 (setMember (v.rd e 0x07 i 2) 0 true) :=
  if_pos ⟨stop, proved⟩

/-- A section that awaits its sweep beyond the sweep timeout is disturbed, and what the lane kept of the sweep goes (R144). -/
theorem sweepExpiry_of_late {r : SectionRec} {u : Ev} (found : e.forme.sections[i]? = some r) (awaiting : v.rd e 0x08 i 0 = 1)
    (late : e.forme.floorCycles (r.sweep * 1000) ≤ v.sweepCount e i) (raised : u = v.raise evSectionDisturbed (leBytes 2 r.id)) :
    v.sweepExpiry e i =
      (({ u with core := { u.core with swept := removeAll u.core.swept i, sweeps := kvDel u.core.sweeps i } } : Ev).wr e 0x08 i 0 0).wr e 0x08 i 3 0 := by
  subst raised
  unfold Ev.sweepExpiry
  rw [found]
  exact if_pos ⟨awaiting, late⟩

/-! ### Crossings -/

/-- The barriers of a crossing in state 3 do not all read down although the lowering time has run (R147). -/
def loweringLate (e : Env) (v : Ev) (i : Nat) (x : CrossingRec) : Bool :=
  v.rd e 0x0A i 0 == 3 && !(x.typ == 1 || (x.downs.filter (fun r => !refNone r)).all (fun r => v.input e r)) &&
    decide (e.forme.floorCycles x.lowering ≤ v.rd e 0x0A i 1)

theorem loweringLate_iff {x : CrossingRec} : loweringLate e v i x = true ↔ v.rd e 0x0A i 0 = 3 ∧ x.typ ≠ 1 ∧
    (∃ r ∈ x.downs, refNone r = false ∧ v.input e r = false) ∧ e.forme.floorCycles x.lowering ≤ v.rd e 0x0A i 1 := by
  simp [loweringLate, and_assoc]

section
variable {x : CrossingRec} (crossing : e.forme.crossings[i]? = some x)
include crossing

/-- With barriers, the end of the warning time starts their lowering (Table 7-5, R146). -/
theorem warningExpiry_of_barriers (warning : v.rd e 0x0A i 0 = 2) (elapsed : e.forme.ceilCycles x.warning ≤ v.rd e 0x0A i 1)
    (barriers : x.typ ≠ 1) : v.warningExpiry e i = v.putCrossing e i x 3 0 := by
  unfold Ev.warningExpiry
  rw [crossing]
  exact (if_pos ⟨warning, elapsed⟩).trans (if_pos barriers)

/-- A crossing of type 1 is closed by its lights alone (R146). -/
theorem warningExpiry_of_lights (warning : v.rd e 0x0A i 0 = 2) (elapsed : e.forme.ceilCycles x.warning ≤ v.rd e 0x0A i 1)
    (lightsOnly : x.typ = 1) (proved : v.input e x.proving = true) : v.warningExpiry e i = v.putCrossing e i x 5 0 := by
  unfold Ev.warningExpiry
  rw [crossing]
  exact (if_pos ⟨warning, elapsed⟩).trans ((if_neg (Classical.not_not.2 lightsOnly)).trans (if_pos proved))

/-- The lights dark for two scans, or barriers late to lower, fail a crossing, with the cause in the event and the memory (R147). -/
theorem crossingFails_of_cause {u : Ev} {w : LaneCore} {cause : Nat} (working : v.rd e 0x0A i 0 ≠ 0)
    (failed : loweringLate e v i x = true ∨ 2 ≤ (kvGetD v.core.crossings i .empty).dark)
    (cause_eq : cause = if loweringLate e v i x then 2 else 1)
    (raised : u = v.raise evCrossingFail (leBytes 2 x.id ++ leBytes 1 cause))
    (latched : w = { u.core with
      crossings := kvSet u.core.crossings i { cause := cause, dark := 0, lit := 0, again := false, back := false } }) :
    v.crossingFails e i = ({ u with core := w } : Ev).putCrossing e i x 0 0 := by
  subst latched raised cause_eq
  unfold Ev.crossingFails
  rw [crossing]
  exact if_pos ⟨working, failed⟩

/-- Three scans in a row with the lights proved end a failure of the lights; the crossing resumes where its inputs say (R147). -/
theorem lightsRestored_of_lit {w : LaneCore} {u : Ev} (failing : v.rd e 0x0A i 0 = 0) (byLights : (kvGetD v.core.crossings i .empty).cause = 1)
    (lit : 3 ≤ (kvGetD v.core.crossings i .empty).lit)
    (cleared : w = { v.core with
      crossings := kvSet v.core.crossings i
        { cause := 0, dark := 0, lit := (kvGetD v.core.crossings i .empty).lit, again := false, back := false } })
    (resuming : u = { v with core := w }) :
    v.lightsRestored e i = u.putCrossing e i x (resumeState x.typ (u.crossingView e i x)) 0 := by
  subst resuming cleared
  unfold Ev.lightsRestored
  rw [crossing]
  exact if_pos ⟨failing, byLights, lit⟩

/-- A crossing that opens without a new trigger is open after its lowering time (R148). -/
theorem openingExpiry_of_elapsed (opening : v.rd e 0x0A i 0 = 6) (untriggered : (v.crossingView e i x).trigger = false)
    (elapsed : e.forme.ceilCycles x.lowering ≤ v.rd e 0x0A i 1) : v.openingExpiry e i = v.putCrossing e i x 1 0 := by
  unfold Ev.openingExpiry
  rw [crossing]
  exact if_pos ⟨opening, congrArg not untriggered, elapsed⟩

end

end

/-- A row that runs an operation of the lanes gives a lane in service what the operation works out on its words. -/
theorem exec_laneOp_get {s : State} {l : LaneId} {f : Forme} {c : Instr} {op : Env → Ev → Ev} (running : s.power.running = true)
    (inService : s.laneIn l = true) (formed : (s.lanes.get l).forme = some f) (run : exec c s = .next (s.laneOp op)) :
    ∃ t : State, exec c s = .next t ∧ t.lanes.get l = (s.lanes.get l).take (op (s.envOf l f) (Ev.start (s.lanes.get l).core)) :=
  ⟨_, run, laneOp_get running inService formed op⟩

/-- Settles O32: each row runs its operation in the lane, whose words and memories say that the limit is reached. -/
theorem signalSectionAndCrossingExpiries : Obligations.SignalSectionAndCrossingExpiries := by
  rintro s l f e v i running inService formed rfl rfl
  have acts (c : Instr) (op : Env → Ev → Ev) := exec_laneOp_get (c := c) (op := op) running inService formed
  refine ⟨_, rfl, fun stop proved => ?_, fun r found awaiting late => ?_, ?_⟩
  · rw [← restoreM0_of_proved stop proved]
    exact acts (.signalM0Restore i) (fun e v => v.restoreM0 e i) rfl
  · obtain ⟨t, run, lane⟩ := acts (.sweepTimeout i) (fun e v => v.sweepExpiry e i) rfl
    refine ⟨t, _, run, rfl, ?_⟩
    rw [lane, sweepExpiry_of_late (e := s.envOf l f) found awaiting late rfl]
  rintro x m crossing rfl
  refine ⟨fun warning elapsed barriers => ?_, fun warning elapsed lightsOnly proved => ?_, ?_, fun failing byLights lit => ?_,
    fun opening untriggered elapsed => ?_⟩
  · rw [← warningExpiry_of_barriers (e := s.envOf l f) crossing warning elapsed barriers]
    exact acts (.warningTimeExpiry i) (fun e v => v.warningExpiry e i) rfl
  · rw [← warningExpiry_of_lights (e := s.envOf l f) crossing warning elapsed lightsOnly proved]
    exact acts (.warningTimeExpiry i) (fun e v => v.warningExpiry e i) rfl
  · intro late cause u late_iff working failed cause_eq raised
    obtain rfl : late = loweringLate (s.envOf l f) (Ev.start (s.lanes.get l).core) i x :=
      Bool.eq_iff_iff.2 (late_iff.trans loweringLate_iff.symm)
    obtain ⟨t, run, lane⟩ := acts (.crossingFail i) (fun e v => v.crossingFails e i) rfl
    refine ⟨t, _, run, rfl, ?_⟩
    rw [lane, crossingFails_of_cause (e := s.envOf l f) crossing working failed cause_eq raised rfl]
  · obtain ⟨t, run, lane⟩ := acts (.crossingLightsRestored i) (fun e v => v.lightsRestored e i) rfl
    refine ⟨t, _, _, run, rfl, rfl, ?_⟩
    rw [lane, lightsRestored_of_lit (e := s.envOf l f) crossing failing byLights lit rfl rfl]
  · rw [← openingExpiry_of_elapsed (e := s.envOf l f) crossing opening untriggered elapsed]
    exact acts (.openingLoweringExpiry i) (fun e v => v.openingExpiry e i) rfl

end Sys2Proof.Laws
end

section
/-! Forces and block clears (R167, R168, R169, R172, R206), the token each of them asks for (R369), and the status of motion and guard
functions (R227). -/

namespace Sys2Proof.Laws

open Sys2Proof Sys2Proof.Machine

/-! ### When forces are taken -/

section
variable {s : State} {f : Forme}

/-- Forces are taken by a module that serves, commands and is not in the safe state, outside the exchange periods (R158, R172, R291). -/
theorem takesForces_iff (formed : s.forme = some f) :
    s.takesForces = true ↔ s.serves = true ∧ s.xchg.state = .idle ∧ s.standsBy = false ∧ s.platen.safe = false := by
  have idle : s.exchangeBars false = false ↔ s.xchg.state = .idle := exchangeBars_eq_false_iff.trans (by simp)
  rw [← idle]
  simp [State.takesForces, State.open', formed, and_assoc]

theorem vitalForces_iff : s.vitalForces = true ↔ s.life.state = .commissioning ∨ s.life.state = .maintenance := by
  simp [State.vitalForces]

theorem vitalForces_of_operation (operation : s.life.state = .operation) : s.vitalForces = false :=
  Bool.eq_false_iff.2 fun h => by simp [vitalForces_iff, operation] at h

end

/-! ### Setting a force -/

section
variable {s : State} {o : Outstanding} {b t : List Byte} {sig : Sig} {f : Forme} {q : Force}

/-- A force of a path that is not vital needs no token (R167). -/
theorem forceSet_of_plain (formed : s.forme = some f) (long : 10 ≤ b.length) (hq : q = forceOfEntry b) (plain : f.forceVital q.path q.id = false) :
    s.forceSet o b sig = if !s.takesForces then s.answer o .state 0 [] else s.file o (.forceSet q) 0xFF 0 := by
  subst hq
  unfold State.forceSet
  dsimp only
  rw [if_neg (Nat.not_lt.2 long), formed, Option.any_some, if_neg (by rw [plain]; decide)]

/-- A vital force asks for its token (R167). -/
theorem forceSet_of_vital (formed : s.forme = some f) (long : 10 ≤ b.length) (hq : q = forceOfEntry b) (vital : f.forceVital q.path q.id = true)
    (ht : t = b.drop 10) :
    s.forceSet o b sig = if t.isEmpty then s.answer o .auth 0 [] else s.withToken o [0x05] t sig (fun s =>
      if !s.forceNamed b t then s.answer o .auth 0 []
      else if !s.takesForces ∨ !s.vitalForces then s.answer o .state 0 []
      else s.file o (.forceSet q) (tokIndex t) (tokSeq t)) := by
  subst hq ht
  unfold State.forceSet
  dsimp only
  rw [if_neg (Nat.not_lt.2 long), formed, Option.any_some, if_pos vital]

/-- Under a token that passed, the force is refused when the token names something else or vital forces are not taken now (R167, R369). -/
theorem forceSet_of_token (formed : s.forme = some f) (long : 10 ≤ b.length) (hq : q = forceOfEntry b) (vital : f.forceVital q.path q.id = true)
    (ht : t = b.drop 10) (present : t ≠ []) (sized : tokSized t = true) (passes : s.tokenFail [0x05] t sig = 0) :
    s.forceSet o b sig = if !s.forceNamed b t then (s.countToken t).answer o .auth 0 []
      else if !s.takesForces ∨ !s.vitalForces then (s.countToken t).answer o .state 0 []
      else (s.countToken t).file o (.forceSet q) (tokIndex t) (tokSeq t) := by
  rw [forceSet_of_vital formed long hq vital ht, if_neg (by rwa [List.isEmpty_iff]), withToken_of_pass sized passes]
  rfl

end

/-! ### Clearing a block -/

section
variable {s : State} {o : Outstanding} {b t : List Byte} {sig : Sig} {p : Nat × Nat}

/-- A target is an output of the 16 or a bank of the two (R206, R313). -/
theorem clearTarget_bounds (hp : p = s.clearTarget b) : (p.1 = 1 ∨ p.1 = 2) ∧ (p.1 = 1 → p.2 ≤ 15) ∧ (p.1 = 2 → p.2 = 4 ∨ p.2 = 5) := by
  subst hp
  unfold State.clearTarget clamp
  dsimp only
  refine ⟨by omega, fun output => ?_, fun bank => ?_⟩
  · rw [if_pos output]
    split <;> omega
  · rw [if_neg (by omega)]
    split <;> omega

/-- A block clear always asks for its token (R206). -/
theorem blockClear_of_long (long : 2 ≤ b.length) (hp : p = s.clearTarget b) (ht : t = b.drop 2) :
    s.blockClear o b sig = if t.isEmpty then s.answer o .auth 0 [] else s.withToken o [0x06] t sig (fun s =>
      if fieldAt (tokBody t) 0 1 ≠ p.1 ∨ fieldAt (tokBody t) 1 1 ≠ p.2 then s.answer o .auth 0 []
      else if !s.takesForces ∨ s.req.clashes (.blockClear p.1 p.2) then s.answer o .state 0 []
      else if 256 ≤ s.req.taken then s.noSlot o
      else s.file o (.blockClear p.1 p.2) (tokIndex t) (tokSeq t)) := by
  subst hp ht
  exact if_neg (Nat.not_lt.2 long)

/-- Under a token that passed, the clear is refused when the token names another target, now is no time for it or no slot is free. -/
theorem blockClear_of_token (long : 2 ≤ b.length) (hp : p = s.clearTarget b) (ht : t = b.drop 2) (present : t ≠ []) (sized : tokSized t = true)
    (passes : s.tokenFail [0x06] t sig = 0) :
    s.blockClear o b sig = if fieldAt (tokBody t) 0 1 ≠ p.1 ∨ fieldAt (tokBody t) 1 1 ≠ p.2 then (s.countToken t).answer o .auth 0 []
      else if !s.takesForces ∨ s.req.clashes (.blockClear p.1 p.2) then (s.countToken t).answer o .state 0 []
      else if 256 ≤ s.req.taken then (s.countToken t).noSlot o
      else (s.countToken t).file o (.blockClear p.1 p.2) (tokIndex t) (tokSeq t) := by
  rw [blockClear_of_long long hp ht, if_neg (by rwa [List.isEmpty_iff]), withToken_of_pass sized passes]
  rfl

end

/-! ### The status of a function -/

section
variable {s : State} {f : Forme} {n i : Nat} {r : FuncRec} {guard : Bool}

/-- A function of the asked kind answers words 0 to 3 of the copies, with their cycle (R15, R227). -/
theorem funcStatus_of_found (formed : s.forme = some f) (found : f.funcNo n = some i) (record : f.funcs[i]? = some r)
    (kind : guard = true ↔ 0x10 ≤ r.typ) :
    s.funcStatus n guard = some ((List.range 4).flatMap (fun w => leBytes 2 (s.copiedX f (f.addr 0x13 i w))) ++ leBytes 4 s.copiedCycle) := by
  unfold State.funcStatus
  rw [formed, Option.bind_some, found, Option.bind_some, record, Option.any_some, if_pos]
  exact beq_iff_eq.2 (Bool.eq_iff_iff.2 (decide_eq_true_iff.trans kind.symm))

theorem funcStatus_of_unknown (formed : s.forme = some f) (unknown : f.funcNo n = none) : s.funcStatus n guard = none := by
  unfold State.funcStatus
  rw [formed, Option.bind_some, unknown, Option.bind_none]

/-- A motion function has no guard status, and a guard function no motion status (R227). -/
theorem funcStatus_of_other_kind (formed : s.forme = some f) (found : f.funcNo n = some i) (record : f.funcs[i]? = some r)
    (other : ¬ (guard = true ↔ 0x10 ≤ r.typ)) : s.funcStatus n guard = none := by
  unfold State.funcStatus
  rw [formed, Option.bind_some, found, Option.bind_some, record, Option.any_some, if_neg]
  exact fun same => other (decide_eq_true_iff.symm.trans (Bool.eq_iff_iff.1 (beq_iff_eq.1 same))).symm

theorem copiedX_of_copies {k : Copies} (copies : s.req.copies = some k) (a : Nat) : s.copiedX f a = readX f k.lane k.cycle k.store a := by
  unfold State.copiedX
  rw [copies]

theorem copiedX_of_none (copies : s.req.copies = none) (a : Nat) : s.copiedX f a = 0 := by
  unfold State.copiedX
  rw [copies]

theorem answerFunc_of_status {o : Outstanding} {l : List Byte} (status : s.funcStatus n guard = some l) :
    s.answerFunc o n guard = s.answer o .done 0 l := by
  unfold State.answerFunc
  rw [status]

theorem answerFunc_of_none {o : Outstanding} (status : s.funcStatus n guard = none) :
    s.answerFunc o n guard = s.answer o .refused 0 [0x01] := by
  unfold State.answerFunc
  rw [status]
  rfl

end

/-! ### What the fetch leaves -/

section
variable {s u : State} {op : Nat} {needs needsUdp : Bool} {e : Entry} {o : Outstanding}

theorem accepts_forme (h : s.accepts op needs needsUdp e u o) : u.forme = s.forme := by
  obtain ⟨l, rfl⟩ := accepts_host h; rfl

theorem accepts_takesForces (h : s.accepts op needs needsUdp e u o) : u.takesForces = s.takesForces := by
  obtain ⟨l, rfl⟩ := accepts_host h; rfl

theorem accepts_forceNamed (h : s.accepts op needs needsUdp e u o) (b t : List Byte) : u.forceNamed b t = s.forceNamed b t := by
  obtain ⟨l, rfl⟩ := accepts_host h; rfl

theorem accepts_forceIsVital (h : s.accepts op needs needsUdp e u o) (n : Nat) : u.forceIsVital n = s.forceIsVital n := by
  obtain ⟨l, rfl⟩ := accepts_host h; rfl

theorem accepts_clearTarget (h : s.accepts op needs needsUdp e u o) (b : List Byte) : u.clearTarget b = s.clearTarget b := by
  obtain ⟨l, rfl⟩ := accepts_host h; rfl

theorem accepts_req (h : s.accepts op needs needsUdp e u o) : u.req = s.req := by
  obtain ⟨l, rfl⟩ := accepts_host h; rfl

theorem accepts_net (h : s.accepts op needs needsUdp e u o) : u.net = s.net := by
  obtain ⟨l, rfl⟩ := accepts_host h; rfl

end

/-! ### The commands as the statement has them -/

section
variable {s u : State} {o : Outstanding} {e : Entry} {f : Forme}

section
variable {b t : List Byte} {sig : Sig} {q : Force}

theorem exec_forceSet (h : s.accepts 0x0618 true true e u o) (hb : b = Entry.body e) :
    exec (.ilkForceSet e sig) s = .next (u.forceSet o b sig) := by
  subst hb
  exact congrArg _ (command_accepts h _)

theorem forceSet_plain_ends (h : s.accepts 0x0618 true true e u o) (hb : b = Entry.body e) (formed : s.forme = some f) (long : 10 ≤ b.length)
    (hq : q = forceOfEntry b) (plain : f.forceVital q.path q.id = false) :
    (s.takesForces = true → exec (.ilkForceSet e sig) s = .next (u.file o (.forceSet q) 0xFF 0)) ∧
    (s.takesForces = false → exec (.ilkForceSet e sig) s = .next (u.answer o .state 0 [])) := by
  rw [exec_forceSet h hb, forceSet_of_plain ((accepts_forme h).trans formed) long hq plain, accepts_takesForces h]
  exact ⟨fun takes => congrArg _ (if_neg (by simp [takes])), fun barred => congrArg _ (if_pos (by simp [barred]))⟩

theorem forceSet_without_token (h : s.accepts 0x0618 true true e u o) (hb : b = Entry.body e) (formed : s.forme = some f)
    (bare : b.length = 10) (hq : q = forceOfEntry b) (vital : f.forceVital q.path q.id = true) :
    exec (.ilkForceSet e sig) s = .next (u.answer o .auth 0 []) := by
  rw [exec_forceSet h hb, forceSet_of_vital ((accepts_forme h).trans formed) bare.ge hq vital rfl, if_pos]
  rw [List.drop_eq_nil_of_le bare.le, List.isEmpty_nil]

theorem forceSet_token_ends (h : s.accepts 0x0618 true true e u o) (hb : b = Entry.body e) (formed : s.forme = some f) (long : 10 ≤ b.length)
    (hq : q = forceOfEntry b) (vital : f.forceVital q.path q.id = true) (ht : t = b.drop 10) (present : t ≠ []) (sized : tokSized t = true)
    (passes : u.tokenFail [0x05] t sig = 0) {v : State} (hv : v = u.countToken t) :
    (s.forceNamed b t = false → exec (.ilkForceSet e sig) s = .next (v.answer o .auth 0 [])) ∧
    (s.forceNamed b t = true → s.takesForces = true → s.life.state = .commissioning ∨ s.life.state = .maintenance →
      exec (.ilkForceSet e sig) s = .next (v.file o (.forceSet q) (tokIndex t) (tokSeq t))) ∧
    (s.forceNamed b t = true → s.takesForces = false ∨ s.life.state = .operation →
      exec (.ilkForceSet e sig) s = .next (v.answer o .state 0 [])) := by
  rw [exec_forceSet h hb, forceSet_of_token ((accepts_forme h).trans formed) long hq vital ht present sized passes, accepts_forceNamed h,
    accepts_takesForces h, ← accepts_life h, ← hv]
  refine ⟨fun foreign => congrArg _ (if_pos (by simp [foreign])), fun named takes state => ?_, fun named barred => ?_⟩
  · rw [if_neg (by simp [named]), if_neg (by simp [takes, vitalForces_iff.2 state])]
  · rw [if_neg (by simp [named]), if_pos]
    rcases barred with closed | operation
    · exact Or.inl (by simp [closed])
    · exact Or.inr (by simp [vitalForces_of_operation operation])

end

/-- A force is cleared without token; while the entry is vital, not in Operation (R168). -/
theorem forceClear_ends (h : s.accepts 0x0619 true true e u o) (sized : Entry.size e 2 = true) {n : Nat} (hn : n = Entry.field e 0 2) :
    (s.takesForces = true → s.forceIsVital n = false ∨ s.life.state = .commissioning ∨ s.life.state = .maintenance →
      exec (.ilkForceClear e) s = .next (u.file o (.forceClear n) 0xFF 0)) ∧
    (s.takesForces = false ∨ (s.forceIsVital n = true ∧ s.life.state = .operation) →
      exec (.ilkForceClear e) s = .next (u.answer o .state 0 [])) := by
  have run : exec (.ilkForceClear e) s = .next (if !u.takesForces ∨ (u.forceIsVital n ∧ !u.vitalForces) then u.answer o .state 0 []
      else u.file o (.forceClear n) 0xFF 0) := by
    subst hn
    exact congrArg _ ((command_accepts h _).trans (if_neg (by simp [sized])))
  rw [run, accepts_takesForces h, accepts_forceIsVital h, ← accepts_life h]
  refine ⟨fun takes free => congrArg _ (if_neg ?_), fun barred => congrArg _ (if_pos ?_)⟩
  · rcases free with plain | state
    · simp [takes, plain]
    · simp [takes, vitalForces_iff.2 state]
  · rcases barred with closed | ⟨vital, operation⟩
    · exact Or.inl (by simp [closed])
    · exact Or.inr ⟨vital, by simp [vitalForces_of_operation operation]⟩

theorem forceList_ends (h : s.accepts 0x061A false true e u o) :
    exec (.ilkForceList e) s = .next (if s.standsBy then u.answer o .state 0 [] else u.answer o .done 0 u.forceList) := by
  rw [← accepts_standsBy h]
  exact congrArg _ (command_accepts h _)

section
variable {b t : List Byte} {sig : Sig} {p : Nat × Nat}

theorem exec_blockClear (h : s.accepts 0x0901 true true e u o) (hb : b = Entry.body e) :
    exec (.fldBlockClear e sig) s = .next (u.blockClear o b sig) := by
  subst hb
  exact congrArg _ (command_accepts h _)

theorem blockClear_without_token (h : s.accepts 0x0901 true true e u o) (hb : b = Entry.body e) (bare : b.length = 2) :
    exec (.fldBlockClear e sig) s = .next (u.answer o .auth 0 []) := by
  rw [exec_blockClear h hb, blockClear_of_long bare.ge rfl rfl, if_pos]
  rw [List.drop_eq_nil_of_le bare.le, List.isEmpty_nil]

theorem blockClear_token_ends (h : s.accepts 0x0901 true true e u o) (hb : b = Entry.body e) (long : 2 ≤ b.length) (hp : p = s.clearTarget b)
    (ht : t = b.drop 2) (present : t ≠ []) (sized : tokSized t = true) (passes : u.tokenFail [0x06] t sig = 0) {v : State}
    (hv : v = u.countToken t) :
    (fieldAt (tokBody t) 0 1 ≠ p.1 ∨ fieldAt (tokBody t) 1 1 ≠ p.2 → exec (.fldBlockClear e sig) s = .next (v.answer o .auth 0 [])) ∧
    (fieldAt (tokBody t) 0 1 = p.1 → fieldAt (tokBody t) 1 1 = p.2 →
      (s.takesForces = false ∨ s.req.clashes (.blockClear p.1 p.2) = true → exec (.fldBlockClear e sig) s = .next (v.answer o .state 0 [])) ∧
      (s.takesForces = true → s.req.clashes (.blockClear p.1 p.2) = false → 256 ≤ s.req.taken →
        exec (.fldBlockClear e sig) s = .next (v.noSlot o)) ∧
      (s.takesForces = true → s.req.clashes (.blockClear p.1 p.2) = false → s.req.taken < 256 →
        exec (.fldBlockClear e sig) s = .next (v.file o (.blockClear p.1 p.2) (tokIndex t) (tokSeq t)))) := by
  rw [exec_blockClear h hb, blockClear_of_token long (hp.trans (accepts_clearTarget h b).symm) ht present sized passes, accepts_takesForces h,
    accepts_req h, ← hv]
  refine ⟨fun foreign => congrArg _ (if_pos foreign), fun target index => ?_⟩
  rw [if_neg (by simp [target, index])]
  refine ⟨fun barred => ?_, fun takes free full => ?_, fun takes free room => ?_⟩
  · rw [if_pos (by simpa using barred)]
  · rw [if_neg (by simp [takes, free]), if_pos full]
  · rw [if_neg (by simp [takes, free]), if_neg (Nat.not_le.2 room)]

end

section
variable {c : Instr} {op n i : Nat} {r : FuncRec} {guard : Bool}

/-- Both status rows ask for the function that they name. -/
theorem exec_funcStatus (row : (c = .motStatus e ∧ op = 0x0A01 ∧ guard = false) ∨ (c = .grdStatus e ∧ op = 0x0B01 ∧ guard = true))
    (h : s.accepts op false true e u o) (sized : Entry.size e 2 = true) :
    exec c s = .next (u.answerFunc o (Entry.field e 0 2) guard) := by
  rcases row with ⟨rfl, rfl, rfl⟩ | ⟨rfl, rfl, rfl⟩ <;> exact congrArg _ ((command_accepts h _).trans (if_pos sized))

/-- The answer holds the words of the copies with their cycle, or zeros with the network's count before the first copies (R15, R227). -/
theorem answerFunc_of_found (h : s.accepts op false true e u o) (formed : s.forme = some f) (found : f.funcNo n = some i)
    (record : f.funcs[i]? = some r) (kind : guard = true ↔ 0x10 ≤ r.typ) :
    (∀ k, s.req.copies = some k → u.answerFunc o n guard = u.answer o .done 0 ((List.range 4).flatMap (fun w =>
      leBytes 2 (readX f k.lane k.cycle k.store (f.addr 0x13 i w))) ++ leBytes 4 k.cycle)) ∧
    (s.req.copies = none → u.answerFunc o n guard = u.answer o .done 0 (List.replicate 8 0 ++ leBytes 4 s.net.count)) := by
  rw [answerFunc_of_status (funcStatus_of_found ((accepts_forme h).trans formed) found record kind), State.copiedCycle, ← accepts_net h,
    ← accepts_req h]
  refine ⟨fun k copies => ?_, fun copies => ?_⟩
  · simp only [copiedX_of_copies copies, copies, Option.map_some, Option.getD_some]
  · simp only [copiedX_of_none copies, copies, Option.map_none, Option.getD_none]
    rfl

end

end

/-- Settles O48: each row runs its operation on the machine after the fetch, and a token that passes is counted before the operation's
own conditions are looked at. -/
theorem forcesBlocksAndFunctions : Obligations.ForcesBlocksAndFunctions := by
  intro s u o e sig b f hb formed
  refine ⟨takesForces_iff formed, fun h long q hq => ⟨forceSet_plain_ends h hb formed long hq, fun vital => ⟨?_, ?_⟩⟩,
    fun h sized n => forceClear_ends h sized, forceList_ends, fun h long p hp => ?_, fun c op guard row h sized => ?_⟩
  · exact fun bare => forceSet_without_token h hb formed bare hq vital
  · exact fun t v ht present sized passes => forceSet_token_ends h hb formed long hq vital ht present sized passes
  · obtain ⟨target, output, bank⟩ := clearTarget_bounds hp
    exact ⟨target, output, bank, blockClear_without_token h hb, fun t v ht present sized passes =>
      blockClear_token_ends h hb long hp ht present sized passes⟩
  · rw [exec_funcStatus row h sized]
    refine ⟨fun i r found record kind => ?_, fun absent => congrArg _ (answerFunc_of_none ?_)⟩
    · obtain ⟨copied, before⟩ := answerFunc_of_found h formed found record kind
      exact ⟨fun k copies => congrArg _ (copied k copies), fun copies => congrArg _ (before copies)⟩
    · have held := (accepts_forme h).trans formed
      rcases absent with unknown | ⟨i, r, found, record, other⟩
      · exact funcStatus_of_unknown held unknown
      · exact funcStatus_of_other_kind held found record other

end Sys2Proof.Laws
end

section
/-! The field supplies (R202), overloads and thermal retries (R198, R199), and the loss of the field link (R203). -/

namespace Sys2Proof.Laws

open Sys2Proof Sys2Proof.Machine

/-! ### Universal outputs -/

theorem not_mem_removeAll (l : List Nat) (n : Nat) : n ∉ removeAll l n := by
  simp [removeAll]

theorem mem_insertOnce_self (l : List Nat) (n : Nat) : n ∈ insertOnce l n := (mem_insertOnce l n n).2 (.inr rfl)

/-- A universal output that is driven is in no thermal shutdown, its bank is not switched off, and its supply is in range. -/
theorem sound_of_driven {d : Field} {ch : Nat} (h : ch ∈ d.driveUniversal.uoOn) :
    ch ∉ d.uoThermal ∧ channelBank ch ∉ d.ubankOff ∧ channelBank ch ∉ d.outOfRange := by
  unfold Field.driveUniversal Field.universalOn Field.inRange at h
  simp only [List.mem_filter, Bool.and_eq_true, Bool.not_eq_true', List.contains_eq_mem, decide_eq_false_iff_not] at h
  obtain ⟨-, ⟨⟨⟨-, -⟩, thermal⟩, bank⟩, supply, -⟩ := h
  exact ⟨thermal, bank, supply⟩

/-! ### Permits withdrawn after an overload -/

section
variable (d : Field) (vo : Nat)

theorem mem_withdraw_permits (p : Permit) : p ∈ (d.withdraw vo).permits ↔ p ∈ d.permits ∧ p.item ≠ vo := by
  simp [Field.withdraw]

theorem mem_withdraw_needOff (l : LaneId) : (l, vo) ∈ (d.withdraw vo).needOff := by
  have listed : l ∈ LaneId.all := by cases l <;> decide
  exact List.mem_append_right _ (List.mem_map_of_mem listed)

/-- Of outputs withdrawn one after the other none keeps a permit. -/
theorem mem_foldl_withdraw_permits (p : Permit) :
    ∀ (l : List Nat) (d : Field), p ∈ (l.foldl Field.withdraw d).permits ↔ p ∈ d.permits ∧ p.item ∉ l
  | [], d => by simp
  | vo :: l, d => by
    rw [List.foldl_cons, mem_foldl_withdraw_permits p l, mem_withdraw_permits, List.mem_cons, not_or, and_assoc]

/-- The overload of a vital bank takes every permit of its eight outputs: an output that holds one is among those withdrawn. -/
theorem bankOf_ne_of_mem_withdrawBank {bank : Nat} {p : Permit} (vital : 4 ≤ bank) (h : p ∈ (d.withdrawBank bank).permits) :
    bankOf p.item ≠ bank := by
  obtain ⟨held, notLive⟩ := (mem_foldl_withdraw_permits p _ d).1 h
  rintro rfl
  refine notLive (List.mem_filter.2 ⟨List.mem_map.2 ⟨p.item % 8, List.mem_range.2 (Nat.mod_lt _ (by decide)), ?_⟩, ?_⟩)
  · unfold bankOf; omega
  · exact List.any_eq_true.2 ⟨p, held, beq_self_eq_true _⟩

end

/-! ### The field supply -/

section
variable {s : State} {bank mv : Nat}

theorem mem_unfed_permits (d : Field) (p : Permit) :
    p ∈ (d.unfed bank).permits ↔ p ∈ d.permits ∧ ¬ (p.item < 16 ∧ bankOf p.item = bank) := by
  unfold Field.unfed Field.driveUniversal
  rw [List.mem_filter, Bool.not_eq_true', ← Bool.not_eq_true, Bool.and_eq_true, decide_eq_true_eq, beq_iff_eq]

theorem fieldSupplyOutOfRange_facts (on : s.fieldOn = true) (has : s.hasBank bank = true) (out : mv < 17500 ∨ 32000 < mv)
    (new : bank ∉ s.field.outOfRange) :
    ∃ t u : State, exec (.fieldSupplyOutOfRange bank mv) s = .next t ∧ bank ∈ t.field.outOfRange ∧
      (∀ p, p ∈ t.field.permits ↔ p ∈ s.field.permits ∧ ¬(p.item < 16 ∧ bankOf p.item = bank)) ∧ (∀ ch ∈ t.field.uoOn, channelBank ch ≠ bank) ∧
      u.host = s.host ∧ u.recorder = s.recorder ∧ t.host = (u.raise evFieldSupply (leBytes 1 bank ++ leBytes 1 0)).host ∧
      t.lanes = s.lanes ∧ t.platen = s.platen := by
  have run : exec (.fieldSupplyOutOfRange bank mv) s = .next (s.supplyChange bank mv true) := if_pos ⟨on, has, out, by simpa using new⟩
  have same := supplyChange_same s bank mv true
  have field : (s.supplyChange bank mv true).field =
      ({ s.field with outOfRange := withFlag s.field.outOfRange bank true, supplyMv := setNth s.field.supplyMv bank mv } : Field).unfed bank :=
    raiseWith_field ..
  have marked : bank ∈ withFlag s.field.outOfRange bank true := (mem_withFlag_self ..).2 rfl
  refine ⟨_, _, run, ?_, fun p => ?_, fun ch driven => ?_, ?_, ?_, raiseWith_host .., same.lanes rfl, same.platen rfl⟩
  · rw [field]; exact marked
  · rw [field]; exact mem_unfed_permits _ p
  · rw [field] at driven
    obtain ⟨-, -, fed⟩ := sound_of_driven driven
    rintro rfl
    exact fed marked
  · rfl
  · rfl

theorem fieldSupplyInRange_facts (on : s.fieldOn = true) (has : s.hasBank bank = true) (low : 19200 ≤ mv) (high : mv ≤ 30000)
    (known : bank ∈ s.field.outOfRange) :
    ∃ t u : State, exec (.fieldSupplyInRange bank mv) s = .next t ∧ bank ∉ t.field.outOfRange ∧ t.field.permits = s.field.permits ∧
      t.field.uoOn = t.field.universalOn ∧ u.host = s.host ∧ t.host = (u.raise evFieldSupply (leBytes 1 bank ++ leBytes 1 1)).host ∧
      t.lanes = s.lanes := by
  have run : exec (.fieldSupplyInRange bank mv) s = .next (s.supplyChange bank mv false) :=
    if_pos ⟨on, has, low, high, by simpa using known⟩
  have field : (s.supplyChange bank mv false).field =
      ({ s.field with outOfRange := withFlag s.field.outOfRange bank false, supplyMv := setNth s.field.supplyMv bank mv } : Field).driveUniversal :=
    raiseWith_field ..
  refine ⟨_, _, run, ?_, ?_, ?_, ?_, raiseWith_host .., (supplyChange_same ..).lanes rfl⟩
  · rw [field]
    exact fun marked => Bool.false_ne_true ((mem_withFlag_self ..).1 marked)
  · rw [field]; rfl
  · rw [field]; rfl
  · rfl

end

/-! ### Overloads and thermal retries -/

/-- The field side after the overload of a bank: a universal bank is switched off, a vital one loses its permits. -/
theorem overloadBank_field (s : State) (bank : Nat) : (s.overloadBank bank).field =
    if bank < 4 then ({ s.field with ubankOff := insertOnce s.field.ubankOff bank } : Field).driveUniversal
    else s.field.withdrawBank bank :=
  raiseWith_field ..

/-- An output retries unless its bank is off. -/
theorem retry_output {d : Field} {n : Nat} (bankOn : channelBank n ∉ d.ubankOff) :
    d.retry false n = ({ d with uoThermal := removeAll d.uoThermal n } : Field).driveUniversal := by
  unfold Field.retry
  rw [if_neg Bool.false_ne_true, if_neg (by simpa using bankOn)]

section
variable {s : State} {vo ch bank : Nat} (on : s.fieldOn = true)
include on

theorem outputOverload_vital_facts (has : s.hasVital vo = true) (energised : s.voEnergised vo = true) :
    ∃ t u : State, exec (.outputOverload true vo) s = .next t ∧
      (∀ p, p ∈ t.field.permits ↔ p ∈ s.field.permits ∧ p.item ≠ vo) ∧ (∀ l, (l, vo) ∈ t.field.needOff) ∧ t.lanes = s.lanes ∧
      u.host = s.host ∧ t.host = (u.raise evOutputOverload (leBytes 1 (32 + vo))).host := by
  have run : exec (.outputOverload true vo) s = .next (s.overloadOutput true vo) := if_pos ⟨on, Bool.and_eq_true_iff.2 ⟨has, energised⟩⟩
  have field : (s.overloadOutput true vo).field = s.field.withdraw vo := raiseWith_field ..
  refine ⟨_, _, run, fun p => ?_, fun l => ?_, (overloadOutput_same ..).lanes rfl, ?_, raiseWith_host ..⟩
  · rw [field]; exact mem_withdraw_permits _ _ p
  · rw [field]; exact mem_withdraw_needOff _ _ l
  · rfl

theorem outputOverload_universal_facts (has : s.hasUniversal ch = true) (energised : ch ∈ s.field.uoOn) :
    ∃ t u : State, exec (.outputOverload false ch) s = .next t ∧ ch ∉ t.field.uoOn ∧ t.field.permits = s.field.permits ∧
      u.host = s.host ∧ t.host = (u.raise evOutputOverload (leBytes 1 ch)).host := by
  have run : exec (.outputOverload false ch) s = .next (s.overloadOutput false ch) :=
    if_pos ⟨on, Bool.and_eq_true_iff.2 ⟨has, List.contains_iff_mem.2 energised⟩⟩
  have field : (s.overloadOutput false ch).field =
      ({ s.field with uoThermal := insertOnce s.field.uoThermal ch } : Field).driveUniversal := raiseWith_field ..
  refine ⟨_, _, run, fun driven => ?_, ?_, ?_, raiseWith_host ..⟩
  · rw [field] at driven
    obtain ⟨cool, -⟩ := sound_of_driven driven
    exact cool (mem_insertOnce_self ..)
  · rw [field]; rfl
  · rfl

theorem bankOverload_facts (live : s.bankLive bank = true) :
    ∃ t u : State, exec (.bankOverload bank) s = .next t ∧ t.lanes = s.lanes ∧
      (bank < 4 → (∀ ch ∈ t.field.uoOn, channelBank ch ≠ bank) ∧ t.field.permits = s.field.permits) ∧
      (4 ≤ bank → bank ∈ t.field.overload ∧ (∀ p ∈ t.field.permits, bankOf p.item ≠ bank)) ∧
      u.host = s.host ∧ t.host = (u.raise evBankOverload (leBytes 1 bank)).host := by
  have run : exec (.bankOverload bank) s = .next (s.overloadBank bank) := if_pos ⟨on, live⟩
  refine ⟨_, _, run, (overloadBank_same ..).lanes rfl, fun universal => ?_, fun vital => ?_, ?_, raiseWith_host ..⟩
  · rw [overloadBank_field, if_pos universal]
    refine ⟨fun ch driven => ?_, rfl⟩
    obtain ⟨-, switched, -⟩ := sound_of_driven driven
    rintro rfl
    exact switched (mem_insertOnce_self ..)
  · rw [overloadBank_field, if_neg (Nat.not_lt.2 vital)]
    exact ⟨mem_insertOnce_self .., fun p held => bankOf_ne_of_mem_withdrawBank _ vital held⟩
  · rfl

theorem exec_thermalRetry (wholeBank : Bool) (n : Nat) :
    exec (.thermalRetry wholeBank n) s = .next (s.updField (fun d => d.retry wholeBank n)) := if_pos on

theorem thermalRetry_facts (n : Nat) :
    (∃ t : State, exec (.thermalRetry true n) s = .next t ∧ n ∉ t.field.ubankOff ∧ t.field.uoOn = t.field.universalOn ∧
      t.field.permits = s.field.permits) ∧
    (channelBank n ∉ s.field.ubankOff → ∃ t : State, exec (.thermalRetry false n) s = .next t ∧ n ∉ t.field.uoThermal ∧
      t.field.uoOn = t.field.universalOn ∧ t.field.permits = s.field.permits) := by
  refine ⟨⟨_, exec_thermalRetry on true n, not_mem_removeAll _ n, rfl, rfl⟩, fun bankOn => ⟨_, exec_thermalRetry on false n, ?_⟩⟩
  have field : (s.updField (fun d => d.retry false n)).field =
      ({ s.field with uoThermal := removeAll s.field.uoThermal n } : Field).driveUniversal := retry_output bankOn
  rw [field]
  exact ⟨not_mem_removeAll _ n, rfl, rfl⟩

/-! ### The field link -/

theorem fieldLink_facts : ∃ (t : State) (d : Field), d = { s.field with link := false, permits := [], uoOn := [], sealed := [] } ∧
    exec .fieldLink s = .next t ∧ t = ({ s with field := d } : State).raise evFieldLink [0x00] ∧ t.outputsOpen = true ∧ t.lanes = s.lanes := by
  have run : exec .fieldLink s = .next s.loseField := if_pos on
  refine ⟨_, _, rfl, run, rfl, ?_, (loseField_same s).lanes rfl⟩
  have field : s.loseField.field = { s.field with link := false, permits := [], uoOn := [], sealed := [] } := raise_field ..
  unfold State.outputsOpen
  rw [field]
  rfl

end

/-- Settles O38: each row makes its one change of the field side and raises its event on the machine after it. -/
theorem suppliesAndOverloads : Obligations.SuppliesAndOverloads := by
  intro s on
  exact ⟨fun _ _ => fieldSupplyOutOfRange_facts on, fun _ _ => fieldSupplyInRange_facts on, fun _ => outputOverload_vital_facts on,
    fun _ => outputOverload_universal_facts on, fun _ => bankOverload_facts on, thermalRetry_facts on, fieldLink_facts on⟩

end Sys2Proof.Laws
end

section
/-! The expiries inside an evaluation of the machine guard functions: discrepancy (R218), contactor feedback (R220), standstill (R213, R216)
and the two-hand function's simultaneity (R221). -/

namespace Sys2Proof.Laws

open Sys2Proof Sys2Proof.Machine

section
variable {e : Env} {v : Ev} {i : Nat} {g : FuncRec} (function : e.forme.funcs[i]? = some g)
include function

/-- A discrepancy count at n_disc latches the pair of channels whose count it is; a manual reset mode also takes m3 down (R218). Only a
two-hand function has a second pair. -/
theorem discrepancyExpiry_of_late {b : FuncBits} {m : FuncMem} {one two : Bool} (bits : b = FuncBits.ofX (v.rd e 0x13 i 0))
    (memory : m = v.funcMem i) (one_iff : one = true ↔ e.forme.floorCycles g.disc ≤ v.rd e 0x13 i 3)
    (two_iff : two = true ↔ g.typ = 0x12 ∧ e.forme.floorCycles g.disc ≤ m.disc2)
    (guards : 0x10 ≤ g.typ) (agreed : b.m1 = true) (late : one = true ∨ two = true) :
    v.discrepancyExpiry e i =
      ((v.raise evGuardDiscrepancy (leBytes 2 g.id)).setFuncMem i { m with latch1 := m.latch1 || one, latch2 := m.latch2 || two }).wr e 0x13 i 0
        (FuncBits.x { b with m0 := false, m1 := false, m3 := b.m3 && decide (g.resetMode ≠ 2) }) := by
  subst bits memory
  obtain rfl : one = decide (e.forme.floorCycles g.disc ≤ v.rd e 0x13 i 3) := Bool.eq_iff_iff.2 (one_iff.trans decide_eq_true_iff.symm)
  obtain rfl : two = (g.typ == 0x12 && decide (e.forme.floorCycles g.disc ≤ (v.funcMem i).disc2)) :=
    Bool.eq_iff_iff.2 (two_iff.trans (by simp))
  have mode : decide (g.resetMode ≠ 2) = (g.resetMode != 2) := Bool.eq_iff_iff.2 (by simp)
  unfold Ev.discrepancyExpiry
  rw [function, mode]
  exact if_pos ⟨guards, agreed, late⟩

/-- A feedback count at n_fb clears m2; motion functions count in their memory, guard functions in word 4 (R220). -/
theorem feedbackExpiry_of_late {b : FuncBits} (bits : b = FuncBits.ofX (v.rd e 0x13 i 0)) (monitored : refNone g.feedback = false)
    (sound : b.m2 = true) (late : e.forme.floorCycles g.fbDelay ≤ (if g.typ < 0x10 then (v.funcMem i).fb else v.rd e 0x13 i 4)) :
    v.feedbackExpiry e i =
      (v.raise evGuardFeedback (leBytes 2 g.id)).wr e 0x13 i 0 (FuncBits.x { b with m0 := false, m2 := false }) := by
  subst bits
  unfold Ev.feedbackExpiry
  rw [function]
  exact if_pos (by simp only [monitored, sound, late, Bool.not_false, Bool.true_and, decide_true])

/-- The standstill count at n_still with a window full of sound counts and the feedback ready proves standstill (R213, R216). -/
theorem stillExpiry_of_still {b : FuncBits} (bits : b = FuncBits.ofX (v.rd e 0x13 i 0)) (standstill : g.typ = 3) (m1 : b.m1 = true)
    (m2 : b.m2 = true) (m4 : b.m4 = true)
    (ready : refNone g.feedback = true ∨ v.monitoredOn e g = true ∨ v.input e g.feedback = true)
    (sound : (v.funcMem i).sound = g.window + 1) (still : e.forme.ceilCycles g.still ≤ v.rd e 0x13 i 3) :
    v.stillExpiry e i = v.wr e 0x13 i 0 (FuncBits.x { b with m0 := true, m3 := true, m9 := true }) := by
  subst bits
  have fbReady : (refNone g.feedback || v.monitoredOn e g || v.input e g.feedback) = true := by
    rwa [Bool.or_eq_true, Bool.or_eq_true, or_assoc]
  unfold Ev.stillExpiry
  rw [function]
  exact if_pos ⟨standstill, m1, m2, m4, fbReady, sound, still⟩

/-- A second press that has not come within n_sim scans ends the wait for it without a grant (R221). -/
theorem simultaneityExpiry_of_late {b : FuncBits} {m : FuncMem} (bits : b = FuncBits.ofX (v.rd e 0x13 i 0)) (memory : m = v.funcMem i)
    (twoHand : g.typ = 0x12) (awaiting : m.awaiting = true) (late : e.forme.floorCycles g.simul ≤ v.rd e 0x13 i 6) :
    v.simultaneityExpiry e i =
      (v.setFuncMem i { m with awaiting := false, granted := false }).wr e 0x13 i 0 (FuncBits.x { b with m0 := false }) := by
  subst bits memory
  unfold Ev.simultaneityExpiry
  rw [function]
  exact if_pos ⟨twoHand, awaiting, late⟩

end

/-- Settles O33: each row runs its operation in the lane, whose words and memory say that the function's limit is reached. -/
theorem guardFunctionExpiries : Obligations.GuardFunctionExpiries := by
  rintro s l f e v i g b running inService formed rfl rfl function bits
  have acts (c : Instr) (op : Env → Ev → Ev) := exec_laneOp_get (c := c) (op := op) running inService formed
  refine ⟨_, _, rfl, rfl, fun one two one_iff two_iff guards agreed late => ?_, fun monitored sound late => ?_,
    fun standstill m1 m2 m4 ready sound still => ?_, fun twoHand awaiting late => ?_⟩
  · rw [← discrepancyExpiry_of_late (e := s.envOf l f) function bits rfl one_iff two_iff guards agreed late]
    exact acts (.guardDiscrepancy i) (fun e v => v.discrepancyExpiry e i) rfl
  · rw [← feedbackExpiry_of_late (e := s.envOf l f) function bits monitored sound late]
    exact acts (.guardFeedback i) (fun e v => v.feedbackExpiry e i) rfl
  · rw [← stillExpiry_of_still (e := s.envOf l f) function bits standstill m1 m2 m4 ready sound still]
    exact acts (.standstillProven i) (fun e v => v.stillExpiry e i) rfl
  · rw [← simultaneityExpiry_of_late (e := s.envOf l f) function bits rfl twoHand awaiting late]
    exact acts (.simultaneityExpiry i) (fun e v => v.simultaneityExpiry e i) rfl

end Sys2Proof.Laws
end

section
/-! The stepping of commands (R310), and what every step keeps: the queue and the identity, Retired (R367), the order of the recorder's
numbers (R384, R389) and the limits of the host side (R38, R310, R317). -/

namespace Sys2Proof.Laws

open Sys2Proof Sys2Proof.Machine

/-- Settles O1: both equations are the two cases of `step`. -/
theorem stepRunsFrontCommand : Obligations.StepRunsFrontCommand :=
  fun _ _ => ⟨rfl, rfl⟩

/-- Settles O2: the footprint of every command leaves the queue and the identity out. -/
theorem commandsAlwaysComplete : Obligations.CommandsAlwaysComplete := by
  intro c s
  obtain ⟨t, ran, kept⟩ := exec_leads c s
  exact ⟨t, ran, kept.pending, kept.ident⟩

/-- What a command answers has come from the state by an operation within the command's footprint. -/
theorem exec_footprint {c : Instr} {s t : State} (ran : exec c s = .next t) : Same (footprint c) s t := by
  obtain ⟨u, ran', kept⟩ := exec_leads c s
  obtain rfl : t = u := by simpa using ran.symm.trans ran'
  exact kept

/-- What a step answers is what the command in front has made of the rest of the queue, or the same state on an empty queue. -/
theorem step_cases {s t : State} (stepped : step s = .next t) :
    (s.pending = [] ∧ t = s) ∨ ∃ c rest, s.pending = c :: rest ∧ exec c (s.withPending rest) = .next t := by
  unfold step at stepped
  split at stepped
  · next idle => exact .inl ⟨idle, by simpa using stepped.symm⟩
  · next c rest queue => exact .inr ⟨c, rest, queue, stepped⟩

/-- Only the starts may leave Retired. -/
theorem footprint_keeps_retired {c : Instr} (noStart : c.starts = false) : (footprint c).testBit 22 = false := by
  cases c <;> first
    | (simp only [footprint]; decide)
    | simp [Instr.starts] at noStart

/-- Settles O4: no command but a start has the exit from Retired in its footprint. -/
theorem retiredLeftOnlyByStarts : Obligations.RetiredLeftOnlyByStarts :=
  fun _ _ _ ran retired noStart => (exec_footprint ran).retired (footprint_keeps_retired noStart) retired

/-- Settles O6: every operation keeps the recorder's order, whatever its footprint. -/
theorem recorderNumbersNeverFall : Obligations.RecorderNumbersNeverFall := by
  intro s t stepped sound
  obtain ⟨-, rfl⟩ | ⟨c, rest, -, ran⟩ := step_cases stepped
  · exact ⟨sound, Nat.le_refl _⟩
  · exact (exec_footprint ran).record sound

/-- Settles O8: no command brings a table of the host side above its limit. -/
theorem stepKeepsLimits : Obligations.StepKeepsLimits := by
  intro s t stepped within
  obtain ⟨-, rfl⟩ | ⟨c, rest, -, ran⟩ := step_cases stepped
  · exact within
  · obtain ⟨sessions, outstanding, contexts⟩ := within
    exact ⟨exec_sessions c ran sessions, exec_outstanding c ran outstanding, exec_contexts c ran contexts⟩

end Sys2Proof.Laws
end

section
/-! The mailbox engine (R307 to R313, R322, R323): what becomes of a command that a check turns away, and where the entries of answers and
events go. -/

namespace Sys2Proof.Laws

open Sys2Proof Sys2Proof.Machine

/-! ### Commands that are turned away (R310, R312) -/

section
variable {s : State} {op : Nat} {needs needsUdp : Bool} {e : Entry} {run : Outstanding → State → State}

theorem command_of_none (vetted : s.vet op needs needsUdp e = .none) : s.command op needs needsUdp e run = s := by
  unfold State.command; rw [vetted]

theorem command_of_stall (vetted : s.vet op needs needsUdp e = .stall) : s.command op needs needsUdp e run = s.stall e := by
  unfold State.command; rw [vetted]

theorem command_of_reject {st : Status} {d : Nat} (vetted : s.vet op needs needsUdp e = .reject st d) :
    s.command op needs needsUdp e run =
      if st = .framing then ((s.dequeue e).answer (outstandingOf op e none) st d []).recordBatch [recCount 0x0700 d]
      else (s.dequeue e).answer (outstandingOf op e none) st d [] := by
  unfold State.command; rw [vetted]

theorem command_of_busy (vetted : s.vet op needs needsUdp e = .busy) : ∃ t, t = s.dequeue e ∧
    s.command op needs needsUdp e run = (({ t with host := { t.host with busyTotal := sat32 t.host.busyTotal 1 } } : State).answer
      (outstandingOf op e none) .busy 0 []).recordBatch [recCount 0x0108 1] := by
  unfold State.command; rw [vetted]; exact ⟨_, rfl, rfl⟩

end

/-- Every row of the mailbox takes the common course of a command, with an effect of its own. -/
theorem exec_mailbox {c : Instr} {op : Nat} {needs needsUdp : Bool} {e : Entry} (row : c.mailbox = some (op, needs, needsUdp, e)) (s : State) :
    ∃ run, exec c s = .next (s.command op needs needsUdp e run) := by
  cases c <;> cases row <;> exact ⟨_, rfl⟩

/-- Settles O7: each verdict of the checks but acceptance leaves the command's own effect out. -/
theorem mailboxTurnedAway : Obligations.MailboxTurnedAway := by
  intro c s op needs needsUdp e row
  obtain ⟨run, ran⟩ := exec_mailbox row s
  refine ⟨fun h => ?_, fun h => ?_, fun st d h other => ?_, fun d h => ?_, fun h => ?_⟩
  · rw [ran, command_of_none h]
  · rw [ran, command_of_stall h]
  · rw [ran, command_of_reject h, if_neg other]
  · rw [ran, command_of_reject h, if_pos rfl]
  · obtain ⟨t, fetched, done⟩ := command_of_busy (run := run) h
    exact ⟨t, fetched, by rw [ran, done]⟩

/-! ### An entry at the tail of a queue (R307, R308, R323) -/

theorem updQueue_queue_self {s : State} {n : Nat} (known : n < s.host.queues.length) (f : Queue → Queue) :
    (s.updQueue n f).host.queue n = f (s.host.queue n) := by
  rw [updQueue_queue _ _ _ _ known, if_pos rfl]

theorem updQueue_queue_ne {s : State} {n : Nat} (known : n < s.host.queues.length) (f : Queue → Queue) {m : Nat} (other : m ≠ n) :
    (s.updQueue n f).host.queue m = s.host.queue m := by
  rw [updQueue_queue _ _ _ _ known, if_neg other]

theorem enqueue_queue_self {s : State} {n : Nat} (known : n < s.host.queues.length) (e : OutEntry) :
    (s.enqueue n e).host.queue n =
      { s.host.queue n with prod := ((s.host.queue n).prod + 1) % 65536, held := (s.host.queue n).held ++ [e] } := by
  rw [enqueue_queue _ _ _ _ known, if_pos rfl]

theorem enqueue_queue_ne {s : State} {n : Nat} (known : n < s.host.queues.length) (e : OutEntry) {m : Nat} (other : m ≠ n) :
    (s.enqueue n e).host.queue m = s.host.queue m := by
  rw [enqueue_queue _ _ _ _ known, if_neg other]

/-- The link after an entry: the queue written, and the message of its vector if the queue's interrupts are on. -/
theorem enqueue_message (s : State) (n : Nat) (e : OutEntry) : ∃ g : HostLink, g.messages = s.host.messages ∧ g.pba = s.host.pba ∧
    g.masked = s.host.masked ∧
    (s.enqueue n e).host = if (s.host.queue n).irqEn then g.message (s.host.queue n).vector else g := by
  refine ⟨(s.updQueue n (fun q => { q with prod := (q.prod + 1) % 65536, held := q.held ++ [e] })).host, rfl, rfl, rfl, ?_⟩
  unfold State.enqueue
  dsimp only
  split <;> rfl

theorem message_of_unmasked {h : HostLink} {v : Nat} (unmasked : v ∉ h.masked) : h.message v = { h with messages := v :: h.messages } := by
  unfold HostLink.message
  rw [if_neg (by simpa using unmasked)]

theorem message_of_masked {h : HostLink} {v : Nat} (masked : v ∈ h.masked) : h.message v = { h with pba := insertOnce h.pba v } := by
  unfold HostLink.message
  rw [if_pos (by simpa using masked)]

theorem insertOnce_of_mem {l : List Nat} {n : Nat} (held : n ∈ l) : insertOnce l n = l := by
  unfold insertOnce
  rw [if_pos (by simpa using held)]

/-- Settles O10: the queue part is `enqueue_queue`, the message part `enqueue_message` with the two cases of the mask. -/
theorem entrySendsMessage : Obligations.EntrySendsMessage := by
  intro s n e known
  obtain ⟨g, messages, pba, masks, host⟩ := enqueue_message s n e
  refine ⟨_, _, rfl, rfl, enqueue_queue_self known e, fun m other => enqueue_queue_ne known e other, fun off => ?_, fun on open' => ?_,
    fun on masked => ?_⟩
  · rw [host, if_neg (by simp [off])]
    exact ⟨messages, pba⟩
  · rw [host, if_pos on, message_of_unmasked (masks ▸ open'), messages.symm]
    exact ⟨rfl, pba⟩
  · rw [host, if_pos on, message_of_masked (masks ▸ masked), pba.symm]
    exact ⟨messages, mem_insertOnce_self _ _, insertOnce_of_mem⟩

/-! ### Answers (R309, R311) -/

section
variable {s : State} {o : Outstanding} {st : Status} {d : Nat} {p : List Byte}

/-- The entry of an answer. -/
def answerEntry (s : State) (o : Outstanding) (st : Status) (d : Nat) (p : List Byte) : OutEntry :=
  { op := o.op, tag := o.tag, flags := 0, origin := o.queue, session := o.session, status := st, detail := d,
    cycle := s.net.count, payload := p, crc := BitVec.ofNat 32 (crc32c p) }

/-- Who asks for no answer gets none where the command is done (R309). -/
theorem answer_of_silent (answers : o.queue ≠ discardQueue) (silent : st = .done ∧ o.flags % 2 = 1) : s.answer o st d p = s := by
  unfold State.answer
  obtain ⟨rfl, odd⟩ := silent
  simp [answers, odd]

variable (pcie : o.queue < 15) (sound : st ≠ .framing) (wanted : ¬ (st = .done ∧ o.flags % 2 = 1))
include pcie sound wanted

theorem answer_of_room (moves : s.host.moves o.target = true) (room : 0 < (s.host.queue o.target).free) :
    s.answer o st d p = s.enqueue o.target (answerEntry s o st d p) := by
  have notDiscard : o.queue ≠ discardQueue := by unfold discardQueue; omega
  have notUdp : o.queue ≠ 15 := by omega
  unfold State.answer
  simp only [if_neg sound, if_neg notDiscard, if_neg wanted, if_neg notUdp, if_pos (And.intro moves room), answerEntry]

theorem answer_of_full (full : s.host.moves o.target = false ∨ (s.host.queue o.target).free = 0) :
    s.answer o st d p = { s with host := { s.host with discards := sat32 s.host.discards 1 } } := by
  have notDiscard : o.queue ≠ discardQueue := by unfold discardQueue; omega
  have notUdp : o.queue ≠ 15 := by omega
  have noRoom : ¬ (s.host.moves o.target = true ∧ 0 < (s.host.queue o.target).free) := by
    rintro ⟨moves, room⟩
    obtain stopped | used := full
    · exact absurd moves (by simp [stopped])
    · omega
  unfold State.answer
  simp only [if_neg sound, if_neg notDiscard, if_neg wanted, if_neg notUdp, if_neg noRoom]

end

/-- Settles O11: silent, written, or discarded. -/
theorem answerWritesOneEntry : Obligations.AnswerWritesOneEntry := by
  intro s o st d p pcie sound known
  refine ⟨_, _, rfl, rfl, fun silent => ?_, fun wanted moves room => ?_, fun wanted full => answer_of_full pcie sound wanted full⟩
  · exact answer_of_silent (by unfold discardQueue; omega) silent
  · rw [answer_of_room pcie sound wanted moves room]
    exact ⟨enqueue_queue_self known _, fun n other => enqueue_queue_ne known _ other⟩

/-! ### Events (R320, R322) -/

/-- The occurrence of an event is counted. -/
def countEvent (s : State) (num : Nat) : State :=
  { s with host := { s.host with evtCount := kvSet s.host.evtCount num (sat32 (kvGetD s.host.evtCount num 0) 1) } }

/-- The entry of an event, with its count in front of the payload. -/
def eventOut (s : State) (n num : Nat) (p : List Byte) : OutEntry :=
  s.eventEntry n num (leBytes 4 (sat32 (kvGetD s.host.evtCount num 0) 1) ++ p)

/-- An event that a queue of the host takes is counted, and its entry is written, dropped, or, with the queue off, left out. -/
theorem raiseNow_of_route {s : State} {num n : Nat} (routed : s.host.eventRoute num = some n) (notPort : n ≠ 47) (p : List Byte) :
    s.raiseNow num p =
      if !(s.host.queue n).enabled then countEvent s num
      else if !s.host.moves n ∨ (s.host.queue n).free = 0 then (countEvent s num).dropEvent n
      else ((countEvent s num).enqueue n (eventOut s n num p)).updQueue n
        (fun q => { q with seq := (q.seq + 1) % 65536, dropped := false }) := by
  unfold State.raiseNow
  dsimp only
  split
  · next unrouted => cases routed.symm.trans unrouted
  · next k other =>
    cases routed.symm.trans other
    exact if_neg notPort

theorem kvGet_kvSet_self {α : Type} (l : List (Nat × α)) (a : Nat) (x : α) : kvGet (kvSet l a x) a = some x := by
  rw [kvGet_kvSet, if_pos rfl]

/-- Settles O12: the recorder's part is `recordRaise`, the queues' part `raiseNow_of_route` with the two cases of the queue. -/
theorem raiseWritesEventEntry : Obligations.RaiseWritesEventEntry := by
  intro s num n p up routed notPort known enabled
  have host : (s.raise num p).host = (s.raiseNow num p).host := by
    unfold State.raise State.post
    rw [recordRaise_host, if_pos up]
  have recorder : (s.raiseNow num p).recorder = s.recorder := (raiseNow_same ..).recorder rfl
  have written := raiseNow_of_route routed notPort p
  rw [if_neg (by simp [enabled])] at written
  have counted : (s.raiseNow num p).host.evtCount = (countEvent s num).host.evtCount := by
    obtain ⟨_, _, _, entry⟩ := enqueue_written (countEvent s num) n (eventOut s n num p)
    rw [written]
    split
    · rfl
    · exact (congrArg HostLink.evtCount entry : ((countEvent s num).enqueue n _).host.evtCount = _)
  have drops (m : Nat) : ((countEvent s num).dropEvent n).host.queue m = if m = n then
      { s.host.queue n with overflow := sat16 (s.host.queue n).overflow 1, dropped := true } else s.host.queue m :=
    updQueue_queue _ _ _ _ known
  have inCounted : n < (countEvent s num).host.queues.length := known
  have inWritten : n < ((countEvent s num).enqueue n (eventOut s n num p)).host.queues.length := by
    rw [enqueue_length]; exact known
  refine ⟨_, _, _, rfl, rfl, rfl, ?_, ?_, fun m other => ?_, fun moves room => ?_, fun full => ?_⟩
  · rw [host, counted]
    exact kvGet_kvSet_self ..
  · unfold State.raise State.post State.recordRaise State.recordBatch
    simp only [if_pos up, recorder]
    rfl
  · rw [host, written]
    split
    · rw [drops, if_neg other]
    · rw [updQueue_queue_ne inWritten _ other, enqueue_queue_ne inCounted _ other]
      rfl
  · rw [host, written, if_neg (by simp [moves, room]), updQueue_queue_self inWritten, enqueue_queue_self inCounted]
    rfl
  · rw [host, written, if_pos (by simpa using full), drops, if_pos rfl]

end Sys2Proof.Laws
end

section
/-! Tokens (R368, R369, R370): the five steps of the checks, in their order, and what the count of a token leaves. -/

namespace Sys2Proof.Laws

open Sys2Proof Sys2Proof.Machine

/-- Step 1 of R369: magic, version, a kind that the command takes, and its length. -/
def TokenFormed (kinds : List Nat) (t : List Byte) : Prop :=
  fieldAt t 0 4 = tokMagic ∧ fieldAt t 4 1 = 1 ∧ tokKind t ∈ kinds ∧ tokBodyLen t = tokBodySize (tokKind t)

section
variable {s : State} {kinds : List Nat} {t : List Byte} {sig : Sig}

theorem not_tokenFormed_iff : (fieldAt t 0 4 ≠ tokMagic ∨ fieldAt t 4 1 ≠ 1 ∨ (!kinds.contains (tokKind t)) = true ∨
    tokBodyLen t ≠ tokBodySize (tokKind t)) ↔ ¬ TokenFormed kinds t := by
  simp only [TokenFormed, not_and_or, ne_eq, Bool.not_eq_true', List.contains_eq_mem, decide_eq_false_iff_not]

/-- Step 1 fails first. -/
theorem tokenFail_of_unformed (unformed : ¬ TokenFormed kinds t) : s.tokenFail kinds t sig = 1 :=
  if_pos (not_tokenFormed_iff.2 unformed)

section
variable (formed : TokenFormed kinds t)
include formed

theorem tokenFail_of_signer (signer : ¬ s.maySign t = true) : s.tokenFail kinds t sig = 2 := by
  unfold State.tokenFail
  rw [if_neg (fun h => not_tokenFormed_iff.1 h formed), if_pos (by simpa using signer)]

variable (signer : s.maySign t = true)
include signer

theorem tokenFail_of_serial (serial : fieldAt t 8 8 ≠ s.ident.serial) : s.tokenFail kinds t sig = 3 := by
  unfold State.tokenFail
  rw [if_neg (fun h => not_tokenFormed_iff.1 h formed), if_neg (by simp [signer]), if_pos serial]

variable (serial : fieldAt t 8 8 = s.ident.serial)
include serial

theorem tokenFail_of_signature (signature : ¬ s.verifies (s.signerKey t) sig = true) : s.tokenFail kinds t sig = 4 := by
  unfold State.tokenFail
  rw [if_neg (fun h => not_tokenFormed_iff.1 h formed), if_neg (by simp [signer]), if_neg (by simp [serial]), if_pos (by simpa using signature)]

/-- Step 5 decides where the others pass. -/
theorem tokenFail_of_signature_ok (signature : s.verifies (s.signerKey t) sig = true) :
    s.tokenFail kinds t sig = if tokSeq t ≤ nthD s.life.counters (tokCounter t) 0 then 5 else 0 := by
  unfold State.tokenFail
  rw [if_neg (fun h => not_tokenFormed_iff.1 h formed), if_neg (by simp [signer]), if_neg (by simp [serial]), if_neg (by simp [signature])]

end

/-- A token passes exactly when all five steps do. -/
theorem tokenFail_eq_zero_iff : s.tokenFail kinds t sig = 0 ↔ TokenFormed kinds t ∧ s.maySign t = true ∧ fieldAt t 8 8 = s.ident.serial ∧
    s.verifies (s.signerKey t) sig = true ∧ nthD s.life.counters (tokCounter t) 0 < tokSeq t := by
  by_cases formed : TokenFormed kinds t
  case neg => simp [tokenFail_of_unformed formed, formed]
  by_cases signer : s.maySign t = true
  case neg => simp [tokenFail_of_signer formed signer, signer]
  by_cases serial : fieldAt t 8 8 = s.ident.serial
  case neg => simp [tokenFail_of_serial formed signer serial, serial]
  by_cases signature : s.verifies (s.signerKey t) sig = true
  case neg => simp [tokenFail_of_signature formed signer serial signature, signature]
  rw [tokenFail_of_signature_ok formed signer serial signature]
  simp [formed, signer, serial, signature]

/-- A token that fails is refused with the step that failed. -/
theorem withToken_of_fail {o : Outstanding} {run : State → State} (sized : tokSized t = true) {n : Nat} (fails : s.tokenFail kinds t sig = n)
    (step : n ≠ 0) : s.withToken o kinds t sig run = s.refuseToken o n := by
  subst fails
  unfold State.withToken
  rw [if_neg (by simp [sized])]
  split
  · next passes => exact absurd passes step
  · rfl

end

/-- What the count of a token leaves: the record with the new counter, the older one beside it, and a batch for the recorder. -/
theorem countToken_life (s : State) (t : List Byte) :
    (s.countToken t).life = { s.life with counters := setNth s.life.counters (tokCounter t) (tokSeq t), seq := s.life.seq + 1 } ∧
    (s.countToken t).lifeOlder = s.life := ⟨rfl, rfl⟩

/-- Settles O13: each failing step by its own lemma, and the passing token by `withToken_of_pass`. -/
theorem tokenCheckedThenCounted : Obligations.TokenCheckedThenCounted := by
  intro s o kinds t sig run sized
  refine ⟨_, _, _, _, _, Iff.rfl, Iff.rfl, Iff.rfl, Iff.rfl, Iff.rfl, fun n failing => ?_, ?_⟩
  · have step : s.tokenFail kinds t sig = n ∧ n ≠ 0 := by
      rcases failing with ⟨rfl, h⟩ | ⟨rfl, h1, h⟩ | ⟨rfl, h1, h2, h⟩ | ⟨rfl, h1, h2, h3, h⟩ | ⟨rfl, h1, h2, h3, h4, h⟩
      · exact ⟨tokenFail_of_unformed h, by decide⟩
      · exact ⟨tokenFail_of_signer h1 h, by decide⟩
      · exact ⟨tokenFail_of_serial h1 h2 h, by decide⟩
      · exact ⟨tokenFail_of_signature h1 h2 h3 h, by decide⟩
      · exact ⟨(tokenFail_of_signature_ok h1 h2 h3 h4).trans (if_pos (Nat.le_of_not_lt h)), by decide⟩
    exact withToken_of_fail sized step.1 step.2
  · rintro ⟨h1, h2, h3, h4, h5⟩
    have passes : s.tokenFail kinds t sig = 0 := tokenFail_eq_zero_iff.2 ⟨h1, h2, h3, h4, h5⟩
    exact ⟨_, withToken_of_pass sized passes, (countToken_life s t).1, (countToken_life s t).2, rfl, rfl, rfl, rfl, rfl⟩

/-- Settles O14: the count leaves the signer's counter at the token's own number, so step 5 fails. -/
theorem tokenNeverPassesTwice : Obligations.TokenNeverPassesTwice := by
  intro s t' kinds kinds' t sig sig' _ known counted again
  obtain ⟨-, -, -, -, newer⟩ := tokenFail_eq_zero_iff.1 again
  rw [counted, (countToken_life s t).1] at newer
  simp [nthD_setNth, known] at newer

end Sys2Proof.Laws
end

section
/-! The life cycle (R365, R366, R367, R370, R371): transitions, what Retired leaves, key writes, and the status. -/

namespace Sys2Proof.Laws

open Sys2Proof Sys2Proof.Machine

/-! ### Commands under a token -/

section
variable {s u : State} {o : Outstanding} {e : Entry} {op : Nat} {kinds : List Nat} {sig : Sig} {run : Outstanding → State → State}
  (taken : s.accepts op true true e u o)
include taken

theorem command_withToken_of_fail (sized : tokSized (Entry.body e) = true) {n : Nat} (fails : u.tokenFail kinds (Entry.body e) sig = n)
    (step : n ≠ 0) : s.command op true true e (fun o s => s.withToken o kinds (Entry.body e) sig (run o)) = u.refuseToken o n :=
  (command_accepts taken _).trans (withToken_of_fail sized fails step)

theorem command_withToken_of_pass (sized : tokSized (Entry.body e) = true) (passes : u.tokenFail kinds (Entry.body e) sig = 0) :
    s.command op true true e (fun o s => s.withToken o kinds (Entry.body e) sig (run o)) = run o (u.countToken (Entry.body e)) :=
  (command_accepts taken _).trans (withToken_of_pass sized passes)

/-- The fetch and the count of the token reach the host link, the life-cycle record and the recorder alone. -/
theorem counted_parts (b : List Byte) : ∃ h r, u.countToken b = { s with host := h, recorder := r, life := (u.countToken b).life, lifeOlder := s.life } := by
  obtain ⟨h, rfl⟩ := accepts_host taken
  exact ⟨h, _, rfl⟩

theorem counted_lifeState (b : List Byte) : (u.countToken b).life.state = s.life.state := by
  obtain ⟨h, rfl⟩ := accepts_host taken; rfl

end

theorem verifies_iff {s : State} {key : KeyBits} {sig : Sig} :
    s.verifies key sig = true ↔ key ≠ 0 ∧ sig.ok = true ∧ sig.key = key ∧ s.power.cryptoDown = false := by
  unfold State.verifies
  simp only [Bool.and_eq_true, bne_iff_ne, beq_iff_eq, Bool.not_eq_true']
  tauto

theorem tokenFail_le (s : State) (kinds : List Nat) (t : List Byte) (sig : Sig) : s.tokenFail kinds t sig ≤ 5 := by
  unfold State.tokenFail
  repeat' split
  all_goals omega

/-! ### Transitions (R366) -/

/-- The pairs of Table 18-2 are those for which it names a signer. -/
theorem transitionSigner_isSome_iff (a b : Nat) : (transitionSigner a b).isSome = true ↔
    (a, b) ∈ [(0, 1), (1, 2), (2, 3), (3, 2), (3, 1), (0, 4), (1, 4), (2, 4), (3, 4)] := by
  unfold transitionSigner
  split
  case h_10 => simp_all
  all_goals simp

/-- A pair of Table 18-2 from the present state, with what the table asks for Operation. -/
def TransitionAllowed (s : State) (a b : Nat) : Prop := a = s.life.state.code ∧
  (a, b) ∈ [(0, 1), (1, 2), (2, 3), (3, 2), (3, 1), (0, 4), (1, 4), (2, 4), (3, 4)] ∧
  (b = 2 → s.life.authority ≠ 0 ∧ s.forme.isSome = true ∧ s.vitalForce = false ∧ s.update.state ≠ 4 ∧ s.proofs.userRuns = false)

theorem transitionOk_iff {s : State} {a b : Nat} : s.transitionOk a b = true ↔ TransitionAllowed s a b := by
  unfold TransitionAllowed
  unfold State.transitionOk State.trialRuns
  rw [← transitionSigner_isSome_iff]
  simp only [Bool.and_eq_true, Bool.or_eq_true, beq_iff_eq, bne_iff_ne, Bool.not_eq_true', ne_eq, beq_eq_false_iff_ne, and_assoc]
  tauto

theorem lifeOf_code {n : Nat} {x : LifeState} (h : lifeOf n = some x) : x.code = n := by
  unfold lifeOf at h
  split at h <;> cases h <;> rfl

theorem entering_of_not_retired {f : Life} {n : Nat} {x : LifeState} (h : lifeOf n = some x) (live : n ≠ 4) :
    f.entering x = { f with state := x, transitions := sat32 f.transitions 1, inServiceS := if n = 2 then 0 else f.inServiceS } := by
  unfold lifeOf at h
  split at h <;> cases h
  case h_5 => exact absurd rfl live
  all_goals rfl

theorem transition_of_not_retired {s : State} {n : Nat} {x : LifeState} (h : lifeOf n = some x) (live : n ≠ 4) :
    s.transition x = (({ s with proofs := s.proofs.leaveService } : State).writeLife (fun f => { f with
      state := x, transitions := sat32 f.transitions 1, inServiceS := if n = 2 then 0 else f.inServiceS })).raiseWith evLcsChanged
      (leBytes 1 s.life.state.code ++ leBytes 1 n) [recKeep 0x0730 0 (leBytes 1 1 ++ leBytes 1 s.life.state.code ++ leBytes 1 n ++ leBytes 5 0)] := by
  have notRetired : x ≠ .retired := by rintro rfl; exact live (lifeOf_code h).symm
  unfold State.transition
  dsimp only
  rw [if_neg notRetired, lifeOf_code h, funext fun f : Life => entering_of_not_retired (f := f) h live]

section
variable {s : State} {o : Outstanding} {t : List Byte}

theorem lcsTransition_of_bad (bad : s.transitionOk (fieldAt (tokBody t) 0 1) (fieldAt (tokBody t) 1 1) = false) :
    s.lcsTransition o t = s.answer o .state 0 [] := by
  unfold State.lcsTransition
  dsimp only
  split
  · rw [if_neg (by simp [bad])]
  · rfl

theorem lcsTransition_of_ok {x : LifeState} (known : lifeOf (fieldAt (tokBody t) 1 1) = some x)
    (ok : s.transitionOk (fieldAt (tokBody t) 0 1) (fieldAt (tokBody t) 1 1) = true) :
    s.lcsTransition o t = (s.transition x).answer o .done 0 (leBytes 1 (fieldAt (tokBody t) 1 1)) := by
  unfold State.lcsTransition
  dsimp only
  rw [known]
  exact if_pos ok

end

/-! ### Retired (R367) -/

theorem enterSafe_safe (s : State) (cause : Nat) : (s.enterSafe cause).platen.safe = true := by
  by_cases safe : s.platen.safe = true
  · unfold State.enterSafe; rwa [if_pos safe]
  · exact (enterSafe_platen (by simpa using safe) cause).1

/-- The outputs are open in the safe state that is entered, and stay open in one that had them open. -/
theorem enterSafe_outputsOpen {s : State} (cause : Nat) (open' : s.platen.safe = false ∨ s.outputsOpen = true) :
    (s.enterSafe cause).outputsOpen = true := by
  by_cases safe : s.platen.safe = true
  · unfold State.enterSafe
    rw [if_pos safe]
    exact open'.resolve_left (by simp [safe])
  · unfold State.outputsOpen
    rw [(enterSafe_facts (by simpa using safe) cause).2.1]
    rfl

theorem dropExchange_field (s : State) : s.dropExchange.field = s.field := (dropExchange_same s).field rfl

/-- What Retired leaves of lanes, update and platen. -/
theorem retire_facts (s : State) : s.retire.platen.safe = true ∧ s.retire.platen.safeCause = causeHeld ∧
    (s.platen.safe = false ∨ s.outputsOpen = true → s.retire.outputsOpen = true) ∧
    (∀ l, s.retire.lanes.get l = ((s.enterSafe causeHeld).dropExchange.lanes.get l).unsealAll) ∧
    s.retire.update = { s.update.endSession with nand := eraseNand s.update.nand } ∧ s.retire.req = s.req ∧ s.retire.life = s.life := by
  have update : (s.enterSafe causeHeld).dropExchange.update = s.update :=
    ((dropExchange_same _).update rfl).trans ((enterSafe_same s causeHeld).update rfl)
  have platen : (s.enterSafe causeHeld).dropExchange.platen = (s.enterSafe causeHeld).platen := (dropExchange_same _).platen rfl
  have same := retire_same s
  refine ⟨?_, ?_, fun open' => ?_, fun l => ?_, ?_, same.req rfl, same.life rfl⟩
  · unfold State.retire
    dsimp only
    split <;> exact (congrArg Platen.safe platen).trans (enterSafe_safe s causeHeld)
  · unfold State.retire
    dsimp only
    split <;> rfl
  · have kept : s.retire.field = (s.enterSafe causeHeld).field := by
      unfold State.retire
      dsimp only
      split <;> exact dropExchange_field _
    unfold State.outputsOpen
    rw [kept]
    exact enterSafe_outputsOpen causeHeld open'
  · unfold State.retire
    dsimp only
    split <;> exact map_get ..
  · unfold State.retire
    dsimp only
    split <;> exact congrArg (fun u : Update => { u.endSession with nand := eraseNand u.nand }) update

/-- The state that a transition into Retired writes its record on. -/
def retiring (s : State) : State := ({ s with proofs := s.proofs.leaveService } : State).retire

theorem transition_retired (s : State) : s.transition .retired =
    ((retiring s).writeLife (fun f => f.entering .retired)).raiseWith evLcsChanged (leBytes 1 s.life.state.code ++ leBytes 1 4)
      [recKeep 0x0730 0 (leBytes 1 1 ++ leBytes 1 s.life.state.code ++ leBytes 1 4 ++ leBytes 5 0)] := rfl

/-! ### Keys (R370) and the status -/

/-- The record once a key of the kind has been written. -/
theorem writeKey_of_kind {f g : Life} {t : List Byte} {i : Nat} (index : i = min (fieldAt (tokBody t) 0 1) 7) (kinds : tokKind t ∈ [0x02, 0x03, 0x04])
    (authority : tokKind t = 2 → g = { f with authority := bodyKey (tokBody t) 0, installation := fieldAt (tokBody t) 57 8, counters := setNth f.counters 1 0 })
    (maintainer : tokKind t = 3 → g = { f with maintainer := setNth f.maintainer i (bodyKey (tokBody t) 1), counters := setNth f.counters (2 + i) 0 })
    (host : tokKind t = 4 → g = { f with host := setNth f.host i (bodyKey (tokBody t) 1) }) : f.writeKey (tokKind t) (tokBody t) = g := by
  subst index
  unfold Life.writeKey
  simp only [List.mem_cons, List.not_mem_nil, or_false] at kinds
  rcases kinds with kind | kind | kind
  · rw [authority kind, kind]; rfl
  · rw [maintainer kind, kind]; rfl
  · rw [host kind, kind]; rfl

/-- Bit 0 of the mask of keys is the authority's. -/
theorem keyMask_authority (f : Life) : f.keyMask.testBit 0 = true ↔ f.authority ≠ 0 := by
  have bit := member_ofMembers ((f.authority != 0) :: (f.maintainer.map (· != 0) ++ f.host.map (· != 0))) 0
  unfold member at bit
  unfold Life.keyMask
  rw [bit]
  simp

/-- Bits 1 to 8 are the maintainers'. -/
theorem keyMask_maintainer {f : Life} (eight : f.maintainer.length = 8) {i : Nat} (below : i < 8) :
    f.keyMask.testBit (1 + i) = true ↔ nthD f.maintainer i 0 ≠ 0 := by
  have bit := member_ofMembers ((f.authority != 0) :: (f.maintainer.map (· != 0) ++ f.host.map (· != 0))) (1 + i)
  unfold member at bit
  unfold Life.keyMask nthD
  rw [bit, Nat.add_comm 1 i]
  have inside : i < f.maintainer.length := by omega
  simp [List.getD_eq_getElem?_getD, List.getElem?_append, inside]

/-! ### The commands as the statement has them -/

section
variable {s u v : State} {o : Outstanding} {e : Entry} {b : List Byte} {sig : Sig} (hb : b = Entry.body e)
include hb

/-- Each of the four commands refuses a token that fails. -/
theorem exec_of_token_fail {c : Instr} {op : Nat} {kinds : List Nat}
    (row : (c = .lcsTransition e sig ∧ op = 0x1301 ∧ kinds = [0x01]) ∨ (c = .lcsKeyWrite e sig ∧ op = 0x1302 ∧ kinds = [0x02, 0x03, 0x04]) ∨
      (c = .recClear e sig ∧ op = 0x1503 ∧ kinds = [0x0A]) ∨ (c = .updConfirm e sig ∧ op = 0x1206 ∧ kinds = [0x08]))
    (taken : s.accepts op true true e u o) (sized : tokSized b = true) {n : Nat} (fails : n = u.tokenFail kinds b sig) (step : n ≠ 0) :
    exec c s = .next (u.refuseToken o n) := by
  subst hb
  rcases row with ⟨rfl, rfl, rfl⟩ | ⟨rfl, rfl, rfl⟩ | ⟨rfl, rfl, rfl⟩ | ⟨rfl, rfl, rfl⟩
  all_goals exact congrArg Host.Outcome.next (command_withToken_of_fail (run := fun o s => _) taken sized fails.symm step)

variable (hv : v = u.countToken b) (sized : tokSized b = true)
include hv sized

theorem exec_lcsTransition (taken : s.accepts 0x1301 true true e u o) (passes : u.tokenFail [0x01] b sig = 0) :
    exec (.lcsTransition e sig) s = .next (v.lcsTransition o b) := by
  subst hb hv
  exact congrArg Host.Outcome.next (command_withToken_of_pass (run := fun o s => s.lcsTransition o (Entry.body e)) taken sized passes)

theorem exec_lcsKeyWrite (taken : s.accepts 0x1302 true true e u o) (passes : u.tokenFail [0x02, 0x03, 0x04] b sig = 0) :
    exec (.lcsKeyWrite e sig) s = .next (v.lcsKeyWrite o b) := by
  subst hb hv
  exact congrArg Host.Outcome.next (command_withToken_of_pass (run := fun o s => s.lcsKeyWrite o (Entry.body e)) taken sized passes)

end

/-- What a transition into Retired answers with leaves (R367). -/
theorem retired_facts {s v : State} (o : Outstanding) (answered : List Byte) (kept : ∃ h r l k, v = { s with host := h, recorder := r, life := l, lifeOlder := k }) :
    ∃ t, (v.transition .retired).answer o .done 0 answered = t ∧
      t.life = { v.life with state := .retired, transitions := sat32 v.life.transitions 1, authority := 0, installation := 0,
                             maintainer := List.replicate 8 0, seq := v.life.seq + 1 } ∧ t.lifeOlder = v.life ∧
      t.platen.safe = true ∧ (s.platen.safe = false ∨ s.outputsOpen = true → t.outputsOpen = true) ∧ t.unsealed ∧
      (∀ l, (t.lanes.get l).slot0 = .empty ∧ (t.lanes.get l).slot1 = .empty) ∧ t.forme = none ∧
      t.update.session = none ∧ t.update.state = 0 ∧ t.update.nand = eraseNand s.update.nand ∧ t.req.auxCounts = s.req.auxCounts := by
  obtain ⟨h, r, l, k, rfl⟩ := kept
  obtain ⟨safe, cause, outputs, lanes, update, req, life⟩ := retire_facts
    ({ s with host := h, recorder := r, life := l, lifeOlder := k, proofs := s.proofs.leaveService } : State)
  have parts := transition_retired ({ s with host := h, recorder := r, life := l, lifeOlder := k } : State)
  refine ⟨_, rfl, ?_, ?_, ?_, fun open' => ?_, fun m => ?_, fun m => ?_, ?_, ?_, ?_, ?_, ?_⟩
  · simp only [parts, answer_life, raiseWith_life, retiring, State.writeLife, life]
    rfl
  · simp only [parts, answer_lifeOlder, raiseWith_lifeOlder, retiring, State.writeLife, life]
  · simp only [parts, answer_platen, raiseWith_platen, retiring, writeLife_platen, safe]
  · unfold State.outputsOpen at outputs ⊢
    simp only [parts, answer_field, raiseWith_field, retiring, writeLife_field]
    exact outputs open'
  · simp only [parts, answer_lanes, raiseWith_lanes, retiring, writeLife_lanes, lanes]
    exact ⟨rfl, rfl⟩
  · simp only [parts, answer_lanes, raiseWith_lanes, retiring, writeLife_lanes, lanes]
    exact ⟨rfl, rfl⟩
  · unfold State.forme State.runsNothing
    simp only [parts, answer_platen, raiseWith_platen, retiring, writeLife_platen, safe, cause]
    rfl
  all_goals simp only [parts, answer_update, answer_req, raiseWith_update, raiseWith_req, retiring, writeLife_update, writeLife_req, update, req]
  all_goals rfl

/-- Settles O59: the checks by step, the transition by its target, the key by its kind, and the mask of keys bit by bit. -/
theorem lifeCycleMovesByTokens : Obligations.LifeCycleMovesByTokens := by
  intro s u o e b sig hb
  refine ⟨fun c op kinds row taken sized n fails step => exec_of_token_fail hb row taken sized fails step, fun kinds n hn => ?_,
    fun v hv sized => ⟨by rw [hv, (countToken_life u b).1], by rw [hv, (countToken_life u b).2], by rw [hv, (countToken_life u b).1], ?_, ?_⟩,
    fun taken => ⟨s.life.keyMask, keyMask_authority _, fun eight i below => keyMask_maintainer eight below, ?_⟩⟩
  · subst hn
    refine ⟨?_, tokenFail_le ..⟩
    rw [tokenFail_eq_zero_iff, TokenFormed, verifies_iff]
    simp only [and_assoc]
    rfl
  · intro taken passes from' to' x hfrom hto
    have ran := exec_lcsTransition hb hv sized taken passes
    obtain ⟨h, rfl⟩ := accepts_host taken
    have conditions : v.transitionOk from' to' = true ↔ TransitionAllowed s from' to' := by rw [hv]; exact transitionOk_iff
    have code (ok : v.transitionOk from' to' = true) : s.life.state.code = from' := (conditions.1 ok).1.symm
    have kept : ∃ h r l k, v = { s with host := h, recorder := r, life := l, lifeOlder := k } := ⟨_, _, _, _, hv⟩
    refine ⟨v.transitionOk from' to' = true, conditions, fun bad => ?_, fun ok live known => ?_, fun ok retired => ?_⟩
    · rw [ran, lcsTransition_of_bad (by simpa [hfrom, hto] using bad)]
    · have code' : v.life.state.code = from' := by rw [hv]; exact code ok
      rw [ran, lcsTransition_of_ok (hto ▸ known) (by rw [← hfrom, ← hto]; exact ok), transition_of_not_retired known live, code', ← hto]
    · rw [ran, lcsTransition_of_ok (x := .retired) (by rw [← hto, retired]; rfl) (by rw [← hfrom, ← hto]; exact ok)]
      obtain ⟨t, answered, facts⟩ := retired_facts o (leBytes 1 (fieldAt (tokBody b) 1 1)) kept
      exact ⟨t, congrArg _ answered, facts⟩
  · intro taken passes i t w g index authority maintainer host ht hw
    have kinds := (tokenFail_eq_zero_iff.1 passes).1.2.2.1
    rw [exec_lcsKeyWrite hb hv sized taken passes]
    unfold State.lcsKeyWrite State.writeLife
    dsimp only
    rw [writeKey_of_kind index kinds authority maintainer host, ← index, ht, hw, ← List.append_assoc]
  · obtain ⟨h, rfl⟩ := accepts_host taken
    exact congrArg Host.Outcome.next (command_accepts taken _)

end Sys2Proof.Laws
end

section
/-! The recorder (R382 to R391): what fits into an answer, how batches are applied, what a batch and a clear leave of an item, and when a
clear is taken. -/

namespace Sys2Proof.Laws

open Sys2Proof Sys2Proof.Machine

/-! ### Answers (R387, R390) -/

/-- The pieces that fit are a longest beginning of the list. -/
theorem fitting_fits : ∀ (l : List (List Byte)) (room : Nat), Fits room l (fitting room l)
  | [], room => ⟨List.nil_prefix, Nat.zero_le _, fun b next => by cases next⟩
  | b :: l, room => by
    unfold fitting
    split
    · next fits =>
      obtain ⟨front, short, next⟩ := fitting_fits l (room - b.length)
      refine ⟨(List.prefix_cons_inj b).2 front, ?_, fun c at' => ?_⟩
      · rw [List.flatten_cons, List.length_append]
        omega
      · have := next c at'
        rw [List.flatten_cons, List.length_append]
        omega
    · next large =>
      refine ⟨List.nil_prefix, Nat.zero_le _, fun c at' => ?_⟩
      obtain rfl : b = c := by simpa using at'
      simpa using large

theorem mem_recRange (first count n : Nat) : n ∈ recRange first count ↔ (recSpec n).isSome = true ∧ n < 4096 ∧ first ≤ n ∧ n < first + count := by
  unfold recRange recNumbers
  simp only [List.mem_filter, List.mem_range, Bool.and_eq_true, decide_eq_true_eq]
  constructor
  · rintro ⟨⟨below, known⟩, from', before⟩
    exact ⟨known, below, from', by omega⟩
  · rintro ⟨known, below, from', before⟩
    exact ⟨⟨below, known⟩, from', by omega⟩

/-- The parameters of the recorder and of power are read from no part of the host link. -/
theorem paramBytes_of_host {s : State} {id : Nat} (family : id / 256 = 0x15 ∨ id / 256 = 0x16) (h : HostLink) :
    ({ s with host := h } : State).paramBytes id = s.paramBytes id := by
  unfold State.paramBytes State.param State.readOnly
  rcases family with family | family <;> (dsimp only; rw [family]; rfl)

/-! ### Batches (R384, R385) -/

/-- What a raise adds to the recorder. -/
theorem raise_recorder (s : State) (num : Nat) (p : List Byte) : (s.raise num p).recorder = { s.recorder with
    uncounted := kvDel s.recorder.uncounted num,
    pending := s.recorder.pending ++ [[{ recCount 0x0F00 num with times := 1 + kvGetD s.recorder.uncounted num 0 }]] } := by
  have posted : (s.post { num := num, payload := p }).recorder = s.recorder := (post_same ..).recorder rfl
  unfold State.raise State.recordRaise
  rw [posted]
  rfl

/-- A recorder whose items and numbers are those of another, and whose batches go on where the other's end. -/
def RecWaits (r q : Recorder) : Prop := q.items = r.items ∧ q.seq = r.seq ∧ q.clearing = r.clearing ∧ q.lastClear = r.lastClear ∧ r.pending <+: q.pending

theorem raises_waits (f : Nat → List Byte) : ∀ (l : List Nat) (s : State),
    RecWaits s.recorder (l.foldl (fun s n => s.raise evRecSaturated (f n)) s).recorder
  | [], _ => ⟨rfl, rfl, rfl, rfl, List.prefix_rfl⟩
  | n :: l, s => by
    obtain ⟨items, seq, clearing, last, front⟩ := raises_waits f l (s.raise evRecSaturated (f n))
    rw [raise_recorder] at items seq clearing last front
    exact ⟨items, seq, clearing, last, (List.prefix_append _ _).trans front⟩

/-- What the oldest batch leaves of the recorder, while later ones wait. -/
theorem applyBatch_waits {s : State} {batch : List RecUpd} {rest : List (List RecUpd)} (waits : s.recorder.pending = batch :: rest) :
    RecWaits (({ s.recorder with pending := rest } : Recorder).apply batch).1 s.applyBatch.recorder := by
  unfold State.applyBatch
  rw [waits]
  exact raises_waits (leBytes 2) _ _

theorem updates_kept {seq : Nat} : ∀ (l : List RecUpd) (p : Recorder × List Nat),
    (l.foldl (fun (p : Recorder × List Nat) u =>
      ((p.1.update seq u).1, if (p.1.update seq u).2 then p.2 ++ [u.item] else p.2)) p).1.pending = p.1.pending
  | [], _ => rfl
  | u :: l, p => by
    rw [List.foldl_cons, updates_kept l]
    show (p.1.update seq u).1.pending = _
    unfold Recorder.update
    split
    · rfl
    · dsimp only; split <;> rfl

theorem apply_pending (r : Recorder) (batch : List RecUpd) : (r.apply batch).1.pending = r.pending := updates_kept _ _

theorem apply_clearing (r : Recorder) (batch : List RecUpd) : (r.apply batch).1.clearing = r.clearing := updates_clearing _ _

/-- One batch applied: the next number, and the batches behind it still wait. -/
theorem applyBatch_seq {s : State} {batch : List RecUpd} {rest : List (List RecUpd)} (waits : s.recorder.pending = batch :: rest) :
    s.applyBatch.recorder.seq = s.recorder.seq + 1 ∧ s.applyBatch.recorder.clearing = s.recorder.clearing ∧ rest <+: s.applyBatch.recorder.pending := by
  obtain ⟨-, seq, clearing, -, front⟩ := applyBatch_waits waits
  rw [apply_pending] at front
  exact ⟨seq, clearing.trans (apply_clearing ..), front⟩

/-- So many of the waiting batches applied: as many numbers taken, and the batches behind them still wait. -/
theorem applyBatches_seq : ∀ (n : Nat) {s : State}, s.recorder.clearing = none → n ≤ s.recorder.pending.length →
    (s.applyBatches n).recorder.seq = s.recorder.seq + n ∧ s.recorder.pending.drop n <+: (s.applyBatches n).recorder.pending
  | 0, s, _, _ => ⟨rfl, List.prefix_rfl⟩
  | n + 1, s, idle, many => by
    obtain ⟨batch, rest, waits⟩ : ∃ b l, s.recorder.pending = b :: l := List.exists_cons_of_length_pos (by omega)
    obtain ⟨seq, clearing, front⟩ := applyBatch_seq waits
    have more : n ≤ s.applyBatch.recorder.pending.length := by
      have := front.length_le
      rw [waits, List.length_cons] at many
      omega
    obtain ⟨seq', front'⟩ := applyBatches_seq n (clearing.trans idle) more
    have step : s.applyBatches (n + 1) = s.applyBatch.applyBatches n := if_neg (by simp [idle])
    rw [step, seq', seq, waits, List.drop_succ_cons]
    exact ⟨by omega, (front.drop n).trans front'⟩

theorem applyBatches_of_clearing {s : State} (clearing : s.recorder.clearing.isSome = true) : ∀ n, s.applyBatches n = s
  | 0 => rfl
  | _ + 1 => if_pos clearing

/-! ### The items a batch touches (R382, R383) -/

theorem item_num (r : Recorder) (n : Nat) : (r.item n).num = n := by
  unfold Recorder.item
  cases h : r.items.find? (fun i => i.num == n) with
  | none => rfl
  | some i => exact beq_iff_eq.1 (List.find?_some (p := fun i : RecItem => i.num == n) h)

/-- The item under a number after one has been put in place; an item with nothing in it is not listed. -/
theorem item_setItem (r : Recorder) (i : RecItem) (n : Nat) : (r.setItem i).item n = if i.num = n then i else r.item n := by
  have found : (r.setItem i).items.find? (fun j => j.num == n) =
      ((r.items.filter (fun j => j.num != i.num)) ++ (if i = .empty i.num then [] else [i])).find? (fun j => j.num == n) :=
    find?_sortBy (fun _ _ hx hy => decide_eq_true ((beq_iff_eq.1 hx).trans (beq_iff_eq.1 hy).symm).le) _
  unfold Recorder.item
  rw [found, List.find?_append, List.find?_filter]
  by_cases same : i.num = n
  · subst same
    have taken : r.items.find? (fun j => decide ((j.num != i.num) = true ∧ (j.num == i.num) = true)) = none := by simp
    rw [taken, Option.none_or, if_pos rfl]
    split
    · next empty => exact empty.symm
    · simp
  · have kept : r.items.find? (fun j => decide ((j.num != i.num) = true ∧ (j.num == n) = true)) = r.items.find? (fun j => j.num == n) := by
      congr 1
      funext j
      by_cases at' : j.num = n
      · simp [at', Ne.symm same]
      · simp [at']
    have alone : (if i = RecItem.empty i.num then [] else [i]).find? (fun j => j.num == n) = none := by
      split <;> simp [same]
    rw [kept, alone, Option.or_none, if_neg same]

theorem addHistogram_num (i : RecItem) (k : RecKind) (u : RecUpd) : (i.addHistogram k u).1.num = i.num := by
  unfold RecItem.addHistogram
  dsimp only
  repeat' split
  all_goals rfl

/-- One update writes the item it names, under the batch's number, and no other. -/
theorem update_item (r : Recorder) (seq : Nat) (u : RecUpd) (n : Nat) :
    (u.item ≠ n → (r.update seq u).1.item n = r.item n) ∧
    (u.item = n → (recSpec n).isSome = true → ((r.update seq u).1.item n).seq = seq) := by
  have written (j : RecItem) (num : j.num = u.item) (stamped : j.seq = seq) :
      (u.item ≠ n → (r.setItem j).item n = r.item n) ∧ (u.item = n → (recSpec n).isSome = true → ((r.setItem j).item n).seq = seq) := by
    rw [item_setItem, num]
    exact ⟨fun other => if_neg other, fun same _ => by rw [if_pos same, stamped]⟩
  unfold Recorder.update
  split
  · next unknown => exact ⟨fun _ => rfl, by rintro rfl known; simp [unknown] at known⟩
  · dsimp only
    split
    · exact written _ (item_num r u.item) rfl
    · exact written _ ((addHistogram_num ..).trans (item_num r u.item)) rfl

/-- The updates of a batch, applied in turn. -/
def updates (seq : Nat) (l : List RecUpd) (p : Recorder × List Nat) : Recorder × List Nat :=
  l.foldl (fun p u => ((p.1.update seq u).1, if (p.1.update seq u).2 then p.2 ++ [u.item] else p.2)) p

theorem updates_item_of_untouched {seq n : Nat} : ∀ (l : List RecUpd) (p : Recorder × List Nat), (∀ x ∈ l, x.item ≠ n) →
    (updates seq l p).1.item n = p.1.item n
  | [], _, _ => rfl
  | u :: l, p, other => (updates_item_of_untouched l _ fun x mem => other x (List.mem_cons_of_mem _ mem)).trans
      ((update_item p.1 seq u n).1 (other u (List.mem_cons_self ..)))

/-- Once an update has written the item, each later one leaves it under the same number. -/
theorem updates_item_seq {seq n : Nat} (known : (recSpec n).isSome = true) : ∀ (l : List RecUpd) (p : Recorder × List Nat),
    (p.1.item n).seq = seq ∨ (∃ x ∈ l, x.item = n) → ((updates seq l p).1.item n).seq = seq
  | [], _, h => h.resolve_right (by simp)
  | u :: l, p, h => by
    refine updates_item_seq known l ((p.1.update seq u).1, _) ?_
    by_cases same : u.item = n
    · exact .inl ((update_item p.1 seq u n).2 same known)
    · rcases h with written | ⟨x, mem, at'⟩
      · exact .inl (by rw [(update_item p.1 seq u n).1 same, written])
      · rcases List.mem_cons.1 mem with rfl | mem
        · exact absurd at' same
        · exact .inr ⟨x, mem, at'⟩

/-- A batch gives its number to the items it names, and keeps every other. -/
theorem apply_item (r : Recorder) (batch : List RecUpd) (n : Nat) :
    ((∀ x ∈ batch, x.item ≠ n) → (r.apply batch).1.item n = r.item n) ∧
    ((∃ x ∈ batch, x.item = n) → (recSpec n).isSome = true → ((r.apply batch).1.item n).seq = r.seq + 1) := by
  have mem (x : RecUpd) : x ∈ sortBy (fun a b => decide (a.item ≤ b.item)) batch ↔ x ∈ batch := (sortBy_perm _ _).mem_iff
  refine ⟨fun other => updates_item_of_untouched _ (r, []) fun x h => other x ((mem x).1 h), fun ⟨x, h, at'⟩ known => ?_⟩
  exact updates_item_seq known _ (r, []) (.inr ⟨x, (mem x).2 h, at'⟩)

theorem item_congr {r q : Recorder} (items : q.items = r.items) (n : Nat) : q.item n = r.item n := by
  unfold Recorder.item; rw [items]

/-! ### The clear (R388, R389) -/

/-- The clear record: every other item is empty under the number of the clear. -/
theorem finishClear_item (r : Recorder) (c : RecClear) {n : Nat} (other : n ≠ 0) :
    (r.finishClear c).item n = .empty n ∧ (r.finishClear c).itemSeq n = c.c := by
  have absent : (r.finishClear c).items.find? (fun i => i.num == n) = none := by
    unfold Recorder.finishClear
    have num : ((r.item 0).num == n) = false := by rw [item_num]; simpa using other.symm
    simp [RecItem.addExtreme, num]
  unfold Recorder.item Recorder.itemSeq
  rw [absent]
  exact ⟨rfl, rfl⟩

theorem item_of_alone {r : Recorder} {i : RecItem} {n : Nat} (alone : r.items = [i]) (num : i.num = n) : r.item n = i := by
  unfold Recorder.item
  rw [alone]
  simp [num]

/-- Item 0 keeps the clear: its number, and in its detail the token, the session and the number named. -/
theorem finishClear_zero (r : Recorder) (c : RecClear) (newest : ∀ m, (r.item 0).max = some m → m.1 ≤ c.c) :
    ∃ low, ((r.finishClear c).item 0).max = some ((c.c : Int), c.c, low) ∧ low.length = 24 ∧
      low.take 16 = leBytes 4 c.tokenSeq ++ leBytes 1 c.key ++ leBytes 1 0 ++ leBytes 2 c.session ++ leBytes 8 c.s := by
  have front (d : List Byte) (n : Nat) (long : d.length = 16) (l : List Byte) : ((d ++ leBytes 4 n ++ leBytes 4 0 ++ l).take 24).take 16 = d := by
    rw [List.take_take, List.append_assoc, List.append_assoc, List.take_append_of_le_length (by omega), List.take_of_length_le (by omega)]
  have kept : ((r.finishClear c).item 0).max = some (recBlock 24 c.c c.c (leBytes 4 c.tokenSeq ++ leBytes 1 c.key ++ leBytes 1 0 ++
      leBytes 2 c.session ++ leBytes 8 c.s ++ leBytes 4 (r.items.filter (fun i => i.num != 0)).length ++ leBytes 4 0)) := by
    rw [item_of_alone (r := r.finishClear c) rfl (item_num r 0)]
    unfold RecItem.addExtreme
    dsimp only
    split
    · next m old => rw [if_pos (newest m old)]
    · rfl
  refine ⟨_, kept, ?_, ?_⟩
  · simp
  · exact front _ _ (by simp) _

section
variable {s : State} {o : Outstanding} {t : List Byte} {at' last : Nat} (named : at' = fieldAt (tokBody t) 0 8)
  (cleared : last = (s.recorder.clearing.map (·.c)).getD s.recorder.lastClear)
include named cleared

/-- A clear in the window of R388 waits with its token. -/
theorem recClear_of_window (window : last < at' ∧ at' ≤ s.recorder.seq ∧ s.recorder.seq - at' < 1048576) :
    ∃ c r, c = ({ c := s.recorder.seq + 1, s := at', tokenSeq := tokSeq t, key := tokIndex t, session := o.session, answer := o } : RecClear) ∧
      r = { s.recorder with clearing := some c } ∧ s.recClear o t = ({ s with recorder := r } : State).keep o := by
  subst named cleared
  refine ⟨_, _, rfl, rfl, ?_⟩
  unfold State.recClear
  exact if_pos (by simpa [Recorder.mayClear, and_assoc] using window)

theorem recClear_of_outside (outside : at' ≤ last ∨ s.recorder.seq < at' ∨ 1048576 ≤ s.recorder.seq - at') :
    s.recClear o t = (s.answer o .state 0 []).raise evRecClearRefused (leBytes 8 at') := by
  subst named cleared
  unfold State.recClear
  refine if_neg fun may => ?_
  obtain ⟨⟨newer, known⟩, near⟩ : ((s.recorder.clearing.map (·.c)).getD s.recorder.lastClear < fieldAt (tokBody t) 0 8 ∧
    fieldAt (tokBody t) 0 8 ≤ s.recorder.seq) ∧ s.recorder.seq - fieldAt (tokBody t) 0 8 < 1048576 := by simpa [Recorder.mayClear] using may
  omega

end

/-! ### The commands as the statement has them -/

section
variable {s u : State} {o : Outstanding} {e : Entry}

theorem exec_recList (taken : s.accepts 0x1501 false true e u o) (sized : Entry.size e 4 = true) :
    exec (.recList e) s = .next (u.answer o .done 0 (s.recorder.list (Entry.field e 0 2) (Entry.field e 2 2))) := by
  obtain ⟨h, rfl⟩ := accepts_host taken
  exact congrArg Host.Outcome.next ((command_accepts taken _).trans (if_pos sized))

/-- `rec.read` copies what the batches applied meanwhile have left. -/
theorem exec_recRead (taken : s.accepts 0x1502 false true e u o) (sized : Entry.size e 4 = true) (k : Nat) {v : State}
    (hv : v = u.applyBatches (min k s.recorder.pending.length)) :
    exec (.recRead e k) s = .next (v.answer o .done 0 (s.recorder.readout v.recorder (Entry.field e 0 2) (Entry.field e 2 2))) := by
  subst hv
  obtain ⟨h, rfl⟩ := accepts_host taken
  exact congrArg Host.Outcome.next ((command_accepts taken _).trans (if_pos sized))

theorem exec_recStatus (taken : s.accepts 0x1504 false true e u o) : exec (.recStatus e) s = .next (u.answer o .done 0
    (s.paramBytes 0x1501 ++ s.paramBytes 0x1502 ++ s.paramBytes 0x1503 ++ s.paramBytes 0x1504 ++ s.paramBytes 0x1505)) := by
  obtain ⟨h, rfl⟩ := accepts_host taken
  have values : ({ s with host := h } : State).paramRange 0x1501 5 =
      s.paramBytes 0x1501 ++ s.paramBytes 0x1502 ++ s.paramBytes 0x1503 ++ s.paramBytes 0x1504 ++ s.paramBytes 0x1505 := by
    have five : List.range 5 = [0, 1, 2, 3, 4] := rfl
    simp [State.paramRange, five, paramBytes_of_host]
  rw [← values]
  exact congrArg Host.Outcome.next (command_accepts taken _)

theorem exec_pwrStatus (taken : s.accepts 0x1601 false true e u o) : exec (.pwrStatus e) s = .next (u.answer o .done 0
    (((List.range 9).map (0x1601 + ·)).flatMap s.paramBytes ++ ((List.range 14).map (0x1610 + ·)).flatMap s.paramBytes)) := by
  obtain ⟨h, rfl⟩ := accepts_host taken
  have values (first n : Nat) (family : ∀ i < n, (first + i) / 256 = 0x16) : ({ s with host := h } : State).paramRange first n =
      ((List.range n).map (first + ·)).flatMap s.paramBytes := by
    unfold State.paramRange
    rw [List.flatMap_map]
    exact List.flatMap_congr fun i mem => paramBytes_of_host (.inr (family i (List.mem_range.1 mem))) h
  rw [← values _ _ (by omega), ← values _ _ (by omega)]
  exact congrArg Host.Outcome.next (command_accepts taken _)

end

section
variable {s : State} (running : s.power.running = true) (up : s.host.stewardUp = true)
include running up

theorem exec_recorderBatch (idle : s.recorder.clearing = none) : exec .recorderBatch s = .next s.applyBatch :=
  if_pos ⟨running, up, by rw [idle]; rfl⟩

theorem exec_recorderClearComplete {c : RecClear} (clearing : s.recorder.clearing = some c) :
    exec .recorderClearComplete s = .next (s.completeClear c) := by
  show execRecorderClearComplete s = _
  unfold execRecorderClearComplete
  rw [clearing]
  exact if_pos ⟨running, up⟩

end

theorem recorder_rests {s : State} (stopped : s.power.running = false ∨ s.host.stewardUp = false) :
    exec .recorderBatch s = .next s ∧ exec .recorderClearComplete s = .next s := by
  have not : ¬ (s.power.running = true ∧ s.host.stewardUp = true) := by
    rintro ⟨running, up⟩
    rcases stopped with h | h
    · simp [h] at running
    · simp [h] at up
  refine ⟨if_neg fun h => not ⟨h.1, h.2.1⟩, ?_⟩
  show execRecorderClearComplete s = _
  unfold execRecorderClearComplete
  split
  · exact if_neg not
  · rfl

/-- Settles O60: lists by `fitting_fits`, batches by `applyBatches_seq` and `apply_item`, clears by their window and their record. -/
theorem recorderListsReadsAndClears : Obligations.RecorderListsReadsAndClears := by
  intro s u o e b sig hb
  refine ⟨fun taken sized => ⟨_, fitting_fits _ _, exec_recList taken sized⟩, mem_recRange, fun k taken sized => ?_, exec_recStatus, exec_pwrStatus,
    fun taken sized passes v at' last hv named cleared => ?_, fun running up => ⟨fun idle batch rest waits => ?_, fun c clearing => ?_⟩, recorder_rests⟩
  · obtain ⟨h, rfl⟩ := accepts_host taken
    have same := applyBatches_same ({ s with host := h } : State) (min k s.recorder.pending.length)
    refine ⟨_, _, exec_recRead taken sized k rfl, fitting_fits _ _, fun none' => ?_, fun idle => ?_, same.lanes rfl, same.platen rfl, same.field rfl,
      same.net rfl⟩
    · rcases none' with rfl | none' | clearing
      · rw [Nat.zero_min]; rfl
      · rw [none', List.length_nil, Nat.min_zero]; rfl
      · exact applyBatches_of_clearing (s := { s with host := h }) clearing _
    · obtain ⟨seq, front⟩ := applyBatches_seq (min k s.recorder.pending.length) (s := { s with host := h }) idle (Nat.min_le_right ..)
      refine ⟨seq, ?_⟩
      rcases Nat.le_total k s.recorder.pending.length with few | many
      · rwa [Nat.min_eq_left few] at front ⊢
      · rw [List.drop_eq_nil_of_le many]
        exact List.nil_prefix
  · subst hb hv
    have ran : exec (.recClear e sig) s = .next ((u.countToken (Entry.body e)).recClear o (Entry.body e)) :=
      congrArg Host.Outcome.next (command_withToken_of_pass (run := fun o s => s.recClear o (Entry.body e)) taken sized passes)
    obtain ⟨h, rfl⟩ := accepts_host taken
    refine ⟨fun window => ?_,
      fun outside => ran.trans (congrArg _ (recClear_of_outside (s := ({ s with host := h } : State).countToken (Entry.body e)) named cleared outside))⟩
    obtain ⟨c, r, hc, hr, kept⟩ := recClear_of_window (s := ({ s with host := h } : State).countToken (Entry.body e)) (o := o) named cleared window
    exact ⟨c, r, hc, hr, ran.trans (congrArg _ kept)⟩
  · have same := applyBatch_same idle
    obtain ⟨items, -, -, -, -⟩ := applyBatch_waits waits
    obtain ⟨seq, -, front⟩ := applyBatch_seq waits
    have touched := apply_item { s.recorder with pending := rest } batch
    refine ⟨_, exec_recorderBatch running up idle, seq, front, fun n other => ?_, fun n named known => ?_, same.lanes rfl, same.platen rfl, same.field rfl⟩
    · rw [item_congr items, (touched n).1 other]
      rfl
    · rw [item_congr items, (touched n).2 named known]
  · have untouched := (answerOut_same ({ s with recorder := s.recorder.finishClear c } : State) c.answer .done 0 (leBytes 8 c.c))
    refine ⟨if_neg fun h => by simp [clearing] at h, _, _, exec_recorderClearComplete running up clearing, rfl, rfl, rfl, rfl, rfl, rfl,
      fun n other => finishClear_item s.recorder c other, fun newest => finishClear_zero s.recorder c newest, ?_, ?_⟩
    · exact (raise_life ..).trans (untouched.life rfl)
    · exact (raise_req ..).trans (untouched.req rfl)

end Sys2Proof.Laws
end

section
/-! The power and reset supervisor (chapter 20): what stops when the dies enter reset, what starts them again, and what supply, hold-up and
temperature report. -/

namespace Sys2Proof.Laws

open Sys2Proof Sys2Proof.Machine

theorem port_map_get {α β : Type} (f : α → β) (t : Quad α) (p : PortId) : (t.map f).get p = f (t.get p) := by cases p <;> rfl

/-! ### Supply, hold-up, temperature (R392, R394, R399, R406) -/

section
variable {s : State}

theorem holdupLow_of_held (held : s.power.resetHeld = true) (mv : Nat) : s.holdupLow mv = { s with power :=
    { s.power with holdupOk := false, holdupMv := mv, islandValid := false, resetStuck := false } } := by
  unfold State.holdupLow
  exact if_pos held

theorem holdupLow_of_running (running : s.power.running = true) (free : s.power.resetHeld = false) (ok : s.power.holdupOk = true) (mv : Nat) :
    s.holdupLow mv = (({ s with power := { s.power with holdupOk := false, holdupMv := mv } } : State).raiseWith evHoldupLow (leBytes 4 mv)
      [recKeep 0x0A01 mv []]) := by
  unfold State.holdupLow
  exact (if_neg (by simp [free])).trans (if_pos ⟨running, ok⟩)

end

/-- Settles O20: each row acts under its condition; the two cases of a low hold-up have a lemma each. -/
theorem supplyHoldupTemperature : Obligations.SupplyHoldupTemperature := by
  intro s mv die c powered
  refine ⟨fun running outside => if_pos ⟨running, outside⟩, fun running hot => if_pos ⟨running, hot⟩, if_pos powered,
    fun running free ok => ?_, fun held => ?_, fun held => if_pos ⟨powered, held⟩⟩
  · exact (if_pos powered).trans (congrArg _ (holdupLow_of_running running free ok mv))
  · exact (if_pos powered).trans (congrArg _ (holdupLow_of_held held mv))

/-! ### The dies in reset (R393, R398) -/

/-- What a reset of the dies leaves of power: nothing runs, and the off time counts. -/
theorem diesReset_power (s : State) : s.diesReset.power = { s.power with running := false, offCounting := true } := by
  unfold State.diesReset State.stopAll State.stopVital
  dsimp only
  rw [(undoExchange_same s).power rfl]

/-- Every output is open, and every die that the reset reaches is still. -/
theorem diesReset_still (s : State) : s.diesReset.outputsOpen = true ∧ s.diesReset.net.mode = .stopped ∧
    (∀ p, (s.diesReset.net.ports.get p).mode = .down) ∧
    (∀ l, (s.diesReset.lanes.get l).held = true ∧ (s.diesReset.lanes.get l).gate = false ∧ (s.diesReset.lanes.get l).writing = none ∧
      (s.diesReset.lanes.get l).half0 = (s.lanes.get l).half0 ∧ (s.diesReset.lanes.get l).half1 = (s.lanes.get l).half1) ∧
    s.diesReset.crc = [] ∧ s.diesReset.host.stewardUp = false ∧ s.diesReset.host.j1Up = false := by
  have lanes (l : LaneId) : s.diesReset.lanes.get l = (s.undoExchange.lanes.get l).enterReset := map_get ..
  refine ⟨rfl, rfl, fun p => ?_, fun l => ?_, rfl, rfl, rfl⟩
  · exact congrArg Port.mode (port_map_get Port.silence _ p)
  · rw [lanes]
    exact ⟨rfl, rfl, rfl, undoExchange_halves s l⟩

/-- What a reset of the dies leaves, but for its effect on power. -/
def DiesStill (s t : State) : Prop :=
  t.outputsOpen = true ∧ t.net.mode = .stopped ∧ (∀ p, (t.net.ports.get p).mode = .down) ∧
  (∀ l, (t.lanes.get l).held = true ∧ (t.lanes.get l).gate = false ∧ (t.lanes.get l).writing = none ∧
    (t.lanes.get l).half0 = (s.lanes.get l).half0 ∧ (t.lanes.get l).half1 = (s.lanes.get l).half1) ∧
  t.crc = [] ∧ t.host.stewardUp = false ∧ t.host.j1Up = false ∧
  t.params = s.params ∧ t.life = s.life ∧ t.lifeOlder = s.lifeOlder ∧ t.update = s.update ∧ t.recorder = s.recorder ∧
  t.bridge = s.bridge ∧ t.proofs = s.proofs ∧ t.req = s.req ∧ t.xchg = s.xchg ∧ t.train = s.train ∧ t.duplex = s.duplex ∧
  t.free = s.free

theorem diesStill (s : State) (p : Power) : DiesStill s { s.diesReset with power := p } := by
  obtain ⟨outputs, net, ports, lanes, crc, steward, j1⟩ := diesReset_still s
  have same := diesReset_same s
  exact ⟨outputs, net, ports, lanes, crc, steward, j1, same.params rfl, same.life rfl, same.lifeOlder rfl, same.update rfl, same.recorder rfl,
    same.bridge rfl, same.proofs rfl, same.req rfl, same.xchg rfl, same.train rfl, same.duplex rfl, same.free rfl⟩

section
variable {s : State} (powered : s.power.powered = true)
include powered

theorem exec_powerFail (running : s.power.running = true) : exec .powerFail s = .next { s.diesReset with power :=
    { s.power with running := false, offCounting := true, powered := false, pfs := sat32 s.power.pfs 1 } } := by
  refine (if_pos powered).trans (congrArg Host.Outcome.next ?_)
  unfold State.powerFail State.updPower
  rw [if_pos running]
  dsimp only
  rw [diesReset_power]

theorem exec_reset (free : s.power.resetHeld = false) : exec .reset s = .next { s.diesReset with power :=
    { s.power with running := false, offCounting := true, resetHeld := true, laneHeld := .all false, resets := sat32 s.power.resets 1 } } := by
  refine (if_neg (by simp [free])).trans ((if_pos powered).trans (congrArg Host.Outcome.next ?_))
  unfold State.acceptReset State.updPower
  rw [diesReset_power]

end

/-- Settles O19: both rows reset the dies, and write power beside it. -/
theorem diesEnterReset : Obligations.DiesEnterReset := by
  intro s running powered free
  refine ⟨⟨_, exec_powerFail powered running, rfl, rfl, free⟩, ⟨_, exec_reset powered free, powered, rfl, rfl⟩, fun c t row ran => ?_⟩
  obtain ⟨p, stopped, off, rfl⟩ : ∃ p : Power, p.running = false ∧ p.offCounting = true ∧ t = { s.diesReset with power := p } := by
    rcases row with rfl | rfl
    · cases ran.symm.trans (exec_powerFail powered running); exact ⟨_, rfl, rfl, rfl⟩
    · cases ran.symm.trans (exec_reset powered free); exact ⟨_, rfl, rfl, rfl⟩
  exact ⟨stopped, off, diesStill s p⟩

/-! ### The start (R395, R396, R398, R399) -/

/-- Settles O21: both rows are a start of the module, which `start_begun` describes. -/
theorem powerUpAndReleaseStart : Obligations.PowerUpAndReleaseStart := by
  intro s f passes
  refine ⟨fun off free => ?_, fun powered held => ?_⟩
  · obtain ⟨started, powerups, vs, empty, told⟩ := start_begun
      (s.updPower (fun p => { p with powerups := sat32 p.powerups 1, vsMv := f.vsMv })) f 0x01 true passes
    obtain ⟨sessions, outstanding, contexts⟩ := empty rfl
    exact ⟨_, (if_neg (by simp [off])).trans (if_neg (by simp [free])), started_congr started rfl rfl, powerups, vs, sessions, outstanding, contexts,
      fun unsealed safe => told safe unsealed⟩
  · obtain ⟨started, -, -, empty, told⟩ := start_begun s f (if s.power.resetStuck then 0x04 else 0x02) true passes
    obtain ⟨sessions, outstanding, contexts⟩ := empty rfl
    exact ⟨_, (if_pos held).trans (if_pos powered), started, sessions, outstanding, contexts, fun unsealed safe => told safe unsealed⟩

end Sys2Proof.Laws
end

section
/-! Clocks and rails (R9, R401, R403, R404): what the fault of each island stops, the return of the network clock, and crossings that time
out. -/

namespace Sys2Proof.Laws

open Sys2Proof Sys2Proof.Machine

/-! ### A lane that goes into reset (R9, R401, log 57) -/

section
variable {s : State} {f : Forme}

theorem laneLost_of_waiting (left : s.lanesIn ≠ []) (waiting : s.platen.cycleOpen = false ∨ s.platen.complete = true ∨
    ∃ k, s.laneIn k = true ∧ (s.platen.copies.get k).voted = none) : s.laneLost = s := by
  unfold State.laneLost
  split
  · rfl
  · next f _ =>
    rw [if_neg (by simpa using left)]
    rcases waiting with closed | complete | ⟨k, inService, missing⟩
    · exact if_neg (by simp [closed])
    · exact if_neg (by simp [complete])
    · exact endVote_of_missing inService missing

variable (formed : s.forme = some f)
include formed

theorem laneLost_of_all_voted (left : s.lanesIn ≠ []) (cycleOpen : s.platen.cycleOpen = true) (running : s.platen.complete = false)
    (all : ∀ k, s.laneIn k = true → (s.platen.copies.get k).voted.isSome = true) : s.laneLost = s.noteVoted.finishVote f := by
  unfold State.laneLost
  rw [formed]
  exact (if_neg (by simpa using left)).trans (endVote_of_all cycleOpen running all)

theorem laneLost_of_last (none' : s.lanesIn = []) : ∃ cause, s.laneLost = s.enterSafe cause := by
  unfold State.laneLost
  rw [formed]
  exact ⟨_, if_pos (by simp [none'])⟩

end

/-- A lane in reset is out of service. -/
theorem laneIn_of_reset (s : State) (l : LaneId) : ({ s with lanes := s.lanes.set l (s.lanes.get l).enterReset } : State).laneIn l = false := by
  unfold State.laneIn
  rw [get_set_self]
  show (match s.platen.lanes.get l with | .inService _ => !true | _ => false) = false
  split <;> rfl

/-! ### The other islands (Table 20-5) -/

section
variable {s : State} (running : s.power.running = true)
include running

theorem exec_clockFault (i : Island) : exec (.clockFault i) s = .next (s.clockFault i) := if_pos running

theorem exec_laneRailFault (l : LaneId) :
    exec (.laneRailFault l) s = .next ({ s with lanes := s.lanes.set l (s.lanes.get l).enterReset } : State).laneLost :=
  congrArg Host.Outcome.next (if_pos running)

/-- A fault of a lane's clock is that of its rail, and raises the event of its island. -/
theorem exec_clockFault_lane {i : Island} {l : LaneId} (island : (i = .laneA ∧ l = .a) ∨ (i = .laneB ∧ l = .b) ∨ (i = .laneC ∧ l = .c)) :
    exec (.clockFault i) s =
      .next (({ s with lanes := s.lanes.set l (s.lanes.get l).enterReset } : State).laneLost.raise evClockFault (leBytes 1 i.code)) := by
  have held : s.holdLane l = ({ s with lanes := s.lanes.set l (s.lanes.get l).enterReset } : State).laneLost := if_pos running
  rw [exec_clockFault running, ← held]
  rcases island with ⟨rfl, rfl⟩ | ⟨rfl, rfl⟩ | ⟨rfl, rfl⟩ <;> rfl

theorem exec_clockFault_rx {i : Island} {p : PortId}
    (island : (i = .rxXE ∧ p = .xe) ∨ (i = .rxXW ∧ p = .xw) ∨ (i = .rxYE ∧ p = .ye) ∨ (i = .rxYW ∧ p = .yw)) :
    exec (.clockFault i) s = .next (s.rxClockLost p) := by
  rw [exec_clockFault running]
  rcases island with ⟨rfl, rfl⟩ | ⟨rfl, rfl⟩ | ⟨rfl, rfl⟩ | ⟨rfl, rfl⟩ <;> rfl

/-- A fault of the field side's clock ends the field link where it stood. -/
theorem exec_clockFault_field : ∃ t : State, exec (.clockFault .fieldSide) s = .next (t.raise evClockFault [0x0C]) ∧ t.lanes = s.lanes ∧
    t.net = s.net ∧ (s.field.link = true → t.field = { s.field with link := false, permits := [], uoOn := [], sealed := [] }) ∧
    (s.field.link = false → t = s) := by
  refine ⟨if s.fieldOn then s.loseField else s, exec_clockFault running _, ?_⟩
  by_cases link : s.field.link = true
  · have on : s.fieldOn = true := by unfold State.fieldOn; rw [running, link]; rfl
    rw [if_pos on]
    exact ⟨(loseField_same s).lanes rfl, (loseField_same s).net rfl, fun _ => raise_field .., fun off => by simp [link] at off⟩
  · have off : ¬ s.fieldOn = true := by unfold State.fieldOn; simp [link]
    rw [if_neg off]
    exact ⟨rfl, rfl, fun on => absurd on link, fun _ => rfl⟩

/-- A fault of the maintenance Ethernet's clock takes the jack down, and closes the sessions over it. -/
theorem exec_clockFault_maintEth : ∃ t : State, exec (.clockFault .maintEth) s = .next (t.raise evClockFault [0x0B]) ∧
    t.host.j1Up = false ∧ t.lanes = s.lanes ∧ t.net = s.net := by
  have same := closeSessions_same ({ s with host := { s.host with j1Up := false } } : State) (·.udp)
  exact ⟨_, exec_clockFault running _, (closeFold_sessions _ _).2.1, same.lanes rfl, same.net rfl⟩

end

theorem rxClockLost_of_down {s : State} {p : PortId} (down : (s.net.ports.get p).mode = .down) : s.rxClockLost p = s := by
  unfold State.rxClockLost; rw [down]

theorem rxClockLost_of_up {s : State} {p : PortId} (up : (s.net.ports.get p).mode = .up) : s.rxClockLost p = s.linkLost p 0 := by
  unfold State.rxClockLost; rw [up]; rfl

theorem rxClockLost_of_starting {s : State} {p : PortId} (starting : (s.net.ports.get p).mode = .negotiating ∨ (s.net.ports.get p).mode = .qualifying) :
    s.rxClockLost p = s.setPort p (fun q => { q with mode := .down }) := by
  unfold State.rxClockLost
  rcases starting with mode | mode <;> rw [mode]

/-- Settles O23: the lanes' islands by what the lost lane leaves, the receive islands by the mode of their port, the others one by one. -/
theorem clockAndRailFaults : Obligations.ClockAndRailFaults := by
  intro s l p running
  refine ⟨⟨_, _, rfl, fun i island => exec_clockFault_lane running island, exec_laneRailFault running l, laneIn_of_reset s l, ?_,
      laneLost_of_waiting, fun f formed left cycleOpen voting all => laneLost_of_all_voted formed left cycleOpen voting all,
      fun f formed last => laneLost_of_last formed last⟩,
    exec_clockFault running _, exec_clockFault running _,
    ⟨s.loseNetClock, exec_clockFault running _, rfl, rfl, fun q => congrArg Port.mode (port_map_get Port.silence _ q), rfl, rfl, rfl⟩,
    exec_clockFault_field running, exec_clockFault running _, exec_clockFault running _, exec_clockFault_maintEth running,
    fun i island => ⟨fun up => ?_, fun down => ?_, fun starting => ?_⟩⟩
  · rw [get_set_self]; rfl
  · rw [exec_clockFault_rx running island, rxClockLost_of_up up]
  · rw [exec_clockFault_rx running island, rxClockLost_of_down down]
  · rw [exec_clockFault_rx running island, rxClockLost_of_starting starting]

/-- Settles O24: the clock's return writes power and network alone; a crossing is lost first, and then its time-out is counted and raised. -/
theorem networkClockAndCrossings : Obligations.NetworkClockAndCrossings := by
  intro s i l w n running
  refine ⟨fun down => ⟨s.netClockBack, if_pos ⟨running, down⟩, rfl, rfl, rfl, rfl, rfl, rfl, rfl, rfl⟩, fun x u crossing => ⟨_, _, rfl, rfl, ?_⟩⟩
  have lost : exec (.cdcTimeout i x) s = .next ((s.crossingLost x).crossingTimeout i) := if_pos running
  rw [lost]
  rcases crossing with ⟨rfl, rfl⟩ | ⟨q, rfl, rfl⟩ | ⟨rfl, rfl⟩ | ⟨rfl, rfl⟩ <;> rfl

end Sys2Proof.Laws
end

section
/-! Proofs (R372 to R378): when a lane is isolated, how a reading is judged, the rejoin, and the user's proofs. -/

namespace Sys2Proof.Laws

open Sys2Proof Sys2Proof.Machine

/-! ### The judgement of a reading (R34, R372, R373) -/

theorem engineOk_iff (r : ProofReading) : engineOk r = true ↔
    (0x30 ≤ r.block → r.block ≤ 0x37 → r.checks = [0xE3069283, 0xCBF43926, 0x29B1, 0x995DC9BBDF1939FA]) := by
  unfold engineOk crcChecks
  simp only [Bool.or_eq_true, Bool.not_eq_true', Bool.and_eq_false_iff, decide_eq_false_iff_not, beq_iff_eq]
  tauto

/-- The verdict is 0 where signature, engine, count, end seal and time are right. -/
theorem verdict_eq_zero_iff (r : ProofReading) (late : Bool) : ProofReading.verdict r late = 0 ↔ r.signature = r.wanted ∧
    (0x30 ≤ r.block → r.block ≤ 0x37 → r.checks = [0xE3069283, 0xCBF43926, 0x29B1, 0x995DC9BBDF1939FA]) ∧ r.applied = r.expected ∧
    r.endSeal.toNat = crc32c (leBytes 2 r.block ++ leBytes 4 r.applied ++ leBytes 8 r.signature.toNat) ∧ late = false := by
  unfold ProofReading.verdict proofSeal
  rw [ofMembers4, ← engineOk_iff]
  simp only [Bool.or_eq_false_iff, bne_eq_false_iff_eq, Bool.not_eq_false', and_assoc]
  exact and_congr_right fun _ => and_congr_right fun _ => and_congr_right fun _ => and_congr_left fun _ => eq_comm

/-- A proof that runs ends with the reading of its block, in time or late. -/
theorem exec_proofEnd {s : State} {r : ProofReading} {k : Nat} {late : Bool} {c : Instr} (running : s.power.running = true)
    (proof : s.proofs.running = some (r.block, k)) (row : (late = false ∧ c = .proofComplete r) ∨ (late = true ∧ c = .proofTimeout r)) :
    exec c s = .next (s.endProof r k late) := by
  have kind : s.proofOf r = some k := by
    unfold State.proofOf
    rw [proof]
    exact if_pos ⟨running, rfl⟩
  rcases row with ⟨rfl, rfl⟩ | ⟨rfl, rfl⟩
  · show execProofComplete r s = _
    unfold execProofComplete; rw [kind]
  · show execProofTimeout r s = _
    unfold execProofTimeout; rw [kind]

theorem exec_laneIsolation {s : State} {l : LaneId} {k : Nat} (requested : s.proofs.requested = some (l, k)) :
    exec .laneIsolation s = .next (if s.isolationOk then s.isolate l k else s) := by
  show execLaneIsolation s = _
  unfold execLaneIsolation
  rw [requested]
  dsimp only
  split <;> rfl

/-- Settles O35: the conditions of the isolation are `isolationOk_iff`, its effect `isolate_eq`, and the end of a proof `endProof_proofs`. -/
theorem proofsRunAndAreJudged : Obligations.ProofsRunAndAreJudged := by
  intro s running
  refine ⟨fun up operation due free => ⟨_, if_pos ⟨running, up, operation, due, by simp [free]⟩, rfl, rfl⟩, fun l requested => ?_,
    fun l k requested => ⟨isolationOk_iff running, fun barred => ?_, fun ok => ?_⟩, fun r k proof late c row => ?_⟩
  · show execProofDeferred s = _
    unfold execProofDeferred
    rw [requested]
    exact if_pos running
  · rw [exec_laneIsolation requested, if_neg (by simp [barred])]
  · obtain ⟨u, isolated, lanes, platen, proofs, field, net, host, life⟩ := isolate_eq s l k
    refine ⟨u, _, (exec_laneIsolation requested).trans (congrArg _ (if_pos ok)), isolated, ?_, ?_, ?_, fun m other => ?_, platen, ?_, ?_,
      fun two => ?_, fun other => ?_, field, net, host⟩
    · rw [lanes, get_set_self]
    · rw [lanes, get_set_self]
    · rw [lanes, get_set_self]
    · rw [lanes, get_set_ne _ _ _ _ other]
    · rw [proofs]
    · rw [proofs]
    · rw [life, proofs]; exact ⟨if_pos two, if_pos two⟩
    · rw [life, proofs]; exact ⟨if_neg other, if_neg other⟩
  · obtain ⟨ended, stored, lane⟩ := endProof_proofs s r k late
    exact ⟨_, _, exec_proofEnd running proof row, ended, stored, rfl, rfl, verdict_eq_zero_iff r late, rfl, lane⟩

/-! ### The rejoin (R377) -/

/-- What a transfer into a lane leaves: the platen and the lanes but for that lane, whose checkpoint halves and slots stay. -/
theorem rejoin_facts {s : State} {l p q : LaneId} (two : s.lanesIn = [p, q]) : ∃ st m,
    (s.rejoin l).lanes = s.lanes.set l st ∧ (s.rejoin l).platen = { s.platen with lanes := s.platen.lanes.set l m } ∧
    (s.rejoin l).net = s.net ∧ (s.rejoin l).proofs.rejoin = none ∧
    st.half0 = (s.lanes.get l).half0 ∧ st.half1 = (s.lanes.get l).half1 ∧ st.slot0 = (s.lanes.get l).slot0 ∧ st.slot1 = (s.lanes.get l).slot1 ∧
    ((rejoinCore l p q (s.lanes.get p).core (s.lanes.get q).core s.net.count).isSome = true → m = .inService 0 ∧ st.held = false ∧ st.gate = true) ∧
    (rejoinCore l p q (s.lanes.get p).core (s.lanes.get q).core s.net.count = none → m = .excluded ∧ st.held = true) := by
  have two' : ({ s with proofs := { s.proofs with rejoin := none } } : State).lanesIn = [p, q] := two
  unfold State.rejoin
  dsimp only
  rw [two']
  dsimp only
  split
  · next c agreed =>
    refine ⟨{ (s.lanes.get l).begin true c false with half0 := (s.lanes.get l).half0, half1 := (s.lanes.get l).half1 }, .inService 0, ?_, ?_, ?_, ?_,
      rfl, rfl, rfl, rfl, fun _ => ⟨rfl, rfl, rfl⟩, fun none' => by simp [none'] at agreed⟩
    · rw [raise_lanes]; rfl
    · rw [raise_platen]; rfl
    · rw [raise_net]; rfl
    · rw [raise_proofs]; rfl
  · next differ =>
    refine ⟨{ s.lanes.get l with held := true, gate := false, writing := none }, .excluded, ?_, ?_, ?_, ?_, rfl, rfl, rfl, rfl, fun some' => by simp [differ] at some', fun _ => ⟨rfl, rfl⟩⟩
    · unfold State.exclude; dsimp only; rw [raiseWith_lanes]; rfl
    · unfold State.exclude; dsimp only; rw [raiseWith_platen]; rfl
    · unfold State.exclude; dsimp only; rw [raiseWith_net]; rfl
    · unfold State.exclude; dsimp only; rw [raiseWith_proofs]; rfl

/-- The rejoin strobe transfers into the lane, and runs the cycle of the forme on what that leaves. -/
theorem exec_laneRejoin {s : State} {l p q : LaneId} {x : Sample} {y : Xchg} (can : s.canStrobe = true) (follows : s.followTarget = { s with xchg := y })
    (due : s.rejoinDue = some l) (two : s.lanesIn = [p, q]) :
    ∃ f, exec (.laneRejoin x) s = .next (((opened s y true).rejoin l).runCycle f x [] true s.cycleLength) := by
  have two' : (opened s y true).lanesIn = [p, q] :=
    (List.filter_congr fun k _ => opened_laneIn s y true k).trans two
  obtain ⟨st, m, lanes, platen, -, -, -, -, slot0, slot1, -, -⟩ := rejoin_facts (l := l) two'
  have formed : ((opened s y true).rejoin l).forme.isSome = true := by
    obtain ⟨g, before⟩ := forme_of_canStrobe can
    obtain ⟨runs, k, holds⟩ := (forme_isSome s).1 (Option.isSome_iff_exists.2 ⟨g, before⟩)
    refine (forme_isSome _).2 ⟨by unfold State.runsNothing; rw [platen]; exact runs, k, ?_⟩
    by_cases same : k = l
    · subst same
      rw [lanes, get_set_self]
      unfold LaneState.forme at holds ⊢
      rw [slot0, slot1, opened_lane]
      exact holds
    · rw [lanes, get_set_ne _ _ _ _ same, opened_lane]
      exact holds
  obtain ⟨f, formed⟩ := Option.isSome_iff_exists.1 formed
  refine ⟨f, ?_⟩
  show execLaneRejoin x s = _
  unfold execLaneRejoin
  rw [due]
  dsimp only
  unfold opened at formed
  rw [if_pos can, follows]
  unfold State.rejoinStrobe
  dsimp only
  rw [formed]
  rfl

/-- What the cycle of a rejoin leaves of the platen and of the lane (R377). -/
theorem laneRejoin_facts {s : State} {l p q : LaneId} {x : Sample} (can : s.canStrobe = true) (due : s.rejoinDue = some l)
    (two : s.lanesIn = [p, q]) : ∃ t : State, exec (.laneRejoin x) s = .next t ∧ t.platen.lengthened = true ∧ t.platen.cycleOpen = true ∧
      t.net.count = s.net.strobeCount ∧ t.proofs.rejoin = none ∧
      (t.lanes.get l).half0 = (s.lanes.get l).half0 ∧ (t.lanes.get l).half1 = (s.lanes.get l).half1 ∧
      ((rejoinCore l p q (s.lanes.get p).core (s.lanes.get q).core s.net.strobeCount).isSome = true → t.platen.lanes.get l = .inService 0 ∧
        (t.lanes.get l).held = false ∧ (t.lanes.get l).gate = true) ∧
      (rejoinCore l p q (s.lanes.get p).core (s.lanes.get q).core s.net.strobeCount = none → t.platen.lanes.get l = .excluded ∧
        (t.lanes.get l).held = true) := by
  obtain ⟨y, follows⟩ := followTarget_alone s
  obtain ⟨f, run⟩ := exec_laneRejoin (x := x) can follows due two
  have two' : (opened s y true).lanesIn = [p, q] :=
    (List.filter_congr fun k _ => opened_laneIn s y true k).trans two
  obtain ⟨st, m, lanes, platen, net, rejoined, half0, half1, -, -, agree, differ⟩ := rejoin_facts (l := l) two'
  rw [opened_lane, opened_lane] at agree differ
  rw [opened_lane] at half0 half1
  have same := runCycle_same ((opened s y true).rejoin l) f x [] true s.cycleLength
  obtain ⟨u, stuck, findings, fell, evaluated, kept, -, -, -, -, -⟩ := runCycle_lanes ((opened s y true).rejoin l) f x [] true s.cycleLength
  obtain ⟨-, -, -, held, gate, first, second, -⟩ := evaluateLanes_get u x stuck findings fell [] l
  have lane : u.lanes.get l = st := by rw [kept, lanes, get_set_self]
  refine ⟨_, run, ?_⟩
  rw [runCycle_platen, evaluated, same.net rfl, same.proofs rfl, held, gate, first, second, lane, platen, net, get_set_self]
  exact ⟨rfl, rfl, rfl, rejoined, half0, half1, agree, differ⟩

/-! ### `prf.run` (R378) -/

section
variable {s : State} {o : Outstanding} {b : Nat}

theorem prfRun_of_life (barred : s.life.state = .operation ∨ s.life.state = .retired) : s.prfRun o b = s.answer o .state 0 [] := if_pos barred

theorem blockFixed_iff (b : Nat) : blockFixed b = true ↔ b ∈ [0x18, 0x24, 0x39, 0x40] := by
  unfold blockFixed
  simp [or_assoc]

theorem blockFixed_of_lane {l : LaneId} (lane : blockLane b = some l) : blockFixed b = false := by
  unfold blockLane at lane
  split at lane
  · next range =>
    rw [Bool.eq_false_iff, ne_eq, blockFixed_iff]
    simp only [List.mem_cons, List.not_mem_nil, or_false]
    omega
  · cases lane

variable (serves : ¬ (s.life.state = .operation ∨ s.life.state = .retired)) (known : isBlock b = true)
include serves known

theorem prfRun_of_busy (busy : s.proofs.busy = true) : s.prfRun o b = s.answer o .busy 0 [] :=
  (if_neg serves).trans ((if_neg (by simp [known])).trans (if_pos busy))

variable (free : s.proofs.busy = false)
include free

theorem prfRun_of_free : s.prfRun o b = if s.forme.isSome ∧ blockFixed b then s.answer o .state 0 []
    else match blockLane b with
      | some l => if s.forme.isSome then ({ s with proofs := { s.proofs with requested := some (l, 3) } } : State).answer o .done 0 (leBytes 2 b)
        else (s.startProof b).answer o .done 0 (leBytes 2 b)
      | none => (s.startProof b).answer o .done 0 (leBytes 2 b) :=
  (if_neg serves).trans ((if_neg (by simp [known])).trans (if_neg (by simp [free])))

theorem prfRun_of_fixed (formed : s.forme.isSome = true) (fixed : b ∈ [0x18, 0x24, 0x39, 0x40]) : s.prfRun o b = s.answer o .state 0 [] :=
  (prfRun_of_free serves known free).trans (if_pos ⟨formed, (blockFixed_iff b).2 fixed⟩)

theorem prfRun_of_lane (formed : s.forme.isSome = true) {l : LaneId} (lane : blockLane b = some l) :
    s.prfRun o b = ({ s with proofs := { s.proofs with requested := some (l, 3) } } : State).answer o .done 0 (leBytes 2 b) := by
  rw [prfRun_of_free serves known free, if_neg (by simp [blockFixed_of_lane lane]), lane]
  exact if_pos formed

/-- Every other block starts its proof at once. -/
theorem prfRun_starts (alone : s.forme = none ∨ (blockLane b = none ∧ b ∉ [0x18, 0x24, 0x39, 0x40])) :
    s.prfRun o b = (s.startProof b).answer o .done 0 (leBytes 2 b) := by
  rw [prfRun_of_free serves known free]
  rcases alone with none' | ⟨noLane, notFixed⟩
  · rw [if_neg (by simp [none'])]
    split
    · exact if_neg (by simp [none'])
    · rfl
  · rw [if_neg (fun h => notFixed ((blockFixed_iff b).1 h.2)), noLane]

end

theorem barBank_blocks (s : State) (k : Nat) : (s.barBank k).bankBlocked k = true := by
  unfold State.barBank State.bankBlocked
  split
  · simpa using mem_insertOnce_self _ _
  · simp only [List.any_eq_true]
    exact ⟨.a, by decide, by simpa [map_get] using mem_insertOnce_self _ _⟩

theorem holdPort_holds (s : State) (p : PortId) : ((s.holdPort p).net.ports.get p).heldDown = true ∧ ((s.holdPort p).net.ports.get p).mode = .down := by
  unfold State.holdPort State.setPort
  dsimp only
  rw [port_get_upd_self]
  exact ⟨rfl, rfl⟩

/-- What a user's proof that starts leaves: the proof runs, with a bank blocked and a port held down while a forme runs. -/
theorem startProof_facts (s : State) (b : Nat) : (s.startProof b).proofs.running = some (b, 3) ∧
    (s.forme = none → (s.startProof b).field = s.field ∧ (s.startProof b).lanes = s.lanes ∧ (s.startProof b).net = s.net) ∧
    (∀ k, s.forme.isSome = true → blockBank b = some k → (s.startProof b).bankBlocked k = true) ∧
    (∀ p, s.forme.isSome = true → blockPort b = some p →
      ((s.startProof b).net.ports.get p).heldDown = true ∧ ((s.startProof b).net.ports.get p).mode = .down) := by
  have blocked (t : State) (num : Nat) (payload : List Byte) (k : Nat) : (t.raise num payload).bankBlocked k = t.bankBlocked k := by
    unfold State.bankBlocked
    rw [raise_field, raise_lanes]
  refine ⟨?_, fun none' => ?_, fun k formed bank => ?_, fun p formed port => ?_⟩
  · unfold State.startProof
    dsimp only
    rw [raise_proofs]
  · unfold State.startProof
    dsimp only
    rw [raise_field, raise_lanes, raise_net, none']
    exact ⟨rfl, rfl, rfl⟩
  · unfold State.startProof
    dsimp only
    rw [blocked, if_pos formed, bank]
    exact barBank_blocks s k
  · have noBank : blockBank b = none := by
      unfold blockPort at port
      split at port <;> first | rfl | cases port
    unfold State.startProof
    dsimp only
    rw [raise_net, if_pos formed, noBank, port]
    exact holdPort_holds s p

section
variable {s u : State} {o : Outstanding} {e : Entry} (taken : s.accepts 0x1401 true true e u o) (sized : Entry.size e 4 = true)
include taken sized

theorem exec_prfRun : exec (.prfRun e) s = .next (u.prfRun o (Entry.field e 0 2)) :=
  congrArg Host.Outcome.next ((command_accepts taken _).trans (if_pos sized))

end

theorem exec_prfResult {s u : State} {o : Outstanding} {e : Entry} (taken : s.accepts 0x1402 false true e u o) (sized : Entry.size e 4 = true)
    (known : isBlock (Entry.field e 0 2) = true) : exec (.prfResult e) s = .next (u.answer o .done 0 (u.proofs.recordsOf (Entry.field e 0 2))) :=
  congrArg Host.Outcome.next ((command_accepts taken _).trans ((if_neg (by simp [sized])).trans (if_pos known)))

/-- Settles O36: the rejoin by `laneRejoin_facts`, `prf.run` by the branches of its decision. -/
theorem userProofsAndRejoin : Obligations.UserProofsAndRejoin := by
  intro s e x
  refine ⟨fun l p q f can due two _ => laneRejoin_facts can due two, fun u o b taken sized hb => ?_, fun u o b taken sized hb known => ?_⟩
  · subst hb
    have ran := exec_prfRun taken sized
    obtain ⟨h, rfl⟩ := accepts_host taken
    refine ⟨fun barred => ran.trans (congrArg _ (prfRun_of_life barred)), fun notOp notRet known => ?_⟩
    have serves : ¬ (s.life.state = .operation ∨ s.life.state = .retired) := not_or.2 ⟨notOp, notRet⟩
    refine ⟨fun busy => ran.trans (congrArg _ (prfRun_of_busy serves known busy)),
      fun free formed fixed => ran.trans (congrArg _ (prfRun_of_fixed serves known free formed fixed)),
      fun free formed l lane => ⟨_, rfl, ran.trans (congrArg _ (prfRun_of_lane (s := { s with host := h }) serves known free formed lane))⟩,
      fun free alone => ⟨_, ran.trans (congrArg _ (prfRun_starts serves known free alone)), startProof_facts _ _⟩⟩
  · subst hb
    have ran := exec_prfResult taken sized known
    obtain ⟨h, rfl⟩ := accepts_host taken
    exact ran

end Sys2Proof.Laws
end

section
/-! Links (R229 to R231) and the network commands (R258): what a qualification reads, the judgement it ends in, and how `net.start`
begins the network. Settles O39 and O42. -/

namespace Sys2Proof.Laws
open Sys2Proof Sys2Proof.Machine

/-! ### What the frame of an operation says of the forme -/

section
variable {k : Nat} {s t : State}

theorem same_forme (same : Same k s t) (lanes : k.testBit 2 = false) (platen : k.testBit 3 = false) : t.forme = s.forme := by
  refine forme_congr (by rw [same.platen platen]) ?_ fun l => by rw [same.lanes lanes]; exact ⟨rfl, rfl⟩
  unfold State.runsNothing
  rw [same.platen platen]

theorem isTrain_congr (formed : t.forme = s.forme) : t.isTrain = s.isTrain := by
  unfold State.isTrain State.personality
  rw [formed]

end

/-! ### What a qualification reads -/

/-- The state in which a qualification is judged: NET.QUAL_ERR_MAX in use, its frame sent, the latency stored (R230, R260). -/
def qualified (s : State) (p : PortId) (q : QualResult) : State :=
  (((s.takeQualMax.emit p (s.takeQualMax.qualFrame p) false).notAdmitted q.bypass).setPort p
    (fun r => { r with latency := qualLatency q })).recordBatch [recKeep (0x0601 + p.num) (qualLatency q) []]

section
variable (s : State) (p : PortId) (q : QualResult)

theorem notAdmitted_net (s : State) (id : Nat) : ∃ n, (s.notAdmitted id).net = { s.net with notAdmitted := n } := by
  unfold State.notAdmitted
  split
  · exact ⟨s.net.notAdmitted, rfl⟩
  · exact ⟨id, raiseWith_net ..⟩

theorem qualified_net : ∃ l n, (qualified s p q).net = 
    { s.net with sent := l, notAdmitted := n, ports := s.net.ports.upd p (fun r => { r with latency := qualLatency q }) } := by
  obtain ⟨n, admitted⟩ := notAdmitted_net (s.takeQualMax.emit p (s.takeQualMax.qualFrame p) false) q.bypass
  refine ⟨(s.takeQualMax.emit p (s.takeQualMax.qualFrame p) false).net.sent, n, ?_⟩
  unfold qualified State.setPort
  rw [recordBatch_net, admitted]
  rfl

theorem qualified_rest : Same 0x40120 s.takeQualMax (qualified s p q) :=
  (((emit_same ..).mono rfl).chain (notAdmitted_same ..) rfl |>.chain (setPort_same ..) rfl).chain (recordBatch_same ..) rfl

theorem qualified_forme : (qualified s p q).forme = s.forme :=
  (same_forme (qualified_rest s p q) rfl rfl).trans (same_forme (takeQualMax_same s) rfl rfl)

theorem qualified_inUse (id : Nat) : (qualified s p q).inUse id = s.takeQualMax.inUse id := by
  unfold State.inUse State.cell
  rw [(qualified_rest s p q).params rfl]

theorem qualified_neighbourOk : (qualified s p q).neighbourOk p q = s.neighbourOk p q := by
  obtain ⟨l, n, net⟩ := qualified_net s p q
  unfold State.neighbourOk Net.position
  rw [net, isTrain_congr (qualified_forme s p q)]

theorem qualified_latencyOk (latency : Nat) : (qualified s p q).latencyOk latency = s.latencyOk latency := by
  obtain ⟨l, n, net⟩ := qualified_net s p q
  unfold State.latencyOk State.formeFits Net.position
  rw [net, isTrain_congr (qualified_forme s p q), qualified_forme]

end

/-! ### The judgement -/

section
variable {s : State} {p : PortId} {q : QualResult}

/-- A qualification ends as the neighbour, the errors and the latency say. -/
theorem qualify_eq (s : State) (p : PortId) (q : QualResult) : s.qualify p q =
    if s.neighbourOk p q = false then
      ((qualified s p q).setPort p (fun r => { r with mode := .down })).raise evLinkDown (leBytes 1 p.num ++ leBytes 1 causeNeighbour)
    else if q.codeErrors + q.prbsErrors ≤ s.takeQualMax.inUse 0x0C04 ∧ q.stamps ≠ [] ∧ s.latencyOk (qualLatency q) = true then
      (((qualified s p q).setPort p (fun r => { r with mode := .up, joined := false })).raise evLinkUp (leBytes 1 p.num)).tryListen
    else (qualified s p q).setPort p (fun r => { r with mode := .down }) := by
  rw [← qualified_neighbourOk s p q, ← qualified_inUse s p q, ← qualified_latencyOk s p q]
  unfold State.qualify
  simp only [Bool.not_eq_eq_eq_not, Bool.not_true, List.isEmpty_eq_false_iff]
  rfl

theorem tryListen_ports (s : State) : s.tryListen.net.ports = s.net.ports := by
  unfold State.tryListen
  split <;> rfl

theorem qualified_port (s : State) (p : PortId) (q : QualResult) (f : Port → Port) (keeps : ∀ r : Port, (f r).latency = r.latency) :
    (((qualified s p q).setPort p f).net.ports.get p).latency = qualLatency q ∧
    ∀ r, r ≠ p → ((qualified s p q).setPort p f).net.ports.get r = s.net.ports.get r := by
  obtain ⟨l, n, net⟩ := qualified_net s p q
  have ports := congrArg Net.ports net
  dsimp only at ports
  unfold State.setPort
  dsimp only
  rw [ports]
  refine ⟨?_, fun r other => ?_⟩
  · rw [port_get_upd_self, keeps, port_get_upd_self]
  · rw [port_get_upd_ne _ _ _ _ other, port_get_upd_ne _ _ _ _ other]

theorem setPort_get (s : State) (p : PortId) (f : Port → Port) : (s.setPort p f).net.ports.get p = f (s.net.ports.get p) :=
  port_get_upd_self ..

theorem qualified_mode (s : State) (p : PortId) (q : QualResult) (f : Port → Port) : ((qualified s p q).setPort p f).net.mode = s.net.mode := by
  obtain ⟨l, n, net⟩ := qualified_net s p q
  exact (congrArg Net.mode net :)

theorem qualification_ends (on : s.netOn = true) (qualifying : (s.net.ports.get p).mode = .qualifying) :
    ∃ t : State, exec (.linkQualification p q) s = .next t ∧ (t.net.ports.get p).latency = qualLatency q ∧
      (∀ r, r ≠ p → t.net.ports.get r = s.net.ports.get r) ∧ t.platen = s.platen ∧ t.lanes = s.lanes ∧ t.field = s.field ∧
      ((t.net.ports.get p).mode = .up ↔ s.neighbourOk p q = true ∧ q.codeErrors + q.prbsErrors ≤ s.takeQualMax.inUse 0x0C04 ∧ q.stamps ≠ [] ∧
        s.latencyOk (qualLatency q) = true) ∧
      ((t.net.ports.get p).mode ≠ .up → (t.net.ports.get p).mode = .down ∧ t.net.mode = s.net.mode) ∧
      ((t.net.ports.get p).mode = .up → (t.net.ports.get p).joined = false) := by
  have same := qualify_same s p q
  refine ⟨s.qualify p q, if_pos ⟨on, qualifying⟩, ?_⟩
  rw [← and_assoc]
  refine ⟨?_, same.platen rfl, same.lanes rfl, same.field rfl, ?_⟩
  · rw [qualify_eq]
    split
    · rw [raise_net]; exact qualified_port s p q _ fun _ => rfl
    · split
      · rw [tryListen_ports, raise_net]; exact qualified_port s p q _ fun _ => rfl
      · exact qualified_port s p q _ fun _ => rfl
  · rw [qualify_eq]
    split
    case isTrue stranger =>
      rw [raise_net, setPort_get, qualified_mode]
      simp [stranger]
    case isFalse neighbour =>
      split
      case isTrue good =>
        rw [tryListen_ports, raise_net, setPort_get]
        simpa [good] using neighbour
      case isFalse bad =>
        rw [setPort_get, qualified_mode]
        simp only [reduceCtorEq, false_iff, not_and, ne_eq, not_false_eq_true, forall_true_left, false_implies, and_true]
        exact fun _ errors stamps latency => bad ⟨errors, stamps, latency⟩

/-- A link that is up goes down with its count and its event; one that comes up goes down without (R231). -/
theorem exec_linkDown (on : s.netOn = true) (cause : Nat) : exec (.linkDown p cause) s = match (s.net.ports.get p).mode with
    | .up => .next (s.linkLost p cause)
    | .down => .next s
    | _ => .next (s.setPort p (fun q => { q with mode := .down })) := if_pos on

end

/-- Settles O39: each row by the mode of its port; the qualification by the facts of its prepared state. -/
theorem linksComeUpAndGoDown : Obligations.LinksComeUpAndGoDown := by
  intro s p page q cause m on mode
  refine ⟨fun down live free => ?_, fun neg good => ?_, fun neg bad => ?_, fun qualifying => qualification_ends on (mode.trans qualifying),
    fun up => ?_, fun down => ?_, fun starting => ?_⟩
  · have starts : s.netOn ∧ s.net.mode ≠ .stopped ∧ (s.net.ports.get p).mode = .down ∧ !(s.net.ports.get p).heldDown :=
      ⟨on, live, mode.trans down, by simp [free]⟩
    exact ⟨if_pos starts, if_pos starts, rfl, rfl, rfl⟩
  · obtain ⟨accepted, full, sound⟩ := good
    refine (if_pos ⟨on, mode.trans neg⟩).trans ?_
    simp [accepted, full, sound]
  · refine (if_pos ⟨on, mode.trans neg⟩).trans ?_
    have refused : (page.accepted && page.fullDuplex && page.remoteFault == 0) = false := by
      obtain h | h | h := bad <;> simp [h]
    simp [refused]
  · refine ⟨_, _, ?_, setPort_host .., rfl, rfl⟩
    rw [exec_linkDown on, mode, up]
    rfl
  · rw [exec_linkDown on, mode, down]
  · rw [exec_linkDown on, mode]
    obtain h | h := starting <;> rw [h]

/-! ### The start of the network -/

section
variable {s u : State} {e : Entry} {o : Outstanding}

theorem failAttempt_net (s : State) (cause : Nat) : (s.failAttempt cause).net = s.net := raise_net ..

theorem takePlace_countKnown (s : State) (l : List SweepEntry) (front : Nat) : (s.takePlace l front).net.countKnown = s.net.countKnown := by
  unfold State.takePlace
  dsimp only
  split
  · rw [failAttempt_net]
  · split
    · rw [failAttempt_net]
    · rfl

theorem proposeLine_countKnown (s : State) (m : SweepMsg) : (s.proposeLine m).net.countKnown = s.net.countKnown := by
  unfold State.proposeLine
  split
  · rw [failAttempt_net]
  · exact takePlace_countKnown ..

theorem loneLine_countKnown (s : State) : s.loneLine.net.countKnown = s.net.countKnown := by
  unfold State.loneLine
  split
  · exact proposeLine_countKnown ..
  · rfl

theorem newAttempt_countKnown (s : State) (cause : Nat) (unknown : s.net.countKnown = false) : (s.newAttempt cause).net.countKnown = false := by
  unfold State.newAttempt
  split
  · exact loneLine_countKnown _
  · exact unknown

theorem tryListen_countKnown (s : State) : s.tryListen.net.countKnown = s.net.countKnown := by
  unfold State.tryListen
  split <;> rfl

theorem startNet_countKnown (s : State) : s.startNet.net.countKnown = false := by
  unfold State.startNet
  dsimp only
  split
  · exact newAttempt_countKnown _ _ rfl
  · exact tryListen_countKnown _

/-! ### The network commands -/

theorem exec_netStart (taken : s.accepts 0x0C01 true true e u o) (sized : Entry.size e 1 = true) :
    exec (.netStart e) s = .next (u.netStart o (netProfile (Entry.field e 0 1))) :=
  congrArg Host.Outcome.next ((command_accepts taken _).trans (if_pos sized))

/-- The profile is stored before the network starts (R258). -/
def profileStored (s : State) (profile : Nat) : State :=
  match profileCycle profile with
  | some ns => (s.store 0x0C01 ns).store 0x0C04 0
  | none => s

theorem profileStored_same (s : State) (profile : Nat) : Same 0x200 s (profileStored s profile) := by
  unfold profileStored
  split
  · exact (store_same ..).chain (store_same ..) rfl
  · exact Same.refl ..

theorem netStart_of_stopped {s : State} (stopped : s.net.mode = .stopped) (sound : s.net.engineBad = false) (clocked : s.power.netDown = false)
    (profile : Nat) : s.netStart o profile =
      (profileStored s profile).startNet.answer o .done 0 ((profileStored s profile).startNet.netStarted profile) :=
  if_neg (by simp [stopped, sound, clocked])

theorem netStops_iff (s : State) : s.netStops = true ↔
    (s.life.state = .commissioning ∨ s.life.state = .maintenance ∨ s.platen.safe = true) ∧ s.xchg.state = .idle := by
  unfold State.netStops
  simp only [Bool.and_eq_true, Bool.or_eq_true, beq_iff_eq, or_assoc]

theorem accepts_netStops {op : Nat} {needs needsUdp : Bool} (taken : s.accepts op needs needsUdp e u o) : u.netStops = s.netStops := by
  obtain ⟨h, rfl⟩ := accepts_host taken; rfl

theorem exec_netStop (taken : s.accepts 0x0C02 true true e u o) : exec (.netStop e) s =
    .next (if !s.netStops then u.answer o .state 0 [] else u.stopNet.answer o .done 0 [0x00]) := by
  rw [← accepts_netStops taken]
  exact congrArg Host.Outcome.next (command_accepts taken _)

end

/-- Settles O42: each command by what its fetch leaves; the start by the count that no step of it sets. -/
theorem networkCommandsAnswer : Obligations.NetworkCommandsAnswer := by
  intro s u e o
  refine ⟨?_, ?_, fun taken => congrArg _ (command_accepts taken _), fun taken => congrArg _ (command_accepts taken _)⟩
  · rintro taken sized profile rfl
    rw [exec_netStart taken sized]
    obtain ⟨h, rfl⟩ := accepts_host taken
    refine ⟨fun live => congrArg _ (if_pos (Or.inl live)), fun stopped sound clocked => ?_⟩
    have same := (profileStored_same { s with host := h } (netProfile (Entry.field e 0 1))).mono (k := 0x40360) rfl
      |>.chain (startNet_same _) rfl
    exact ⟨_, _, rfl, rfl, congrArg _ (netStart_of_stopped (s := { s with host := h }) stopped sound clocked _), startNet_countKnown _,
      same.lanes rfl, same.platen rfl⟩
  · intro taken
    rw [exec_netStop taken]
    exact ⟨netStops_iff s, fun bars => by rw [bars]; rfl, fun stops => ⟨_, rfl, by rw [stops]; obtain ⟨h, rfl⟩ := accepts_host taken; rfl⟩⟩

end Sys2Proof.Laws
end

section
/-! Sessions of the host link (R317, R318, R39): authentication failures and lockout, the number that an opened session takes, the proof
of a pending session, and what a closing leaves. Settles O49. -/

namespace Sys2Proof.Laws
open Sys2Proof Sys2Proof.Machine

/-! ### Failures and the lockout (R317) -/

section
variable (h : HostLink) (udp : Bool) (run : Nat) (lock : Bool)

theorem setAuth_authRun : (h.setAuth udp run lock).authRun udp = run := by cases udp <;> rfl

theorem setAuth_locked : (h.setAuth udp run lock).locked udp = lock := by cases udp <;> rfl

theorem setAuth_authRun_other : (h.setAuth udp run lock).authRun (!udp) = h.authRun (!udp) := by cases udp <;> rfl

theorem setAuth_locked_other : (h.setAuth udp run lock).locked (!udp) = h.locked (!udp) := by cases udp <;> rfl

theorem setAuth_authFails : (h.setAuth udp run lock).authFails = h.authFails := by cases udp <;> rfl

/-- The host link after one more `AUTH` answer of a transport. -/
def failed : HostLink :=
  let g := if h.locked udp then h else h.setAuth udp (h.authRun udp + 1) (decide (5 ≤ h.authRun udp + 1))
  { g with authFails := sat32 g.authFails 1 }

theorem failed_authRun (n : Bool) : (failed h udp).authRun n =
    (if h.locked udp then h else h.setAuth udp (h.authRun udp + 1) (decide (5 ≤ h.authRun udp + 1))).authRun n := rfl

theorem failed_locked (n : Bool) : (failed h udp).locked n =
    (if h.locked udp then h else h.setAuth udp (h.authRun udp + 1) (decide (5 ≤ h.authRun udp + 1))).locked n := rfl

theorem failed_facts : (failed h udp).authFails = sat32 h.authFails 1 ∧ (failed h udp).sessions = h.sessions ∧
    (h.locked udp = false → (failed h udp).authRun udp = h.authRun udp + 1 ∧ ((failed h udp).locked udp = true ↔ 4 ≤ h.authRun udp)) ∧
    (h.locked udp = true → (failed h udp).authRun udp = h.authRun udp ∧ (failed h udp).locked udp = true) ∧
    (failed h udp).authRun (!udp) = h.authRun (!udp) ∧ (failed h udp).locked (!udp) = h.locked (!udp) := by
  simp only [failed_authRun, failed_locked]
  unfold failed
  by_cases locked : h.locked udp = true
  · simp [locked]
  · have five : 5 ≤ h.authRun udp + 1 ↔ 4 ≤ h.authRun udp := by omega
    simp [locked, five, setAuth_authRun, setAuth_locked, setAuth_authRun_other, setAuth_locked_other, setAuth_sessions, setAuth_authFails]

end

/-! ### The number of an opened session (R317) -/

/-- The numbers that are tried for a new session, in order. -/
def sessionCandidates (h : HostLink) : List Nat := (List.range 5).map (fun i => (h.nextSession - 1 + i) % 0xFFFE + 1)

theorem sessionCandidates_nodup (h : HostLink) : (sessionCandidates h).Nodup := by
  refine List.Nodup.map_on (fun i inI j inJ same => ?_) List.nodup_range
  rw [List.mem_range] at inI inJ
  omega

theorem exists_free_candidate {h : HostLink} (few : h.sessions.length < 4) :
    ∃ n ∈ sessionCandidates h, (!h.sessions.any (fun x => x.num == n)) = true := by
  by_contra taken
  push Not at taken
  have all : sessionCandidates h ⊆ h.sessions.map (·.num) := fun n candidate => by
    have held := taken n candidate
    simp only [ne_eq, Bool.not_eq_true', Bool.not_eq_false, List.any_eq_true, beq_iff_eq] at held
    exact List.mem_map.2 held
  have longer := ((sessionCandidates_nodup h).subperm all).length_le
  simp only [sessionCandidates, List.length_map, List.length_range] at longer
  omega

/-- With fewer than four sessions a number from 1 to 0xFFFE is free. -/
theorem freeSession_free {h : HostLink} (few : h.sessions.length < 4) :
    1 ≤ h.freeSession ∧ h.freeSession ≤ 0xFFFE ∧ ∀ y ∈ h.sessions, y.num ≠ h.freeSession := by
  obtain ⟨n, candidate, free⟩ := exists_free_candidate few
  obtain ⟨m, found⟩ := Option.isSome_iff_exists.1 (List.find?_isSome (p := fun n => !h.sessions.any (fun x => x.num == n)) |>.2 ⟨n, candidate, free⟩)
  have number : h.freeSession = m := congrArg (fun x => Option.getD x h.nextSession) found
  obtain ⟨i, -, rfl⟩ := List.mem_map.1 (List.mem_of_find?_eq_some found)
  have unused := List.find?_some found
  rw [number]
  refine ⟨by omega, by omega, fun y held same => ?_⟩
  simp only [Bool.not_eq_true', List.any_eq_false, beq_iff_eq] at unused
  exact unused y held same

/-! ### What a closing leaves (R318, R39) -/

section
variable (s : State) (p : Session → Bool)

theorem mem_closeSessions (y : Session) : y ∈ (s.closeSessions p).host.sessions ↔
    y ∈ s.host.sessions ∧ ∀ x ∈ s.host.sessions, p x = true → x.num ≠ y.num := by
  rw [closeSessions_sessions]
  simp only [List.mem_filter, Bool.not_eq_true', List.any_eq_false, beq_iff_eq, and_imp]

theorem mem_closeSessions_crc (c : CrcContext) : c ∈ (s.closeSessions p).crc ↔
    c ∈ s.crc ∧ ∀ x ∈ s.host.sessions, p x = true → x.num ≠ c.session := by
  obtain ⟨-, -, -, -, crc⟩ := closeFold_sessions (s.host.sessions.filter p) s
  unfold State.closeSessions
  rw [crc]
  simp only [List.mem_filter, Bool.not_eq_true', List.any_eq_false, beq_iff_eq, and_imp]

theorem answer_sessions (o : Outstanding) (st : Status) (d : Nat) (b : List Byte) : (s.answer o st d b).host.sessions = s.host.sessions := by
  obtain ⟨_, _, _, _, _, _, _, host⟩ := answer_written s o st d b
  rw [host]

/-- An expiry closes the sessions of its number that it names, and no session of another number. -/
theorem closeSessions_of_number {n : Nat} {q : Session → Prop} (names : ∀ x, p x = true ↔ x.num = n ∧ q x) :
    (∀ y ∈ (s.closeSessions p).host.sessions, y ∈ s.host.sessions ∧ ¬ (y.num = n ∧ q y)) ∧
    (∀ y ∈ s.host.sessions, y.num ≠ n → y ∈ (s.closeSessions p).host.sessions) := by
  simp only [mem_closeSessions]
  exact ⟨fun y ⟨held, left⟩ => ⟨held, fun named => left y held ((names y).2 named) rfl⟩,
    fun y held other => ⟨held, fun x _ named same => other (same.symm.trans ((names x).1 named).1)⟩⟩

end

/-! ### The commands -/

section
variable {s u : State} {o : Outstanding} {e : Entry} {sig : Sig} {x : Session}

theorem sessionOpen_of_locked (barred : u.host.locked (Entry.udp e) = true ∨ u.power.cryptoDown = true) :
    u.sessionOpen o e = u.authFail o (Entry.udp e) := if_pos barred

theorem sessionOpen_of_free (free : u.host.locked (Entry.udp e) = false) (crypto : u.power.cryptoDown = false) : u.sessionOpen o e =
    if 4 ≤ u.host.sessions.length then u.answer o .limit 0 [] else ({ u.applyParams (fun id => id == 0x0F01) with host := { u.host with
      sessions := u.host.sessions ++ [{ num := u.host.freeSession, udp := Entry.udp e, key := min 7 (Entry.field e 0 1), opened := false,
                                        nonce := u.host.nonces, srcAddr := e.srcAddr, srcPort := e.srcPort }],
      nextSession := u.host.freeSession % 0xFFFE + 1, nonces := u.host.nonces + 1 } } : State).answer o .done 0
        (openAnswer u.host.freeSession u.host.nonces) := if_neg (by simp [free, crypto])

theorem exec_sessionOpen (taken : s.accepts 0x0F01 false false e u o) (sized : Entry.size e 4 = true) :
    exec (.hstSessionOpen e) s = .next (u.sessionOpen o e) := congrArg Host.Outcome.next ((command_accepts taken _).trans (if_pos sized))

theorem exec_sessionProve (taken : s.accepts 0x0F02 false false e u o) (sized : Entry.size e 118 = true) :
    exec (.hstSessionProve e sig) s = .next (u.sessionProve o e sig) := congrArg Host.Outcome.next ((command_accepts taken _).trans (if_pos sized))

theorem sessionProve_of_none (none' : u.pendingFor e = none) : u.sessionProve o e sig = u.authFail o (Entry.udp e) := by
  unfold State.sessionProve; rw [none']

theorem sessionProve_of_pending (pending : u.pendingFor e = some x) : u.sessionProve o e sig =
    if u.verifies (nthD u.life.host x.key 0) sig then u.openSession o x else (u.closeSession x).authFail o x.udp := by
  unfold State.sessionProve; rw [pending]

theorem pendingFor_facts (pending : u.pendingFor e = some x) : x ∈ u.host.sessions ∧ x.opened = false ∧ x.num = Entry.field e 0 2 ∧
    x.udp = Entry.udp e ∧ (Entry.udp e = true → x.srcAddr = e.srcAddr ∧ x.srcPort = e.srcPort) := by
  have named := List.find?_some pending
  simp only [Bool.and_eq_true, Bool.not_eq_true', beq_iff_eq, Bool.or_eq_true, and_assoc] at named
  obtain ⟨opened, num, udp, source⟩ := named
  exact ⟨List.mem_of_find?_eq_some pending, opened, num, udp, fun onUdp => by simpa [onUdp] using source⟩

/-- The host link after a correct proof. -/
def proved (h : HostLink) (x : Session) : HostLink :=
  let g : HostLink := { h with sessions := h.sessions.filter (fun y => y.num != x.num) ++ [{ x with opened := true }] }
  g.setAuth x.udp 0 (g.locked x.udp)

theorem proved_sessions (h : HostLink) (x : Session) :
    (proved h x).sessions = h.sessions.filter (fun y => y.num != x.num) ++ [{ x with opened := true }] := setAuth_sessions ..

end

/-- Settles O49: the failures by `failed_facts`, the number by the pigeonhole of five candidates, the closings by what
`closeSessions` leaves. -/
theorem sessionsOpenAndClose : Obligations.SessionsOpenAndClose := by
  rintro s u o e sig udp x rfl
  refine ⟨⟨failed u.host (Entry.udp e), rfl, failed_facts u.host (Entry.udp e)⟩, fun taken sized => ?_, fun taken sized => ?_, ?_,
    fun taken => ?_, fun taken => ?_, fun taken => ?_, fun running up n => ?_, fun p running locked => ?_⟩
  · rw [exec_sessionOpen taken sized]
    obtain ⟨h, rfl⟩ := accepts_host taken
    refine ⟨fun barred => by rw [sessionOpen_of_locked barred], fun free crypto => ?_⟩
    rw [sessionOpen_of_free free crypto]
    refine ⟨fun full => by rw [if_pos full], fun few => ?_⟩
    obtain ⟨least, most, unused⟩ := freeSession_free few
    rw [if_neg (by omega)]
    exact ⟨_, _, h.freeSession, rfl, least, most, unused, rfl, rfl, rfl, rfl, rfl, rfl⟩
  · rw [exec_sessionProve taken sized]
    refine ⟨fun none' => by rw [sessionProve_of_none none'], fun pending => ?_⟩
    obtain ⟨held, opened, num, udp, source⟩ := pendingFor_facts pending
    rw [sessionProve_of_pending pending, ← udp]
    refine ⟨held, opened, num, rfl, fun onUdp => source (udp.symm.trans onUdp), fun wrong => by rw [wrong]; rfl, fun right => ?_⟩
    rw [right]
    exact ⟨{ u with host := proved u.host x }, rfl, proved_sessions .., setAuth_authRun .., setAuth_locked .., rfl⟩
  · refine ⟨_, rfl, rfl, rfl, rfl, fun y => ?_, fun c => ?_⟩ <;> simp
  · refine ⟨_, congrArg Host.Outcome.next (command_accepts taken _), fun y => ?_, fun c => ?_, fun ⟨y, held, num⟩ c => ?_⟩
    · simp only [mem_closeSessions, answer_sessions, beq_iff_eq]
      exact and_congr_right fun held => ⟨fun left same => left y held same rfl, fun other x _ named same => other (same ▸ named)⟩
    · simp only [mem_closeSessions_crc, answer_crc]
      exact And.left
    · simp only [mem_closeSessions_crc, answer_sessions, beq_iff_eq]
      exact fun ⟨_, left⟩ same => left y held num (num.trans same.symm)
  · obtain ⟨h, rfl⟩ := accepts_host taken
    exact ⟨_, congrArg _ (command_accepts taken _), rfl⟩
  · refine ⟨_, congrArg Host.Outcome.next (command_accepts taken _), fun y => ?_, ?_, ?_⟩
    · simp only [mem_closeSessions]
      exact fun ⟨held, left⟩ => ⟨answer_sessions u .. ▸ held, Bool.eq_false_iff.2 fun onUdp => left y held onUdp rfl⟩
    · rw [(closeSessions_same ..).params rfl]
      unfold State.applyParams
      dsimp only
      rw [answer_params]
    · rw [(closeSessions_same ..).lanes rfl, (applyParams_same ..).lanes rfl, answer_lanes]
      obtain ⟨h, rfl⟩ := accepts_host taken
      rfl
  · exact ⟨⟨_, if_pos ⟨running, up⟩, closeSessions_of_number s _ (q := fun y => y.opened = false) fun y => by simp⟩,
      ⟨_, if_pos ⟨running, up⟩, closeSessions_of_number s _ (q := fun y => y.opened = true) fun y => by simp⟩⟩
  · exact ⟨_, if_pos ⟨running, locked⟩, setAuth_authRun .., setAuth_locked .., setAuth_authRun_other .., setAuth_locked_other ..,
      setAuth_sessions ..⟩

end Sys2Proof.Laws
end

section
/-! The registers of the 64 queues (R307, R308, R312): index writes, configuration writes, and the stall of a command's queue.
Settles O52. -/

namespace Sys2Proof.Laws
open Sys2Proof Sys2Proof.Machine

/-! ### One queue written -/

section
variable {s : State} {n : Nat}

/-- A write of one queue: the host link alone, and of it no other queue. -/
theorem updQueue_writes (known : n < s.host.queues.length) (f : Queue → Queue) :
    s.updQueue n f = { s with host := { s.host with queues := (s.updQueue n f).host.queues } } ∧
    (∀ m, m ≠ n → (s.updQueue n f).host.queue m = s.host.queue m) ∧ (s.updQueue n f).host.queue n = f (s.host.queue n) :=
  ⟨rfl, fun _ other => updQueue_queue_ne known f other, updQueue_queue_self known f⟩

end

/-! ### The fields of a configuration (Table 15-8, R313) -/

section
variable (w : Word32)

theorem getLsbD_eq (w : Word32) (i : Nat) : w.getLsbD i = decide (w.toNat / 2 ^ i % 2 = 1) := Nat.testBit_eq_decide_div_mod_eq

theorem clamp_le {lo hi n : Nat} (legal : lo ≤ hi) : clamp lo hi n ≤ hi := by unfold clamp; omega

theorem cfgEffective_toNat : (cfgEffective w).toNat = clamp 1 10 (bits32 w 0 4) + 16 * clamp 1 65 (bits32 w 4 7) + 2048 * bits32 w 11 7 +
    (if w.getLsbD 31 then 2147483648 else 0) := by
  have depth : clamp 1 10 (bits32 w 0 4) ≤ 10 := clamp_le (by decide)
  have units : clamp 1 65 (bits32 w 4 7) ≤ 65 := clamp_le (by decide)
  have rest : bits32 w 11 7 < 128 := Nat.mod_lt _ (by decide)
  unfold cfgEffective
  rw [BitVec.toNat_ofNat]
  refine Nat.mod_eq_of_lt ?_
  split <;> omega

theorem cfgEffective_fields : bits32 (cfgEffective w) 0 4 = clamp 1 10 (bits32 w 0 4) ∧ bits32 (cfgEffective w) 4 7 = clamp 1 65 (bits32 w 4 7) ∧
    bits32 (cfgEffective w) 11 5 = bits32 w 11 5 ∧ (cfgEffective w).getLsbD 16 = w.getLsbD 16 ∧ (cfgEffective w).getLsbD 17 = w.getLsbD 17 ∧
    (cfgEffective w).getLsbD 31 = w.getLsbD 31 := by
  have depth : clamp 1 10 (bits32 w 0 4) ≤ 10 := clamp_le (by decide)
  have units : clamp 1 65 (bits32 w 4 7) ≤ 65 := clamp_le (by decide)
  have rest : bits32 w 11 7 = w.toNat / 2048 % 128 := rfl
  have value := cfgEffective_toNat w
  have top : (if w.getLsbD 31 then 2147483648 else 0) = 2147483648 * (w.toNat / 2147483648 % 2) := by
    rw [getLsbD_eq]
    split <;> simp_all
  rw [top, rest] at value
  generalize clamp 1 10 (bits32 w 0 4) = a at *
  generalize clamp 1 65 (bits32 w 4 7) = b at *
  have word := w.isLt
  simp only [getLsbD_eq, decide_eq_decide, bits32, value]
  omega

theorem cfgEnable_toNat (cfg : Word32) (on : Bool) :
    (cfgEnable cfg on).toNat = cfg.toNat % 2147483648 + (if on then 2147483648 else 0) := by
  unfold cfgEnable
  rw [BitVec.toNat_ofNat]
  refine Nat.mod_eq_of_lt ?_
  split <;> omega

theorem cfgEnable_fields (cfg : Word32) (on : Bool) : (cfgEnable cfg on).getLsbD 31 = on ∧
    (cfgEnable cfg on).toNat % 2147483648 = cfg.toNat % 2147483648 := by
  rw [getLsbD_eq, cfgEnable_toNat]
  cases on <;> simp

end

/-! ### The register writes -/

section
variable {s : State} {n v : Nat} {w : Word32}

theorem exec_qProdWrite (running : s.power.running = true) :
    exec (.qProdWrite n w []) s = .next (s.writeProd n (w.toNat % 65536)) := if_pos running

theorem exec_qConsWrite (running : s.power.running = true) : exec (.qConsWrite n w) s = .next (s.writeCons n (w.toNat % 65536)) := if_pos running

theorem exec_qCfgWrite (running : s.power.running = true) : exec (.qCfgWrite n w) s = .next (s.writeCfg n w) := if_pos running

theorem writeProd_of_other (other : hostProducer n = false ∨ portQueue n = true) : s.writeProd n v = s :=
  if_pos (by obtain h | h := other <;> simp [h])

theorem writeCons_of_other (other : hostProducer n = true ∨ portQueue n = true) : s.writeCons n v = s :=
  if_pos (by obtain h | h := other <;> simp [h])

theorem writeCfg_of_port (port : portQueue n = true) : s.writeCfg n w = s := if_pos (Or.inl port)

/-- A producer index within the free space is taken, another is ignored with its error code. -/
theorem writeProd_of_host (small : n < 64) (port : portQueue n = false) (host : hostProducer n = true) : s.writeProd n v =
    s.updQueue n (fun q => if (v + 65536 - (s.host.queue n).prod % 65536) % 65536 ≤ (s.host.queue n).free then { q with prod := v }
      else { q with errCode := 0x02 }) := by
  refine (if_neg (by simp [host, port, small])).trans ?_
  split <;> rfl

/-- The queue after a write of its consumer index, before the tunnel entries that wait for it come in. -/
def consWritten (s : State) (n v k : Nat) : State :=
  s.updQueue n (fun q => if k ≤ (s.host.queue n).used then { q with cons := v, held := q.held.drop k } else { q with errCode := 0x02 })

theorem writeCons_of_module (small : n < 64) (port : portQueue n = false) (module' : hostProducer n = false) {k : Nat}
    (advance : k = (v + 65536 - (s.host.queue n).cons % 65536) % 65536) : s.writeCons n v =
    if 56 ≤ n ∧ k ≤ (s.host.queue n).used then
      (consWritten s n v k).drainChannel (n - 56) (consWritten s n v k).bridge.reasm.length
    else consWritten s n v k := by
  subst advance
  refine (if_neg (by simp [module', port, small])).trans ?_
  unfold consWritten
  split
  case isTrue within =>
    simp only [within, and_true]
  case isFalse beyond =>
    simp only [beyond, and_false]
    rfl

/-- The configuration that a write leaves in a queue. -/
def cfgWritten (q : Queue) (w : Word32) : Queue :=
  if q.enabled then { q with cfg := cfgEnable q.cfg (w.getLsbD 31) }
  else if w.getLsbD 31 then q.start w
  else { q with cfg := cfgEffective w }

theorem writeCfg_of_queue (small : n < 64) (port : portQueue n = false) : ∃ t, t = s.updQueue n (cfgWritten · w) ∧ s.writeCfg n w =
      if (s.host.queue n).enabled = false ∧ w.getLsbD 31 = true ∧ 56 ≤ n then t.drainChannel (n - 56) t.bridge.reasm.length else t := by
  have written : ∀ f : Queue → Queue, cfgWritten (s.host.queue n) w = f (s.host.queue n) →
      s.updQueue n (cfgWritten · w) = s.updQueue n f := fun f same =>
    congrArg (fun q => ({ s with host := { s.host with queues := setNth s.host.queues n q } } : State)) same
  refine ⟨_, rfl, (if_neg (by simp [port, small])).trans ?_⟩
  dsimp only
  by_cases enabled : (s.host.queue n).enabled = true
  · rw [written (fun q => { q with cfg := cfgEnable q.cfg (w.getLsbD 31) }) (if_pos enabled), if_pos enabled, if_neg (by simp [enabled])]
  · by_cases on : w.getLsbD 31 = true
    · rw [written (fun q => q.start w) ((if_neg enabled).trans (if_pos on)), if_neg enabled, if_pos on]
      simp [enabled, on]
    · rw [written (fun q => { q with cfg := cfgEffective w }) ((if_neg enabled).trans (if_neg on)), if_neg enabled, if_neg on,
        if_neg (fun ⟨_, set, _⟩ => on set)]

theorem written_enabled (q : Queue) : (cfgWritten q w).enabled = w.getLsbD 31 := by
  obtain ⟨-, -, -, -, -, on⟩ := cfgEffective_fields w
  unfold cfgWritten
  split
  · exact (cfgEnable_fields q.cfg (w.getLsbD 31)).1
  · split <;> exact on

theorem written_of_enabled {q : Queue} (enabled : q.enabled = true) :
    ∃ c, cfgWritten q w = { q with cfg := c } ∧ c.toNat % 2147483648 = q.cfg.toNat % 2147483648 :=
  ⟨_, if_pos enabled, (cfgEnable_fields q.cfg (w.getLsbD 31)).2⟩

theorem written_cfg {q : Queue} (disabled : q.enabled = false) : (cfgWritten q w).cfg = cfgEffective w := by
  unfold cfgWritten
  rw [if_neg (by simp [disabled])]
  split <;> rfl

theorem written_of_disabled {q : Queue} (disabled : q.enabled = false) :
    (cfgWritten q w).log2 = clamp 1 10 (bits32 w 0 4) ∧ (cfgWritten q w).units = clamp 1 65 (bits32 w 4 7) ∧
    (cfgWritten q w).vector = bits32 w 11 5 ∧ (cfgWritten q w).irqEn = w.getLsbD 16 ∧ (cfgWritten q w).attnEn = w.getLsbD 17 ∧
    (w.getLsbD 31 = true → (cfgWritten q w).prod = 0 ∧ (cfgWritten q w).cons = 0 ∧ (cfgWritten q w).error = false ∧
      (cfgWritten q w).overflow = 0) ∧
    (w.getLsbD 31 = false → (cfgWritten q w).prod = q.prod ∧ (cfgWritten q w).cons = q.cons ∧ (cfgWritten q w).errCode = q.errCode) := by
  obtain ⟨depth, units, vector, irq, attn, -⟩ := cfgEffective_fields w
  unfold Queue.log2 Queue.units Queue.vector Queue.irqEn Queue.attnEn
  rw [written_cfg disabled]
  refine ⟨depth, units, vector, irq, attn, fun on => ?_, fun off => ?_⟩ <;> unfold cfgWritten
  · rw [if_neg (by simp [disabled]), if_pos on]
    exact ⟨rfl, rfl, rfl, rfl⟩
  · rw [if_neg (by simp [disabled]), if_neg (Bool.eq_false_iff.1 off)]
    exact ⟨rfl, rfl, rfl⟩

end

/-! ### Commands at the head of a queue -/

section
variable {s : State} {n : Nat} {w : Word32} {op : Nat} {e : Entry}

/-- An entry of an unknown opcode that passes the checks is answered as soon as the index write shows it. -/
theorem exec_qProdWrite_unknown (running : s.power.running = true) (queued : e.queue = n) (unknown : op ∉ knownOpcodes)
    (accepted : (s.writeProd n (w.toNat % 65536)).vet op false false { e with session := 0 } = .accept) :
    exec (.qProdWrite n w [(op, e)]) s = .next (((s.writeProd n (w.toNat % 65536)).dequeue e).answer (outstandingOf op e none) .unknown 0 (leBytes 4 0)) := by
  have fetched : (s.writeProd n (w.toNat % 65536)).unknownCommand op e =
      ((s.writeProd n (w.toNat % 65536)).dequeue e).answer (outstandingOf op e none) .unknown 0 (leBytes 4 0) := by
    unfold State.unknownCommand
    rw [accepted]
    rfl
  refine (if_pos running).trans (congrArg _ ?_)
  rw [List.filter_cons_of_pos (by simp [queued, unknown]), List.filter_nil, List.foldl_cons, List.foldl_nil, fetched]

theorem exec_queueStall (byHost : Entry.udp e = false) (head : s.fetchable 0 e = true) : exec (.queueStall e) s = .next
    (if s.responseFull e = true then s.stallQueue e.queue else s.updQueue e.queue (fun q => { q with stalled := false })) := by
  refine (if_neg (by simp [byHost, head])).trans ?_
  split <;> rfl

theorem stallQueue_of_stalled (stalled : (s.host.queue n).stalled = true) : s.stallQueue n = s := if_pos stalled

theorem stallQueue_of_moving (moving : (s.host.queue n).stalled = false) : s.stallQueue n =
    (s.updQueue n (fun q => { q with stalled := true })).raise evQueueStall (leBytes 1 n) := if_neg (by simp [moving])

end

/-- Settles O52: each register write is a write of one queue; the stall by the queue's mark. -/
theorem queueRegistersChecked : Obligations.QueueRegistersChecked := by
  rintro s n v w q e running rfl rfl known
  refine ⟨fun small port host => ⟨?_, ?_, ?_⟩, fun small port module' => ⟨?_, ?_⟩, fun small port => ?_, fun port => ⟨?_, ?_, ?_⟩,
    fun byHost head queued => ?_⟩
  · rw [exec_qConsWrite running, writeCons_of_other (Or.inl host)]
  · rw [exec_qProdWrite running, writeProd_of_host small port host]
    exact ⟨_, rfl, updQueue_writes known _⟩
  · intro op u queued unknown taken accepted
    rw [exec_qProdWrite running] at taken
    obtain rfl := Host.Outcome.next.inj taken
    exact exec_qProdWrite_unknown running queued unknown accepted
  · rw [exec_qProdWrite running, writeProd_of_other (Or.inl module')]
  · intro k advance
    rw [exec_qConsWrite running, writeCons_of_module small port module' advance]
    exact ⟨_, rfl, updQueue_writes known _⟩
  · obtain ⟨t, write, ran⟩ := writeCfg_of_queue (s := s) (w := w) small port
    obtain ⟨alone, others, self⟩ := updQueue_writes (s := s) known (cfgWritten · w)
    rw [exec_qCfgWrite running, ran]
    refine ⟨t, rfl, ?_⟩
    rw [write, self, written_enabled]
    exact ⟨alone, others, Iff.rfl, written_of_enabled, written_of_disabled⟩
  · rw [exec_qProdWrite running, writeProd_of_other (Or.inr port)]
  · rw [exec_qConsWrite running, writeCons_of_other (Or.inr port)]
  · rw [exec_qCfgWrite running, writeCfg_of_port port]
  · subst queued
    rw [exec_queueStall byHost head]
    refine ⟨fun full stalled => ?_, fun full moving => ?_, fun room => ?_⟩
    · rw [if_pos full, stallQueue_of_stalled stalled]
    · rw [if_pos full, stallQueue_of_moving moving]
      obtain ⟨alone, others, self⟩ := updQueue_writes (s := s) known (fun q => { q with stalled := true })
      exact ⟨_, rfl, alone, self, others⟩
    · rw [if_neg (by simp [room])]
      obtain ⟨alone, others, self⟩ := updQueue_writes (s := s) known (fun q => { q with stalled := false })
      exact ⟨_, rfl, alone, self, others⟩

end Sys2Proof.Laws
end

section
/-! The accesses to BAR0 (R302 to R306), the state of the link and the bus (R299), MSI-X (R323) and the reset of the PCIe function (R300).
Settles O53. -/

namespace Sys2Proof.Laws
open Sys2Proof Sys2Proof.Machine

/-! ### Accesses -/

section
variable {s : State} {off en d : Nat} {w x : Word32}

/-- A completer abort at a place of BAR0 writes the log and nothing else (R302). -/
theorem abort_eq {h : HostLink} {reason : Nat} {posted : Bool} (small : d < 65536)
    (logged : h = { s.host with abortOff := d, abortReason := reason, abortCount := min (s.host.abortCount + 1) 4095,
                                aerAbort := s.host.aerAbort || posted }) : s.abort d reason posted = { s with host := h } := by
  subst logged
  unfold State.abort
  rw [Nat.mod_eq_of_lt small]

theorem exec_registerWrite (running : s.power.running = true) (place : d = off % 65536 / 4 * 4) (high : Option Word32) :
    exec (.registerWrite off w en high) s = .next (s.writeRegister d w en high) := by
  subst place; exact if_pos running

theorem exec_reservedAccess (running : s.power.running = true) (place : d = off % 65536 / 4 * 4) (write wide : Bool) :
    exec (.reservedAccess off write wide) s = .next (s.reservedAt d write wide) := by
  subst place; exact if_pos running

theorem windowShut_of_closed (high : 0x8000 ≤ d) (closed : s.host.window = false) : s.windowShut d = true := by
  unfold State.windowShut
  simp [high, closed]

theorem windowShut_of_reachable (reach : d < 0x8000 ∨ s.host.window = true) : s.windowShut d = false := by
  unfold State.windowShut
  obtain low | opened := reach
  · simp [low]
  · simp [opened]

theorem writeRegister_of_shut (shut : s.windowShut d = true) (high : Option Word32) : s.writeRegister d w en high = s := if_pos shut

theorem reservedAt_of_shut (shut : s.windowShut d = true) (write wide : Bool) : s.reservedAt d write wide = s := if_pos shut

/-- A write of one DWORD where the place is reachable (R302, R303). -/
theorem writeRegister_one (reach : s.windowShut d = false) : s.writeRegister d w en none =
    if !implemented s.host.window d then s.abort d 1 true else if en % 16 ≠ 15 then s.abort d 2 true else s.applyRegister d w :=
  if_neg (by simp [reach])

/-- A write of two DWORDs where the place is reachable. -/
theorem writeRegister_two (reach : s.windowShut d = false) : s.writeRegister d w en (some x) =
    if !(implemented s.host.window d && implemented s.host.window (d + 4)) then s.abort d 4 true
    else if en % 256 ≠ 255 then s.abort d 2 true else (s.applyRegister d w).applyRegister (d + 4) x :=
  if_neg (by simp [reach])

theorem reservedAt_narrow (reach : s.windowShut d = false) (write : Bool) : s.reservedAt d write false =
    if !implemented s.host.window d then s.abort d 1 write else s := by
  unfold State.reservedAt
  simp [reach]

theorem reservedAt_wide (reach : s.windowShut d = false) (write : Bool) : s.reservedAt d write true =
    if !(implemented s.host.window d && implemented s.host.window (d + 4)) then s.abort d 4 write else s := by
  unfold State.reservedAt
  simp [reach]

theorem applyRegister_scratch : s.applyRegister 0x101C w = { s with host := { s.host with scratch := w } } := rfl

/-- The read-only registers of the block ignore a write. -/
theorem applyRegister_readOnly (least : 0x1000 ≤ d) (most : d < 0x2000) (scratch : d ≠ 0x101C) (cdc : d ≠ 0x1020) : s.applyRegister d w = s := by
  unfold State.applyRegister
  simp only [Nat.not_lt.2 least, scratch, cdc, if_false]
  rw [if_neg (by omega), if_neg (by omega), if_neg (by omega)]

theorem applyRegister_route (least : 0x8400 ≤ d) (most : d < 0x8500) (opened : s.host.window = true) : s.applyRegister d w =
    { s with host := { s.host with evtRoute := setNth s.host.evtRoute ((d - 0x8400) / 4) (w &&& 0x1F1F1F1F) } } := by
  unfold State.applyRegister
  rw [if_neg (by omega), if_neg (by omega), if_neg (by omega), if_neg (by omega), if_neg (by omega), if_pos ⟨least, most⟩, if_pos opened]
  rfl

/-- The base of a port's queue, and that of an enabled one, ignore a write (R307). -/
theorem applyRegister_base (low : d < 0x1000) (base : d % 0x40 = 0 ∨ d % 0x40 = 4)
    (fixed : portQueue (d / 0x40) = true ∨ (s.host.queue (d / 0x40)).enabled = true) : s.applyRegister d w = s := by
  unfold State.applyRegister
  rw [if_pos low]
  obtain place | place := base <;> rw [place] <;> exact if_pos fixed

end

/-! ### The bus -/

section
variable {s : State}

theorem drainChannel_of_still {ch : Nat} (still : s.host.moves (56 + ch) = false) : ∀ n, s.drainChannel ch n = s
  | 0 => rfl
  | n + 1 => by
    unfold State.drainChannel
    dsimp only
    split
    · rfl
    · split
      · rfl
      · exact if_neg (by simp [still])

theorem moves_of_unreachable {h : HostLink} (dma : h.dma = false) (n : Nat) : h.moves n = false := by
  unfold HostLink.moves
  rw [dma, Bool.and_false]

theorem drainAll_of_still (still : ∀ n, s.host.moves n = false) : s.drainAll = s :=
  List.foldlRecOn (motive := fun t => t = s) (List.range 8) _ rfl fun t same ch _ => by
    subst same
    exact drainChannel_of_still (still _) _

theorem drainChannel_written (ch : Nat) : ∀ (n : Nat) (s : State), EntryWritten s.host (s.drainChannel ch n).host
  | 0, s => EntryWritten.refl _
  | n + 1, s => by
    unfold State.drainChannel
    dsimp only
    split
    · exact EntryWritten.refl _
    · split
      · exact EntryWritten.refl _
      · split
        · exact (enqueue_written ..).trans (drainChannel_written ch n _)
        · exact EntryWritten.refl _

theorem drainAll_written (s : State) : EntryWritten s.host s.drainAll.host :=
  List.foldlRecOn (motive := fun t : State => EntryWritten s.host t.host) (List.range 8) _ (EntryWritten.refl _) fun _ written ch _ =>
    written.trans (drainChannel_written ch _ _)

end

/-! ### MSI-X (R323) -/

theorem mem_removeAll {l : List Nat} {n m : Nat} : m ∈ removeAll l n ↔ m ∈ l ∧ m ≠ n := by
  simp [removeAll]

theorem unmask_facts (h : HostLink) (n : Nat) : n ∉ (h.unmask n).masked ∧ n ∉ (h.unmask n).pba ∧
    ((h.unmask n).messages = if n ∈ h.pba then n :: h.messages else h.messages) ∧
    (∀ m, m ≠ n → (m ∈ (h.unmask n).masked ↔ m ∈ h.masked) ∧ (m ∈ (h.unmask n).pba ↔ m ∈ h.pba)) ∧ (h.unmask n).queues = h.queues := by
  unfold HostLink.unmask
  dsimp only
  by_cases pending : n ∈ h.pba
  · rw [if_pos (by simpa using pending), if_pos pending]
    exact ⟨not_mem_removeAll _ _, not_mem_removeAll _ _, rfl, fun m other => by simp [mem_removeAll, other], rfl⟩
  · rw [if_neg (by simpa using pending), if_neg pending]
    exact ⟨not_mem_removeAll _ _, pending, rfl, fun m other => by simp [mem_removeAll, other], rfl⟩

/-! ### The reset of the function (R300) -/

/-- No queue is enabled, every index is 0, and no message is pending. -/
def QueuesAtRest (h : HostLink) : Prop :=
  h.pba = [] ∧ ∀ n, (h.queue n).enabled = false ∧ (h.queue n).prod = 0 ∧ (h.queue n).cons = 0

/-- A write of one queue that leaves its configuration and its indices leaves the queues at rest. -/
theorem QueuesAtRest.updQueue {s : State} (rest : QueuesAtRest s.host) (n : Nat) (f : Queue → Queue)
    (keeps : ∀ q : Queue, (f q).cfg = q.cfg ∧ (f q).prod = q.prod ∧ (f q).cons = q.cons) : QueuesAtRest (s.updQueue n f).host := by
  obtain ⟨pba, queues⟩ := rest
  refine ⟨pba, fun m => ?_⟩
  have written : (s.updQueue n f).host.queue m = if m = n ∧ n < s.host.queues.length then f (s.host.queue n) else s.host.queue m :=
    nthD_setNth ..
  rw [written]
  split
  · obtain ⟨cfg, prod, cons⟩ := keeps (s.host.queue n)
    unfold Queue.enabled
    rw [cfg, prod, cons]
    exact queues n
  · exact queues m

theorem QueuesAtRest.raise {s : State} (rest : QueuesAtRest s.host) (num : Nat) (p : List Byte) : QueuesAtRest (s.raise num p).host := by
  unfold State.raise
  rw [recordRaise_host]
  unfold State.post
  split
  · unfold State.raiseNow
    dsimp only
    split
    · exact rest
    next n routed =>
      split
      · split
        · exact QueuesAtRest.updQueue rest _ _ fun _ => ⟨rfl, rfl, rfl⟩
        · exact QueuesAtRest.updQueue rest _ _ fun _ => ⟨rfl, rfl, rfl⟩
      · rw [if_pos]
        · exact rest
        · exact congrArg (!·) (rest.2 n).1
  · exact rest

theorem QueuesAtRest.closeSession {s : State} (rest : QueuesAtRest s.host) (x : Session) : QueuesAtRest (s.closeSession x).host := by
  unfold State.closeSession
  dsimp only
  split
  · refine QueuesAtRest.raise ?_ _ _
    exact rest
  · exact rest

theorem QueuesAtRest.closeSessions {s : State} (rest : QueuesAtRest s.host) (p : Session → Bool) : QueuesAtRest (s.closeSessions p).host :=
  List.foldlRecOn (motive := fun t : State => QueuesAtRest t.host) _ _ rest fun _ rested x _ => rested.closeSession x

theorem reset_queuesAtRest : ∀ n, (HostLink.reset.queue n).enabled = false ∧ (HostLink.reset.queue n).prod = 0 ∧ (HostLink.reset.queue n).cons = 0 := by
  intro n
  have initial : HostLink.reset.queue n = Queue.reset := by
    obtain below | above := Nat.lt_or_ge n 64
    · exact List.getD_replicate _ below
    · exact List.getD_eq_default _ _ (by rwa [show HostLink.reset.queues.length = 64 from List.length_replicate])
  rw [initial]
  exact ⟨rfl, rfl, rfl⟩

/-- What closing sessions leaves of the host link besides the sessions and what an event touches. -/
theorem closeSessions_host (s : State) (p : Session → Bool) : ∃ l u, EventRaised { s.host with sessions := l, udpSent := u } (s.closeSessions p).host :=
  List.foldlRecOn (motive := fun t : State => ∃ l u, EventRaised { s.host with sessions := l, udpSent := u } t.host) _ _
    ⟨s.host.sessions, s.host.udpSent, EventRaised.refl _⟩ fun t ⟨_, _, raised⟩ x _ => by
      obtain ⟨_, _, _, _, _, _, host⟩ := raised
      have closed := closeSession_host t x
      rw [host] at closed
      obtain ⟨_, _, _, _, _, _, after⟩ := closed
      exact ⟨_, _, _, _, _, _, _, _, after⟩

theorem orphan_queue (o : Outstanding) : 15 ≤ (o.orphan (fun q => decide (q < 15))).queue := by
  unfold Outstanding.orphan
  split
  · exact (by decide : 15 ≤ discardQueue)
  next module' => simpa using module'

section
variable {s : State} (k : Bool)

/-- The state in which a reset of the function closes the sessions of PCIe. -/
def functionReset (s : State) (k : Bool) : State :=
  ({ s with host := { s.host.barReset with busMaster := false, inD0 := true, linkSpeed := if k then s.host.linkSpeed else 0 } } : State).orphans
    (fun q => decide (q < 15))

theorem pcieReset_eq : s.pcieReset k = (functionReset s k).closeSessions (fun x => !x.udp) := rfl

theorem mem_pcieReset_sessions (y : Session) : y ∈ (s.pcieReset k).host.sessions ↔
    y ∈ s.host.sessions ∧ y.udp = true ∧ ∀ z ∈ s.host.sessions, z.udp = false → z.num ≠ y.num := by
  rw [pcieReset_eq, mem_closeSessions]
  have sessions : (functionReset s k).host.sessions = s.host.sessions := rfl
  rw [sessions]
  refine and_congr_right fun held => ⟨fun left => ⟨?_, fun z listed pcie => left z listed (by simp [pcie])⟩, fun ⟨_, left⟩ z listed pcie =>
    left z listed (by simpa using pcie)⟩
  by_contra pcie
  exact left y held (by simp [pcie]) rfl

theorem pcieReset_window : (s.pcieReset k).host.window = false := by
  unfold HostLink.window HostLink.openSessions
  rw [Bool.not_eq_false', List.isEmpty_iff, List.filter_eq_nil_iff]
  intro y listed named
  obtain ⟨-, udp, -⟩ := (mem_pcieReset_sessions k y).1 listed
  simp [udp] at named

theorem pcieReset_host : (s.pcieReset k).host.scratch = 0 ∧ (s.pcieReset k).host.busMaster = false ∧ (s.pcieReset k).host.inD0 = true ∧
    (s.pcieReset k).host.stewardUp = s.host.stewardUp ∧ ∀ o ∈ (s.pcieReset k).host.outstanding, 15 ≤ o.queue := by
  rw [pcieReset_eq]
  obtain ⟨_, _, _, _, _, _, _, _, host⟩ := closeSessions_host (functionReset s k) (fun x => !x.udp)
  have reset : (functionReset s k).host = { s.host.barReset with
    busMaster := false, inD0 := true, linkSpeed := if k then s.host.linkSpeed else 0,
    outstanding := s.host.outstanding.map (Outstanding.orphan (fun q => decide (q < 15))) } := rfl
  rw [host, reset]
  refine ⟨rfl, rfl, rfl, rfl, fun o held => ?_⟩
  obtain ⟨p, -, rfl⟩ := List.mem_map.1 held
  exact orphan_queue p

theorem pcieReset_rests : QueuesAtRest (s.pcieReset k).host := by
  have queues : ∀ n, (functionReset s k).host.queue n = HostLink.reset.queue n := fun _ => rfl
  rw [pcieReset_eq]
  refine QueuesAtRest.closeSessions ⟨rfl, fun n => ?_⟩ _
  rw [queues]
  exact reset_queuesAtRest n

end

/-- Settles O53: the accesses by the checks of a write, the reset by what closing sessions leaves of queues at rest. -/
theorem registersAndFunction : Obligations.RegistersAndFunction := by
  intro s off d en w x a running place logged
  have small : d < 65536 := by omega
  have whole : d % 4 = 0 := by omega
  refine ⟨fun high closed hi wr wide => ?_, fun reach => ⟨fun reserved => ⟨?_, fun wr => ?_⟩, fun known => ⟨fun wr => ?_, fun missing => ?_,
      fun full => ⟨?_, fun least most scratch cdc => ?_, fun least most => ?_, fun low base fixed => ?_⟩⟩, fun reserved => ⟨?_, fun wr => ?_⟩,
      fun known known' missing => ?_⟩,
    ?_, fun live => ?_, ?_, fun b => ⟨_, rfl, if_pos running⟩, fun b d0 stopped => ?_, ?_, fun n below => ?_, fun k => ?_⟩
  · have shut := windowShut_of_closed (s := s) high closed
    rw [exec_registerWrite running place, exec_reservedAccess running place, writeRegister_of_shut shut, reservedAt_of_shut shut]
    exact ⟨rfl, rfl⟩
  · rw [exec_registerWrite running place, writeRegister_one (windowShut_of_reachable reach), if_pos (by simp [reserved]),
      abort_eq small (logged _ _)]
  · rw [exec_reservedAccess running place, reservedAt_narrow (windowShut_of_reachable reach), if_pos (by simp [reserved]),
      abort_eq small (logged _ _)]
  · rw [exec_reservedAccess running place, reservedAt_narrow (windowShut_of_reachable reach), if_neg (by simp [known])]
  · rw [exec_registerWrite running place, writeRegister_one (windowShut_of_reachable reach), if_neg (by simp [known]), if_pos missing,
      abort_eq small (logged _ _)]
  · rintro rfl
    refine ⟨_, rfl, ?_⟩
    rw [exec_registerWrite running place, writeRegister_one (windowShut_of_reachable reach), if_neg (by simp [known]), if_neg (by simp [full]),
      applyRegister_scratch]
  · rw [exec_registerWrite running place, writeRegister_one (windowShut_of_reachable reach), if_neg (by simp [known]), if_neg (by simp [full]),
      applyRegister_readOnly least most scratch cdc]
  · refine ⟨_, rfl, ?_⟩
    rw [exec_registerWrite running place, writeRegister_one (windowShut_of_reachable reach), if_neg (by simp [known]), if_neg (by simp [full]),
      applyRegister_route least most (reach.resolve_left (by omega))]
  · rw [exec_registerWrite running place, writeRegister_one (windowShut_of_reachable reach), if_neg (by simp [known]), if_neg (by simp [full]),
      applyRegister_base low (by omega) fixed]
  · rw [exec_registerWrite running place, writeRegister_two (windowShut_of_reachable reach),
      if_pos (by obtain h | h := reserved <;> simp [h]), abort_eq small (logged _ _)]
  · rw [exec_reservedAccess running place, reservedAt_wide (windowShut_of_reachable reach),
      if_pos (by obtain h | h := reserved <;> simp [h]), abort_eq small (logged _ _)]
  · rw [exec_registerWrite running place, writeRegister_two (windowShut_of_reachable reach), if_neg (by simp [known, known']), if_pos missing,
      abort_eq small (logged _ _)]
  · refine ⟨_, rfl, (if_pos running).trans ?_⟩
    unfold State.clearCdc
    split <;> rfl
  · exact if_neg (by simp [live])
  · exact ⟨_, if_pos ⟨running, Or.inl rfl⟩, rfl, rfl, rfl, rfl, rfl, rfl, rfl⟩
  · have dma : ({ s.host with busMaster := b, inD0 := d0 } : HostLink).dma = false := by
      obtain rfl | rfl := stopped <;> simp [HostLink.dma]
    have still := moves_of_unreachable dma
    exact ⟨_, rfl, (if_pos running).trans (congrArg _ (drainAll_of_still still)), still⟩
  · obtain ⟨q, m, p, host⟩ := drainAll_written { s with host := { s.host with busMaster := true, inD0 := true } }
    have same := drainAll_same { s with host := { s.host with busMaster := true, inD0 := true } }
    refine ⟨_, if_pos running, ?_, ?_, same.lanes rfl, same.crc rfl, ?_⟩ <;> rw [host]
  · exact ⟨_, if_pos ⟨running, below⟩, unmask_facts s.host n⟩
  · obtain ⟨scratch, busMaster, inD0, up, outstanding⟩ := pcieReset_host (s := s) k
    obtain ⟨pba, queues⟩ := pcieReset_rests (s := s) k
    have same := pcieReset_same s k
    exact ⟨_, if_pos running, queues, mem_pcieReset_sessions k, pcieReset_window k, pba, scratch, busMaster, inD0, up, same.lanes rfl,
      same.net rfl, outstanding⟩

end Sys2Proof.Laws
end

section
/-! The maintenance port (R319, R320) and the parameter commands (R315, R316). Settles O54. -/

namespace Sys2Proof.Laws
open Sys2Proof Sys2Proof.Machine

/-! ### Datagrams -/

section
variable {s : State} {e f : Entry} {bytes op : Nat}

theorem exec_udpDatagram (up : s.portUp = true) (port : f = { e with queue := 15 }) : exec (.udpDatagram bytes op e) s = .next
    (if bytes ≠ e.length + 20 then (s.answer (outstandingOf op f none) .framing 4 []).recordBatch [recCount 0x0700 4] else s.datagram op f) := by
  subst port
  refine (if_neg (by simp [up])).trans ?_
  split <;> rfl

theorem storedResponse_of_open (named : e.session ≠ 0) (opened : s.host.sessionOk e = true) : s.storedResponse e =
    s.host.udpSent.find? (fun u => u.session == e.session && u.tag == e.tag) := if_pos ⟨named, opened⟩

/-- The one response kept under a session and a tag is the one found. -/
theorem storedResponse_of_only {x : UdpSent} (named : e.session ≠ 0) (opened : s.host.sessionOk e = true) (kept : x ∈ s.host.udpSent)
    (session : x.session = e.session) (tag : x.tag = e.tag)
    (only : ∀ y ∈ s.host.udpSent, y.session = e.session → y.tag = e.tag → y = x) : s.storedResponse e = some x := by
  rw [storedResponse_of_open named opened]
  obtain ⟨y, found⟩ := Option.isSome_iff_exists.1 (List.find?_isSome (p := fun u => u.session == e.session && u.tag == e.tag)
    |>.2 ⟨x, kept, by simp [session, tag]⟩)
  have matched := List.find?_some found
  simp only [Bool.and_eq_true, beq_iff_eq] at matched
  rw [found, only y (List.mem_of_find?_eq_some found) matched.1 matched.2]

theorem storedResponse_of_none (none' : e.session = 0 ∨ s.host.sessionOk e = false ∨
    ∀ y ∈ s.host.udpSent, ¬ (y.session = e.session ∧ y.tag = e.tag)) : s.storedResponse e = none := by
  by_cases opened : e.session ≠ 0 ∧ s.host.sessionOk e = true
  · obtain ⟨named, ok⟩ := opened
    rw [storedResponse_of_open named ok, List.find?_eq_none]
    intro y kept same
    have unkept := (none'.resolve_left named).resolve_left (by simp [ok])
    exact unkept y kept (by simpa using same)
  · exact if_neg opened

theorem datagram_of_stored {x : UdpSent} (stored : s.storedResponse e = some x) :
    s.datagram op e = s.sendDatagram e.srcAddr e.srcPort x.entry := by
  unfold State.datagram; rw [stored]

theorem datagram_of_known (fresh : s.storedResponse e = none) (known : op ∈ knownOpcodes) :
    s.datagram op e = { s with host := { s.host with udpQueue := s.host.udpQueue ++ [(op, e)] } } := by
  unfold State.datagram; rw [fresh]; exact if_pos (by simpa using known)

theorem datagram_of_unknown (fresh : s.storedResponse e = none) (unknown : op ∉ knownOpcodes) (sized : e.length ≤ 4080)
    (sound : Entry.crcOk e = true) : s.datagram op e = s.answer (outstandingOf op e none) .unknown 0 (leBytes 4 0) := by
  unfold State.datagram
  rw [fresh]
  exact (if_neg (by simpa using unknown)).trans ((if_neg (by omega)).trans (if_neg (by simp [sound])))

end

/-! ### Parameters -/

section
variable {s u : State} {e : Entry} {o : Outstanding} {n : Nat}

theorem paramCount_of_sized (count : n = Entry.field e 0 2) (least : 1 ≤ n) (most : n ≤ 339) (sized : (Entry.body e).length = 4 + 12 * n) :
    paramCount e = some n := by
  subst count
  exact if_pos ⟨least, most, sized⟩

theorem paramCount_of_unsized (wrong : Entry.field e 0 2 = 0 ∨ 339 < Entry.field e 0 2 ∨ (Entry.body e).length ≠ 4 + 12 * Entry.field e 0 2) :
    paramCount e = none := by
  refine if_neg fun ⟨least, most, sized⟩ => ?_
  obtain h | h | h := wrong
  · omega
  · omega
  · exact h sized

/-- The first index below n at which something is missing. -/
theorem find_first_none {α : Type} (g : Nat → Option α) {i : Nat} (below : i < n) (missing : g i = none) (first : ∀ j, j < i → (g j).isSome = true) :
    (List.range n).find? (fun j => (g j).isNone) = some i := by
  rw [List.find?_range_eq_some]
  exact ⟨by simp [missing], List.mem_range.2 below, fun j earlier => by simpa using first j earlier⟩

theorem find_none_of_all {α : Type} (g : Nat → Option α) (all : ∀ i, i < n → (g i).isSome = true) :
    (List.range n).find? (fun j => (g j).isNone) = none := by
  rw [List.find?_eq_none]
  intro i below
  simpa [Option.isSome_iff_ne_none] using all i (List.mem_range.1 below)

theorem exec_sysParamGet (taken : s.accepts 0x0302 false true e u o) (counted : paramCount e = some n) :
    exec (.sysParamGet e) s = .next (match (List.range n).find? (fun i => (u.param (paramId e i)).isNone) with
      | some i => u.answerUnknown o i
      | none => u.answer o .done 0 (u.paramAnswer e n)) := by
  refine congrArg Host.Outcome.next ((command_accepts taken _).trans ?_)
  rw [counted] <;> rfl

/-- The entries of a set are stored one after another. -/
def paramsStored (u : State) (e : Entry) (n : Nat) : State :=
  (List.range n).foldl (fun s i => s.store (paramId e i) (Entry.field e (8 + 12 * i) 4)) u

theorem paramsStored_params (u : State) (e : Entry) (n : Nat) : paramsStored u e n = { u with params := (paramsStored u e n).params } :=
  List.foldlRecOn (motive := fun t : State => t = { u with params := t.params }) _ _ rfl fun t alone i _ => by
    rw [alone]; rfl

theorem exec_sysParamSet (taken : s.accepts 0x0303 true true e u o) (counted : paramCount e = some n) :
    exec (.sysParamSet e) s = .next (match (List.range n).find? (fun i => (writableParam (paramId e i)).isNone) with
      | some i => u.answerUnknown o i
      | none => (paramsStored u e n).answer o .done 0 ((paramsStored u e n).paramAnswer e n)) := by
  refine congrArg Host.Outcome.next ((command_accepts taken _).trans ?_)
  rw [counted]
  rfl

end

/-- Settles O54: a datagram by the response kept for it, a parameter command by the first entry that is missing. -/
theorem portAndSystemCommands : Obligations.PortAndSystemCommands := by
  intro s u o e f bytes op n data port
  refine ⟨fun running jack up => ?_, ⟨_, rfl, not_mem_removeAll _ _, fun m other => by simp [mem_removeAll, other], rfl, rfl⟩,
    fun taken count least most sized => ?_, fun taken count least most sized => ?_, fun m taken wrong => ?_, fun taken => ?_⟩
  · have portUp : s.portUp = true := by simp [State.portUp, running, jack, up]
    refine ⟨fun wrong => ?_, fun right => ?_, ⟨_, rfl, if_pos ⟨portUp, rfl⟩⟩, ⟨_, rfl, if_pos ⟨portUp, rfl⟩⟩, fun x other =>
      ⟨if_neg (fun ⟨_, same⟩ => other same), if_neg (fun ⟨_, same⟩ => other same)⟩⟩
    · rw [exec_udpDatagram portUp port, if_pos wrong]
    · rw [exec_udpDatagram portUp port, if_neg (by simp [right])]
      refine ⟨fun x named opened kept session tag only => ?_, fun none' => ?_⟩
      · have stored : s.storedResponse f = some x := by
          subst port; exact storedResponse_of_only named opened kept session tag only
        rw [datagram_of_stored stored]
        subst port
        exact ⟨_, rfl, rfl⟩
      · have fresh : s.storedResponse f = none := storedResponse_of_none (by subst port; exact none')
        refine ⟨fun known => ⟨_, rfl, by rw [datagram_of_known fresh known]⟩, fun unknown short sound => ?_⟩
        rw [datagram_of_unknown fresh unknown (by subst port; exact short) sound]
  · have counted := paramCount_of_sized count least most sized
    refine ⟨fun all => ?_, fun i below missing first => ?_⟩
    · rw [exec_sysParamGet taken counted, find_none_of_all _ all]
    · rw [exec_sysParamGet taken counted, find_first_none _ below missing first]
      rfl
  · have counted := paramCount_of_sized count least most sized
    refine ⟨fun all => ⟨paramsStored u e n, ?_, paramsStored_params u e n, fun one => ?_⟩, fun i below missing first => ?_⟩
    · rw [exec_sysParamSet taken counted, find_none_of_all _ all]
    · rw [one]; rfl
    · rw [exec_sysParamSet taken counted, find_first_none _ below missing first]
      rfl
  · have malformed := paramCount_of_unsized wrong
    obtain ⟨rfl, taken⟩ | ⟨rfl, taken⟩ := taken <;>
    · refine congrArg Host.Outcome.next ((command_accepts taken _).trans ?_)
      rw [malformed]
  · refine congrArg Host.Outcome.next ((command_accepts taken _).trans ?_)
    obtain ⟨h, rfl⟩ := accepts_host taken
    unfold State.identify Variant.code
    rfl

end Sys2Proof.Laws
end

section
/-! The duplex pair (R284, R285, R294, R295, R297): the referee's decision, the cold take-over and the switch-back. Settles O45. -/

namespace Sys2Proof.Laws
open Sys2Proof Sys2Proof.Machine

/-! ### The referee (R284) -/

section
variable {d : Duplex} {h : Nat}

/-- A decision moves the holder and its number alone. -/
theorem decide'_alone (d : Duplex) : d.decide' = { d with holder := d.decide'.holder, seq := d.decide'.seq } := by
  unfold Duplex.decide'
  dsimp only
  split
  · rfl
  · split <;> rfl

theorem keeps_iff : d.keeps = true ↔ d.holder ≠ 0 ∧ d.miss d.holder < 3 ∧ member (d.hb d.holder) 0 = true ∧
    (member (d.hb d.holder) 3 = false ∨ d.fit (3 - d.holder) = false) := by
  unfold Duplex.keeps
  simp only [Bool.and_eq_true, bne_iff_ne, decide_eq_true_eq, Bool.not_eq_true', Bool.and_eq_false_iff, and_assoc]

theorem decide'_of_keeps (keeps : d.keeps = true) : d.decide' = d := if_pos keeps

/-- A holder that does not stay gives the mark to its partner where that is fit, else to none. -/
theorem decide'_of_falls (falls : ¬ d.keeps = true) (held : d.holder ≠ 0) : d.decide' =
    if d.fit (3 - d.holder) then { d with holder := 3 - d.holder, seq := (d.seq + 1) % 65536 } else { d with holder := 0 } := by
  unfold Duplex.decide'
  rw [if_neg falls, if_neg held]
  cases fit : d.fit (3 - d.holder) <;> simp [fit]

/-- Where none holds the mark, member 0 comes before member 1. -/
theorem decide'_of_none (none' : d.holder = 0) : d.decide' =
    if d.fit 1 then { d with holder := 1, seq := (d.seq + 1) % 65536 }
    else if d.fit 2 then { d with holder := 2, seq := (d.seq + 1) % 65536 } else { d with holder := 0 } := by
  have falls : ¬ d.keeps = true := fun keeps => (keeps_iff.1 keeps).1 none'
  unfold Duplex.decide'
  rw [if_neg falls, if_pos none']
  cases first : d.fit 1 <;> cases second : d.fit 2 <;> simp [first, second]

theorem decide'_partner (two : h = 1 ∨ h = 2) (partner : d.holder = 3 - h)
    (falls : 3 ≤ d.miss d.holder ∨ member (d.hb d.holder) 0 = false ∨ member (d.hb d.holder) 3 = true) (fit : d.fit h = true) :
    d.decide'.holder = h ∧ d.decide'.seq = (d.seq + 1) % 65536 := by
  have other : 3 - d.holder = h := by omega
  rw [decide'_of_falls (fun keeps => ?_) (by omega), other, if_pos fit]
  · exact ⟨rfl, rfl⟩
  · obtain ⟨-, heard, sound, stays⟩ := keeps_iff.1 keeps
    rw [other, fit] at stays
    obtain late | ill | yields := falls
    · omega
    · exact Bool.false_ne_true (ill.symm.trans sound)
    · exact (stays.elim (fun stays => Bool.false_ne_true (stays.symm.trans yields)) (fun unfit => Bool.false_ne_true unfit.symm))

theorem decide'_nobody (two : h = 1 ∨ h = 2) (partner : d.holder = 3 - h) (falls : 3 ≤ d.miss d.holder ∨ member (d.hb d.holder) 0 = false)
    (unfit : d.fit h = false) : d.decide'.holder = 0 ∧ d.decide'.seq = d.seq := by
  have other : 3 - d.holder = h := by omega
  rw [decide'_of_falls (fun keeps => ?_) (by omega), other, if_neg (by simp [unfit])]
  · exact ⟨rfl, rfl⟩
  · obtain ⟨-, heard, sound, -⟩ := keeps_iff.1 keeps
    obtain late | ill := falls
    · omega
    · exact Bool.false_ne_true (ill.symm.trans sound)

end

/-! ### The rows of a member -/

section
variable {s : State}

theorem exec_markAccepted {m : Nat × Nat} (on : s.netOn = true) (member' : s.isDuplex = true) (heard : s.markHeard = some m) :
    exec .markAccepted s = .next { s with duplex := { s.duplex with named := some m, mark := m.1, markSeq := m.2 } } := by
  show execMarkAccepted s = _
  unfold execMarkAccepted
  rw [heard]
  exact if_pos ⟨on, member'⟩

theorem exec_dupSwitchBackFail {n : Nat} (yields : s.duplex.yielding = some n) : exec .dupSwitchBackFail s =
    if s.netOn ∧ 100 ≤ n then
      .next (({ s with duplex := { s.duplex with yielding := none } } : State).raise evDupSwitchBack (leBytes 1 0)) else .next s := by
  show execDupSwitchBackFail s = _
  unfold execDupSwitchBackFail
  rw [yields]

/-- A standby that saw no holder for 20 cycles stops its vital part and starts cold (R294). -/
theorem exec_dupColdTakeover {f : StartFacts} (on : s.netOn = true) (member' : s.isDuplex = true) (unready : s.duplex.ready = false)
    (standby : s.duplex.commanding = false) (long : 20 ≤ s.duplex.noHolder) :
    exec (.dupColdTakeover f) s = .next (((stoppedFor s true).start f 3 false).raise evDupColdTakeover (leBytes 1 s.memberNo)) :=
  if_pos ⟨on, member', by simp [unready], by simp [standby], long⟩

/-- A change of the host side, the recorder and the life-cycle record other than its state leaves the switch-back what it was. -/
theorem maySwitchBack_congr {t : State} (parts : ∃ h r l, t = { s with host := h, recorder := r, life := l, lifeOlder := s.life })
    (state : t.life.state = s.life.state) : t.maySwitchBack = s.maySwitchBack := by
  obtain ⟨h, r, l, rfl⟩ := parts
  unfold State.maySwitchBack
  rw [state]
  rfl

theorem switchBack_of_barred {o : Outstanding} {b : List Byte} (barred : s.maySwitchBack = false) :
    s.switchBack o b = s.answer o .state 0 [] := if_pos (by simp [barred])

theorem switchBack_of_may {o : Outstanding} {b : List Byte} (may : s.maySwitchBack = true) : s.switchBack o b =
    if fieldAt (tokBody b) 0 2 ≠ s.partnerId then s.answer o .auth 0 []
    else (({ s with duplex := { s.duplex with yielding := some 0 } } : State).recordBatch
      [recKeep 0x0630 0 (leBytes 4 (tokSeq b) ++ leBytes 2 s.partnerId ++ leBytes 2 o.session)]).answer o .done 0 (leBytes 2 s.partnerId) :=
  if_neg (by simp [may])

end

/-- Settles O45: the referee by its holder and the partner's fitness, the switch-back by what the count of its token leaves. -/
theorem duplexMarkAndTakeOver : Obligations.DuplexMarkAndTakeOver := by
  intro s u o en sig f h
  refine ⟨?_, fun m on member' heard => ⟨_, rfl, exec_markAccepted on member' heard⟩, fun on member' unready standby => ⟨fun short => ?_, fun long
    passes => ?_⟩, fun n on yields => ⟨fun long => ⟨_, rfl, ?_⟩, fun short => ?_⟩, fun taken => ?_, ?_⟩
  · rintro d on running referee rfl
    generalize noted : s.duplex.note (s.heartbeat 0) (s.heartbeat 1) = d
    refine ⟨d.decide', noted ▸ if_pos ⟨on, running, referee⟩, decide'_alone d, fun held heard sound stays => ?_, decide'_partner, decide'_nobody,
      fun none' first => ?_, fun none' first second => ?_, fun none' first second => ?_⟩
    · rw [decide'_of_keeps (keeps_iff.2 ⟨held, heard, sound, stays⟩)]
      exact ⟨rfl, rfl⟩
    · rw [decide'_of_none none', if_pos first]
      exact ⟨rfl, rfl⟩
    · rw [decide'_of_none none', if_neg (by simp [first]), if_pos second]
      exact ⟨rfl, rfl⟩
    · rw [decide'_of_none none', if_neg (by simp [first]), if_neg (by simp [second])]
      exact ⟨rfl, rfl⟩
  · exact if_neg (by omega)
  · exact ⟨s.stopVital, (stoppedFor s true).start f 3 false, rfl, stopVital_outputsOpen s, rfl, (start_stoppedFor passes true 3).1,
      exec_dupColdTakeover on member' unready standby long⟩
  · rw [exec_dupSwitchBackFail yields, if_pos ⟨on, long⟩]
  · rw [exec_dupSwitchBackFail yields, if_neg (by omega)]
  · refine congrArg Host.Outcome.next ((command_accepts taken _).trans ?_)
    obtain ⟨l, rfl⟩ := accepts_host taken
    have same : ({ s with host := l } : State).isDuplex = s.isDuplex := rfl
    rw [same]
    cases s.isDuplex <;> rfl
  · rintro b v taken rfl sized passes counted
    have ran : exec (.dupSwitchBack en sig) s = .next (v.switchBack o (Entry.body en)) := counted ▸
      congrArg Host.Outcome.next (command_withToken_of_pass (run := fun o s => s.switchBack o (Entry.body en)) taken sized passes)
    obtain ⟨l, r, parts⟩ := counted_parts taken (Entry.body en)
    rw [← counted] at parts
    have may : v.maySwitchBack = s.maySwitchBack := maySwitchBack_congr ⟨l, r, _, parts⟩ (counted ▸ counted_lifeState taken _)
    have partner : v.partnerId = s.partnerId := by rw [parts]; rfl
    have duplex : v.duplex = s.duplex := by rw [parts]
    rw [ran, ← may, ← partner, ← duplex]
    refine ⟨fun barred => by rw [switchBack_of_barred barred], fun allowed other => ?_, fun allowed named => ⟨_, _, rfl, rfl, ?_⟩⟩
    · rw [switchBack_of_may allowed, if_pos other]
    · rw [switchBack_of_may allowed, if_neg (by simp [named])]

end Sys2Proof.Laws
end

section
/-! Inauguration attempts (R265 to R267, R272, R273, R279): what an attempt leaves, and the rows that begin one or fail it. Settles O43. -/

namespace Sys2Proof.Laws
open Sys2Proof Sys2Proof.Machine

/-! ### The flood of STOP frames -/

section
variable {s : State}

/-- The ports on which a STOP frame of the given ones leaves. -/
def floodPorts (s : State) (ports : List PortId) : List PortId := ports.filter (fun p => (s.net.ports.get p).mode == .up)

/-- What leaves on a port when the unit sends a payload (R266). -/
def inaugOut (payload : List Byte) (p : PortId) : TxFrame := { port := p, bytes := frameBytes (inaugFrame p payload), broken := false }

theorem floodFold_eq (m : StopMsg) : ∀ (l : List PortId) (s : State), l.foldl (fun t p =>
      let t := t.emit p (inaugFrame p (stopBytes m)) false
      { t with train := { t.train with stops := (p, m) :: t.train.stops } }) s = { s with
    net := { s.net with sent := (l.map (inaugOut (stopBytes m))).reverse ++ s.net.sent },
    train := { s.train with stops := (l.map (fun p => (p, m))).reverse ++ s.train.stops } }
  | [], _ => rfl
  | p :: l, s => by
    rw [List.foldl_cons, floodFold_eq m l]
    simp only [State.emit, inaugOut, List.map_cons, List.reverse_cons, List.append_assoc, List.cons_append, List.nil_append]

/-- The state in which a new attempt has begun, before a line of one proposes (R265 to R267). -/
theorem beginAttempt_eq (s : State) (a cause : Nat) (ports : List PortId) : s.beginAttempt a cause ports = { s with
    net := { s.net with
      sent := ((floodPorts s ports).map (inaugOut (stopBytes { cause := cause, attempt := a }))).reverse ++ s.net.sent,
      mode := .inaugurating, countKnown := false, adopt := none, copies := [], good := 0, silent := 0 },
    train := { s.train with
      stops := ((floodPorts s ports).map (fun p => (p, ({ cause := cause, attempt := a } : StopMsg)))).reverse ++ s.train.stops,
      attempt := a, cause := cause, results := [], sweeps := 0, sinceEntry := 0, state := 1, number := 0, orient := 0, count := 0,
      coupled1 := s.coupledEnd 1, coupled2 := s.coupledEnd 2 } } := by
  unfold State.beginAttempt State.floodStop
  rw [floodFold_eq]
  rfl

end

/-! ### The proposal of a line of one (R268, R269) -/

/-- What a proposal leaves of the attempt: its number and cause, what it sent, and the proofs that failed. -/
structure AttemptKept (s t : State) : Prop where
  attempt : t.train.attempt = s.train.attempt
  cause : t.train.cause = s.train.cause
  stops : t.train.stops = s.train.stops
  sent : t.net.sent = s.net.sent
  proofFails : t.train.proofFails = s.train.proofFails

section
variable (s : State)

theorem failAttempt_train (cause : Nat) : (s.failAttempt cause).train = { s.train with
    state := 4, failCause := cause, fails := sat32 s.train.fails 1, number := 0, orient := 0, count := 0 } := raise_train ..

theorem failAttempt_kept (cause : Nat) : AttemptKept s (s.failAttempt cause) := by
  constructor <;> simp only [failAttempt_train, failAttempt_net]

/-- The state of a node that took its place in a line (R270, R271). -/
def placed (s : State) (l : List SweepEntry) (number orient : Nat) : State :=
  { s with
    train := { s.train with number := number, orient := orient, count := l.length },
    net := { s.net with mode := .listen, waited := 0, arrivals := [], sends := false, imp := some (derivedImposition l.length),
                        nodes := derivedNodes l.length, self := 0x7F00 + number, buffers := [], copies := [], prev := [], good := 0,
                        silent := 0, tx := [], txNext := none } }

theorem takePlace_of_number {l : List SweepEntry} {front number orient : Nat} (numbered : lineNumber l front s.vehicle = some (number, orient)) :
    s.takePlace l front = if !((derivedImposition l.length).timingOk 1000000 && (derivedImposition l.length).rulesOk (derivedNodes l.length) [0])
      then s.failAttempt causeNoAgree else placed s l number orient := by
  unfold State.takePlace
  rw [numbered]
  rfl

theorem takePlace_of_unnumbered {l : List SweepEntry} {front : Nat} (unnumbered : lineNumber l front s.vehicle = none) :
    s.takePlace l front = s.failAttempt causeNoAgree := by
  unfold State.takePlace
  rw [unnumbered]

/-- A node that takes its place does so with its number, or fails. -/
theorem takePlace_cases (l : List SweepEntry) (front : Nat) : (∃ cause, s.takePlace l front = s.failAttempt cause) ∨
    ∃ number orient, lineNumber l front s.vehicle = some (number, orient) ∧ s.takePlace l front = placed s l number orient := by
  cases numbered : lineNumber l front s.vehicle with
  | none => exact Or.inl ⟨_, takePlace_of_unnumbered s numbered⟩
  | some p =>
    rw [takePlace_of_number s numbered]
    split
    · exact Or.inl ⟨_, rfl⟩
    · exact Or.inr ⟨p.1, p.2, rfl, rfl⟩

/-- A proposal fails the attempt or gives the node its place. -/
theorem proposeLine_cases (m : SweepMsg) : (∃ cause, s.proposeLine m = s.failAttempt cause) ∨
    ∃ l front number orient, propose m = .line l front ∧ lineNumber l front s.vehicle = some (number, orient) ∧ s.proposeLine m = placed s l number orient := by
  unfold State.proposeLine
  cases proposal : propose m with
  | fail c => exact Or.inl ⟨c, rfl⟩
  | line l front =>
    obtain ⟨cause, failed⟩ | ⟨number, orient, numbered, taken⟩ := takePlace_cases s l front
    · exact Or.inl ⟨cause, failed⟩
    · exact Or.inr ⟨l, front, number, orient, rfl, numbered, taken⟩

theorem proposeLine_kept (m : SweepMsg) : AttemptKept s (s.proposeLine m) := by
  obtain ⟨cause, failed⟩ | ⟨l, front, number, orient, -, -, taken⟩ := proposeLine_cases s m
  · rw [failed]; exact failAttempt_kept s cause
  · rw [taken]; exact ⟨rfl, rfl, rfl, rfl, rfl⟩

theorem loneLine_kept : AttemptKept s s.loneLine := by
  unfold State.loneLine
  split
  · exact proposeLine_kept ..
  · exact ⟨rfl, rfl, rfl, rfl, rfl⟩

/-- The one entry of a sweep that a proposal accepts is the whole line. -/
theorem propose_single {e : SweepEntry} {a : Nat} {l : List SweepEntry} {front : Nat}
    (proposed : propose { overflow := false, attempt := a, entries := [e] } = .line l front) : l = [e] := by
  unfold propose at proposed
  rw [if_neg (by simp)] at proposed
  split at proposed
  · simp only [List.head?_cons, List.getLast?_singleton, List.length_singleton, if_true] at proposed
    exact ((Proposal.line.injEq ..).mp proposed).1.symm
  next f c only =>
    have own : f = e := by
      have mem : (f, c) ∈ ([e] : List SweepEntry).flatMap (fun e => (SweepEntry.cabs e).map (fun c => (e, c))) := by rw [only]; simp
      simp only [List.flatMap_cons, List.flatMap_nil, List.append_nil, List.mem_map, Prod.mk.injEq] at mem
      obtain ⟨_, _, same, _⟩ := mem
      exact same.symm
    split at proposed
    · rw [← ((Proposal.line.injEq ..).mp proposed).1, own]
      exact if_pos rfl
    · cases proposed
  · cases proposed

/-- A vehicle alone is number 1 of its line. -/
theorem lineNumber_single {e : SweepEntry} {front number orient : Nat} (numbered : lineNumber [e] front s.vehicle = some (number, orient)) :
    number = 1 := by
  unfold lineNumber at numbered
  obtain ⟨i, found, pair⟩ := Option.map_eq_some_iff.1 numbered
  have first : i = 0 := by
    unfold findIdx at found
    obtain ⟨q, listed, rfl⟩ := Option.map_eq_some_iff.1 found
    have held := List.mem_of_find?_eq_some listed
    obtain rfl : q = (0, e) := by simpa [indexed] using held
    rfl
  rw [first] at pair
  exact (congrArg Prod.fst pair).symm

/-- A line of one fails its attempt or listens as number 1 of 1. -/
theorem loneLine_alone (alone : s.lineOfOne = true) :
    s.loneLine.train.state = 4 ∨ (s.loneLine.net.mode = .listen ∧ s.loneLine.train.number = 1 ∧ s.loneLine.train.count = 1) := by
  unfold State.loneLine
  rw [if_pos alone]
  obtain ⟨cause, failed⟩ | ⟨l, front, number, orient, proposed, numbered, taken⟩ := proposeLine_cases s
    { overflow := false, attempt := s.train.attempt, entries := [s.ownEntryFor 2] }
  · rw [failed, failAttempt_train]
    exact Or.inl rfl
  · obtain rfl := propose_single proposed
    rw [taken]
    exact Or.inr ⟨rfl, lineNumber_single s numbered, rfl⟩

end

/-! ### Attempts that begin -/

section
variable {s u : State} {o : Outstanding} {en : Entry} {p : PortId} {fr : Frame} {m : StopMsg}

theorem attempt_same (s : State) (a cause : Nat) (ports : List PortId) : Same 0x40160 s (s.beginAttempt a cause ports).loneLine :=
  ((beginAttempt_same ..).mono rfl).chain (loneLine_same _) rfl

/-- An attempt begins as the statement of R265 to R268 has it. -/
theorem attempt_begun (s : State) (a cause : Nat) (ports : List PortId) : AttemptBegun s (s.beginAttempt a cause ports).loneLine a cause ports := by
  have same := attempt_same s a cause ports
  have kept := loneLine_kept (s.beginAttempt a cause ports)
  have alone : (s.beginAttempt a cause ports).lineOfOne = s.lineOfOne := by rw [beginAttempt_eq]; rfl
  refine ⟨⟨?_, ?_⟩, ?_, ?_, ⟨same.lanes rfl, same.platen rfl, same.field rfl, same.power rfl⟩, fun many => ?_, fun one => ?_⟩
  · rw [kept.attempt, beginAttempt_eq]
  · rw [kept.cause, beginAttempt_eq]
  · rw [kept.stops, beginAttempt_eq]
    rfl
  · rw [kept.sent, beginAttempt_eq]
    rfl
  · unfold State.loneLine
    rw [if_neg (by simp [alone, many]), beginAttempt_eq]
    exact ⟨rfl, rfl, rfl, rfl, rfl, rfl, rfl⟩
  · exact loneLine_alone _ (alone.trans one)

theorem newAttempt_of_inaugurates (takes : s.inaugurates = true) (cause : Nat) :
    s.newAttempt cause = (s.beginAttempt (nextAttempt s.train.attempt) cause PortId.all).loneLine := if_pos takes

theorem newAttempt_begun (takes : s.inaugurates = true) (cause : Nat) :
    AttemptBegun s (s.newAttempt cause) (nextAttempt s.train.attempt) cause PortId.all := by
  rw [newAttempt_of_inaugurates takes]
  exact attempt_begun ..

theorem newAttempt_proofFails (takes : s.inaugurates = true) (cause : Nat) : (s.newAttempt cause).train.proofFails = s.train.proofFails := by
  rw [newAttempt_of_inaugurates takes, (loneLine_kept _).proofFails, beginAttempt_eq]

/-- An attempt that begins after one failed: what it begins from differs in what the failure left. -/
theorem newAttempt_after_fail (takes : s.inaugurates = true) (failed cause : Nat) :
    AttemptBegun s ((s.failAttempt failed).newAttempt cause) (nextAttempt s.train.attempt) cause PortId.all ∧
    (s.lineOfOne = false → ((s.failAttempt failed).newAttempt cause).train.failCause = failed ∧
      ((s.failAttempt failed).newAttempt cause).train.fails = sat32 s.train.fails 1) := by
  have train := failAttempt_train s failed
  have net := failAttempt_net s failed
  have same := failAttempt_same s failed
  have still : (s.failAttempt failed).inaugurates = true := by
    rw [← takes]
    unfold State.inaugurates State.netOn State.formeFits
    rw [isTrain_congr (same_forme same rfl rfl), same_forme same rfl rfl, net, same.power rfl]
  have lone : (s.failAttempt failed).lineOfOne = s.lineOfOne := by
    unfold State.lineOfOne State.coupledEnd
    rw [net]
  obtain ⟨attempt, stops, frames, kept, waits, alone⟩ := newAttempt_begun still cause
  simp only [train, net, lone, same.lanes rfl, same.platen rfl, same.field rfl, same.power rfl] at attempt stops frames kept waits alone
  refine ⟨⟨attempt, stops, frames, kept, waits, alone⟩, fun many => ?_⟩
  rw [newAttempt_of_inaugurates still]
  unfold State.loneLine
  rw [if_neg, beginAttempt_eq]
  · dsimp only
    rw [train]
    exact ⟨rfl, rfl⟩
  · rw [beginAttempt_eq]
    exact (Bool.eq_false_iff.1 (lone.trans many))

/-! ### The rows -/

theorem attemptGreater_iff {carried own : Nat} (small : own < 65536) :
    attemptGreater carried own = true ↔ 1 ≤ (carried + 65536 - own) % 65536 ∧ (carried + 65536 - own) % 65536 ≤ 32767 := by
  unfold attemptGreater
  rw [Nat.mod_eq_of_lt small, Bool.and_eq_true, decide_eq_true_iff, decide_eq_true_iff]

theorem stopIn_of_fail {n : Nat} (fails : s.inaugFail p fr true = some n) : s.stopIn p fr = s.setPort p (fun q => q.count n) := by
  unfold State.stopIn
  rw [fails]

theorem stopIn_of_good (passes : s.inaugFail p fr true = none) (stop : stopOf fr.payload = some m) : s.stopIn p fr =
    if attemptGreater m.attempt s.train.attempt then
      ((s.setPort p (fun q => q.count 0)).beginAttempt m.attempt m.cause (PortId.all.filter (· != p))).loneLine
    else s.setPort p (fun q => q.count 0) := by
  unfold State.stopIn
  rw [passes, stop]
  rfl

theorem exec_endChange {e : Nat} (takes : s.inaugurates = true) (end_ : e = 1 ∨ e = 2) (changed : s.coupledEnd e ≠ s.train.seen e) :
    exec (.endChange e) s = .next (({ s with train := { s.train with proofFails := 0 } } : State).newAttempt 1) :=
  if_pos ⟨end_, takes, changed⟩

theorem inaugurate_of_barred (barred : s.serves = false ∨ s.inaugurates = false ∨ s.train.state = 1) : s.inaugurate o = s.answer o .state 0 [] :=
  if_pos (by simpa using barred)

theorem inaugurate_of_ready (ready : s.serves = true ∧ s.inaugurates = true ∧ s.train.state ≠ 1) : s.inaugurate o =
    (({ s with train := { s.train with proofFails := 0 } } : State).newAttempt 4).answer o .done 0
      (leBytes 2 (({ s with train := { s.train with proofFails := 0 } } : State).newAttempt 4).train.attempt) :=
  if_neg (by simpa using ready)

end

/-- Settles O43: every row that begins an attempt by `attempt_begun`, from the state that its own step leaves. -/
theorem attemptsBeginAndFail : Obligations.AttemptsBeginAndFail := by
  intro s u o en
  refine ⟨fun takes => ⟨?_, fun e end_ => ⟨fun changed => ?_, fun same => ?_⟩, ?_, fun mode state lists => ?_, fun state live linked => ?_,
    fun failed cause line => ?_⟩, fun taken => ⟨fun ready => ?_, fun barred => ?_⟩⟩
  · rintro cause _ rfl
    rfl
  · have begun := newAttempt_begun (s := { s with train := { s.train with proofFails := 0 } }) takes 1
    have proofs := newAttempt_proofFails (s := { s with train := { s.train with proofFails := 0 } }) takes 1
    obtain ⟨attempt, stops, frames, kept, waits, alone⟩ := begun
    exact ⟨_, exec_endChange takes end_ changed, ⟨attempt, stops, frames, kept, waits, alone⟩, proofs⟩
  · exact if_neg fun ⟨_, _, changed⟩ => changed same
  · rintro p fr m a up small stop rfl
    have ran : exec (.stopFrame p fr) s = .next (s.stopIn p fr) := if_pos ⟨takes, up⟩
    refine ⟨fun n fails => by rw [ran, stopIn_of_fail fails], fun passes => ⟨_, rfl, fun newer => ?_, fun older => ?_⟩⟩
    · refine ⟨_, ran, ?_⟩
      rw [stopIn_of_good passes stop, if_pos ((attemptGreater_iff small).2 newer)]
      exact attempt_begun ..
    · rw [ran, stopIn_of_good passes stop, if_neg (fun newer => ?_)]
      have := (attemptGreater_iff small).1 newer
      omega
  · exact if_pos (by simp [State.discovering, takes, mode, state, lists])
  · obtain ⟨begun, counted⟩ := newAttempt_after_fail takes causeTimeout 5
    exact ⟨_, if_pos ⟨takes, state, live, linked⟩, begun, counted⟩
  · exact ⟨_, if_pos ⟨takes, failed, cause, line⟩, newAttempt_begun takes 5⟩
  · have ran : exec (.trnInaugurate en) s = .next (u.inaugurate o) := congrArg Host.Outcome.next (command_accepts taken _)
    obtain ⟨l, rfl⟩ := accepts_host taken
    rw [inaugurate_of_ready (s := { s with host := l }) ready] at ran
    obtain ⟨-, takes, -⟩ := ready
    obtain ⟨attempt, stops, frames, kept, waits, alone⟩ :=
      newAttempt_begun (s := { s with host := l, train := { s.train with proofFails := 0 } }) takes 4
    exact ⟨_, ⟨attempt, stops, frames, kept, waits, alone⟩,
      newAttempt_proofFails (s := { s with host := l, train := { s.train with proofFails := 0 } }) takes 4, ran⟩
  · have ran : exec (.trnInaugurate en) s = .next (u.inaugurate o) := congrArg Host.Outcome.next (command_accepts taken _)
    rw [ran]
    obtain ⟨l, rfl⟩ := accepts_host taken
    rw [inaugurate_of_barred (s := { s with host := l }) barred]

end Sys2Proof.Laws
end

section
/-! Sweeps and the proposal of a line (R268 to R270), the proof request (R275), and the train status commands (R279). Settles O44. -/

namespace Sys2Proof.Laws
open Sys2Proof Sys2Proof.Machine

/-! ### Sweeps that leave -/

section
variable {s : State} {p : PortId} {fr : Frame} {m : SweepMsg} {code : Nat}

/-- A sweep or result leaves on a port that is up, and is remembered. -/
theorem sendSweep_eq (s : State) (p : PortId) (code : Nat) (m : SweepMsg) : s.sendSweep p code m = { s with
    train := { s.train with sent := if (s.net.ports.get p).mode = .up then (p, code, m) :: s.train.sent else s.train.sent },
    net := { s.net with sent := if (s.net.ports.get p).mode = .up then inaugOut (sweepBytes code m) p :: s.net.sent else s.net.sent } } := by
  unfold State.sendSweep
  split <;> rfl

theorem sweepFold_eq (code : Nat) (m : SweepMsg) : ∀ (l : List PortId) (s : State), l.foldl (fun t p => t.sendSweep p code m) s = { s with
    train := { s.train with
      sent := ((l.filter (fun p => (s.net.ports.get p).mode == .up)).map (fun p => (p, code, m))).reverse ++ s.train.sent },
    net := { s.net with
      sent := ((l.filter (fun p => (s.net.ports.get p).mode == .up)).map (inaugOut (sweepBytes code m))).reverse ++ s.net.sent } }
  | [], _ => rfl
  | p :: l, s => by
    rw [List.foldl_cons, sweepFold_eq code m l, sendSweep_eq]
    by_cases up : (s.net.ports.get p).mode = .up
    · simp only [up, if_true, List.filter_cons, beq_self_eq_true, List.map_cons, List.reverse_cons, List.append_assoc, List.cons_append,
        List.nil_append]
    · simp only [up, if_false, List.filter_cons, beq_iff_eq]

theorem exec_sweepSend {e : Nat} (end_ : s.lineEnd = some e) (discovering : s.discovering = true) (few : s.train.sweeps < 3) :
    exec .sweepSend s = .next ((endPorts e).foldl
      (fun t p => t.sendSweep p 2 { overflow := false, attempt := s.train.attempt, entries := [s.ownEntryFor (3 - e)] })
      { s with train := { s.train with sweeps := s.train.sweeps + 1 } }) := by
  show execSweepSend s = _
  unfold execSweepSend
  rw [end_]
  exact if_pos ⟨discovering, few⟩

/-! ### Sweeps that come -/

theorem takeSweep_of_fail {n : Nat} (fails : s.inaugFail p fr false = some n) (act : SweepMsg → State → State) :
    s.takeSweep p code fr act = s.setPort p (fun q => q.count n) := by
  unfold State.takeSweep
  rw [fails]

theorem takeSweep_of_good (passes : s.inaugFail p fr false = none) (sweep : sweepOf code fr.payload = some m) (waits : s.train.state = 1)
    (present : m.attempt = s.train.attempt) (act : SweepMsg → State → State) :
    s.takeSweep p code fr act = act m (s.setPort p (fun q => q.count 0)) := by
  unfold State.takeSweep
  rw [passes, sweep]
  exact if_pos ⟨waits, present⟩

/-- A count at a port leaves every link as it is. -/
theorem countPort_mode (s : State) (p q : PortId) (n : Nat) : ((s.setPort p (fun r => r.count n)).net.ports.get q).mode = (s.net.ports.get q).mode := by
  by_cases same : q = p
  · subst same; rw [setPort_get]; rfl
  · exact congrArg Port.mode (port_get_upd_ne _ _ _ _ same)

theorem countPort_coupledEnd (s : State) (p : PortId) (n e : Nat) : (s.setPort p (fun r => r.count n)).coupledEnd e = s.coupledEnd e := by
  unfold State.coupledEnd
  simp only [countPort_mode]

theorem countPort_ownEntryFor (s : State) (p : PortId) (n e : Nat) : (s.setPort p (fun r => r.count n)).ownEntryFor e = s.ownEntryFor e := by
  unfold State.ownEntryFor State.vehicle
  rw [countPort_coupledEnd, countPort_coupledEnd, same_forme (setPort_same ..) rfl rfl, setPort_train]

end

/-! ### The two directions of a sweep (R268) -/

section
variable {s : State} {p : PortId} {fr : Frame} {m n : SweepMsg}

theorem exec_sweepFrame (takes : s.inaugurates = true) (up : (s.net.ports.get p).mode = .up) :
    exec (.sweepFrame p fr) s = .next (s.takeSweep p 2 fr (fun m s => s.sweepIn p m)) := if_pos ⟨takes, up⟩

theorem exec_resultFrame (takes : s.inaugurates = true) (up : (s.net.ports.get p).mode = .up) :
    exec (.resultFrame p fr) s = .next (s.takeSweep p 3 fr (fun m s => s.resultIn p m)) := if_pos ⟨takes, up⟩

theorem sweepIn_of_coupled (entered : n = addEntry m (s.ownEntryFor (portEnd p))) (coupled : s.coupledEnd (3 - portEnd p) = true) :
    s.sweepIn p m = s.sendSweep (PortId.opposite p) 2 n := by
  subst entered
  exact if_pos coupled

theorem sweepIn_of_end (entered : n = addEntry m (s.ownEntryFor (portEnd p))) (open_ : s.coupledEnd (3 - portEnd p) = false) :
    s.sweepIn p m = ((s.sendSweep p 3 n).recordResult (portRing p) n).settleLists := by
  subst entered
  exact if_neg (by simp [open_])

theorem mem_recordResult (s : State) (ring : Nat) (m : SweepMsg) : (ring, m) ∈ (s.recordResult ring m).train.results :=
  List.mem_append_right _ (List.mem_singleton_self _)

end

/-! ### The proposal (R269, R270) -/

section
variable {s : State} {m : SweepMsg}

theorem settleLists_of_none (none' : s.train.lists = none) : s.settleLists = s := by
  unfold State.settleLists
  rw [none']

theorem settleLists_of_some (lists : s.train.lists = some m) : s.settleLists = s.proposeLine m := by
  unfold State.settleLists
  rw [lists]

theorem proposeLine_of_fail {c : Nat} (refused : propose m = .fail c) : s.proposeLine m = s.failAttempt c := by
  unfold State.proposeLine
  rw [refused]

theorem proposeLine_of_line {l : List SweepEntry} {front : Nat} (accepted : propose m = .line l front) : s.proposeLine m = s.takePlace l front := by
  unfold State.proposeLine
  rw [accepted]

end

/-! ### The proof request (R275) -/

/-- A lane whose claim is due sets its request. -/
theorem proofRequest_train {e : Env} {v : Ev} (train : e.forme.header.personality = 2) (claimed : v.core.train.claim.isSome = true)
    (due : trainRequest v.core.train.everPassed v.core.train.fails = true) :
    (v.proofRequest e).core.train = { v.core.train with request := true } := by
  have set : v.proofRequest e = { v with core := { v.core with train := { v.core.train with request := true } } } :=
    if_pos ⟨train, claimed, due⟩
  rw [set]

/-- Settles O44: sweeps by the fold over the ports of an end, the line by its proposal. -/
theorem sweepsMakeTheLine : Obligations.SweepsMakeTheLine := by
  intro s u o en p fr m
  refine ⟨?_, fun takes up => ⟨fun n fails => ⟨?_, ?_⟩, ?_⟩, settleLists_of_none, fun l lists => ⟨fun c refused => ?_, ?_⟩, fun running => ?_,
    fun taken => ?_, fun taken => ?_⟩
  · rintro e w g end_ discovering few rfl rfl
    refine ⟨_, _, rfl, rfl, ?_⟩
    rw [exec_sweepSend end_ discovering few, sweepFold_eq]
    rfl
  · rw [exec_sweepFrame takes up, takeSweep_of_fail fails]
  · rw [exec_resultFrame takes up, takeSweep_of_fail fails]
  · rintro w far passes waits present rfl rfl
    have mode (q : PortId) := countPort_mode s p q 0
    refine ⟨fun n sweep entered => ?_, fun sweep => ?_⟩
    · have added : n = addEntry m ((s.setPort p (fun q => q.count 0)).ownEntryFor (portEnd p)) := by
        rw [countPort_ownEntryFor]; exact entered
      rw [exec_sweepFrame takes up, takeSweep_of_good passes sweep waits present]
      refine ⟨fun coupled => ?_, fun open_ => ?_⟩
      · rw [sweepIn_of_coupled added ((countPort_coupledEnd ..).trans coupled), sendSweep_eq, mode]
        exact ⟨_, rfl, rfl, rfl, rfl⟩
      · rw [sweepIn_of_end added ((countPort_coupledEnd ..).trans open_), sendSweep_eq, mode, if_pos up, if_pos up]
        exact ⟨_, rfl, rfl, mem_recordResult .., rfl, rfl⟩
    · rw [exec_resultFrame takes up, takeSweep_of_good passes sweep waits present]
      unfold State.resultIn
      rw [sendSweep_eq]
      have far : (((s.setPort p (fun q => q.count 0)).recordResult (portRing p) m).net.ports.get p.opposite).mode =
        (s.net.ports.get p.opposite).mode := mode _
      rw [far]
      exact ⟨_, rfl, rfl, mem_recordResult (s.setPort p (fun q => q.count 0)) .., rfl, rfl⟩
  · rw [settleLists_of_some lists, proposeLine_of_fail refused]
  · intro r f i a accepted numbered timing rules
    rw [settleLists_of_some lists, proposeLine_of_line accepted, takePlace_of_number s numbered, if_neg (by simp [timing, rules])]
    exact ⟨_, rfl, rfl, rfl, rfl, rfl, rfl, rfl, rfl, rfl, rfl⟩
  · refine ⟨_, if_pos running, rfl, ?_⟩
    rintro l f w inService formed rfl train claimed due
    have ran : s.inLanes Ev.proofRequest = s.laneOp Ev.proofRequest := (if_pos running).symm
    rw [ran, laneOp_get running inService formed]
    exact proofRequest_train (e := s.envOf l f) (v := Ev.start (s.lanes.get l).core) train claimed due
  · refine congrArg Host.Outcome.next ((command_accepts taken _).trans ?_)
    obtain ⟨h, rfl⟩ := accepts_host taken
    rw [show ({ s with host := h } : State).isTrain = s.isTrain from rfl]
    cases s.isTrain <;> rfl
  · refine congrArg Host.Outcome.next ((command_accepts taken _).trans ?_)
    obtain ⟨h, rfl⟩ := accepts_host taken
    rw [show ({ s with host := h } : State).isTrain = s.isTrain from rfl]
    cases s.isTrain <;> rfl

end Sys2Proof.Laws
end

section
/-! Frames of the Ahnong network (R234, R237, R240, R245, R246, R248, R256): what leaves in a slot or minislot, what a received frame does,
the comparison of copies, the network-cycle boundary and lost nodes. Settles O40. -/

namespace Sys2Proof.Laws
open Sys2Proof Sys2Proof.Machine

/-! ### Own frames and their guardians (R234, R239, R254) -/

section
variable {s t : State} {f : Frame} {devs : List (PortId × Int)}

/-- Start of the frame on a port off its nominal time. -/
def startDev (devs : List (PortId × Int)) (p : PortId) : Int := ((devs.find? (fun x => x.1 == p)).map (·.2)).getD 0

/-- What leaves on a port when the guardian lets it pass. -/
def ownOut (s : State) (f : Frame) (p : PortId) : TxFrame :=
  { port := p, bytes := frameBytes { f with flags := f.flags + s.portFlags p }, broken := false }

/-- One port of an own frame: cut and counted, or sent. -/
def emitStep (s : State) (f : Frame) (devs : List (PortId × Int)) (t : State) (p : PortId) : State :=
  if (t.net.ports.get p).cuts (startDev devs p) then t.setPort p (fun q => q.count 7)
  else t.emit p { f with flags := f.flags + s.portFlags p } false

theorem emitOwn_eq : s.emitOwn f devs = s.sendPorts.foldl (emitStep s f devs) s := rfl

theorem emitStep_cut {p : PortId} (cut : (t.net.ports.get p).cuts (startDev devs p) = true) :
    emitStep s f devs t p = t.setPort p (fun q => q.count 7) := if_pos cut

theorem emitStep_sent {p : PortId} (pass : (t.net.ports.get p).cuts (startDev devs p) = false) :
    emitStep s f devs t p = t.emit p { f with flags := f.flags + s.portFlags p } false := if_neg (by simp [pass])

/-- A count leaves what a guardian cuts by. -/
theorem count_cuts (q : Port) (n : Nat) (d : Int) : (q.count n).cuts d = q.cuts d := rfl

/-- Over distinct ports: the frames that pass leave in order, those that are cut are counted at their port, and nothing else changes. -/
theorem emitFold_eq : ∀ (l : List PortId) (t : State), l.Nodup → ∃ ports : Quad Port,
    l.foldl (emitStep s f devs) t = { t with net := { t.net with
      ports := ports,
      sent := ((l.filter (fun q => !(t.net.ports.get q).cuts (startDev devs q))).map (ownOut s f)).reverse ++ t.net.sent } } ∧
    ∀ q, ports.get q = if q ∈ l ∧ (t.net.ports.get q).cuts (startDev devs q) = true then (t.net.ports.get q).count 7 else t.net.ports.get q
  | [], t, _ => ⟨t.net.ports, rfl, fun q => by simp⟩
  | p :: l, t, nodup => by
    obtain ⟨fresh, nodup⟩ := List.nodup_cons.1 nodup
    cases cut : (t.net.ports.get p).cuts (startDev devs p) with
    | true =>
      obtain ⟨ports, folded, got⟩ := emitFold_eq l (t.setPort p (fun q => q.count 7)) nodup
      have cuts (q : PortId) : ((t.setPort p (fun q => q.count 7)).net.ports.get q).cuts (startDev devs q) =
          (t.net.ports.get q).cuts (startDev devs q) := by
        by_cases same : q = p
        · subst same; rw [setPort_get, count_cuts]
        · exact congrArg (Port.cuts · _) (port_get_upd_ne _ _ _ _ same)
      refine ⟨ports, ?_, fun q => ?_⟩
      · rw [List.foldl_cons, emitStep_cut cut, folded]
        simp only [cuts, List.filter_cons, cut, Bool.not_true, Bool.false_eq_true, if_false]
        rfl
      · rw [got, cuts]
        by_cases same : q = p
        · subst same
          rw [if_neg (fun ⟨listed, _⟩ => fresh listed), if_pos ⟨List.mem_cons_self, cut⟩, setPort_get]
        · have other : (t.setPort p (fun q => q.count 7)).net.ports.get q = t.net.ports.get q := port_get_upd_ne _ _ _ _ same
          rw [other]
          simp only [List.mem_cons, same, false_or]
    | false =>
      obtain ⟨ports, folded, got⟩ := emitFold_eq l (t.emit p { f with flags := f.flags + s.portFlags p } false) nodup
      refine ⟨ports, ?_, fun q => ?_⟩
      · rw [List.foldl_cons, emitStep_sent cut, folded, List.filter_cons, cut]
        simp only [Bool.not_false, if_true, List.map_cons, List.reverse_cons, List.append_assoc, List.cons_append, List.nil_append]
        rfl
      · rw [got]
        by_cases same : q = p
        · subst same
          rw [if_neg (fun ⟨listed, _⟩ => fresh listed), if_neg (fun ⟨_, cuts⟩ => Bool.false_ne_true (cut.symm.trans cuts))]
          rfl
        · simp only [List.mem_cons, same, false_or]
          rfl

theorem sendPorts_nodup (s : State) : s.sendPorts.Nodup := List.Nodup.filter _ (by decide)

/-- An own frame leaves on the node's side, but where a guardian cuts it. -/
theorem emitOwn_facts (s : State) (f : Frame) (devs : List (PortId × Int)) : ∃ ports : Quad Port,
    s.emitOwn f devs = { s with net := { s.net with
      ports := ports,
      sent := ((s.sendPorts.filter (fun q => !(s.net.ports.get q).cuts (startDev devs q))).map (ownOut s f)).reverse ++ s.net.sent } } ∧
    ∀ q, ports.get q = if q ∈ s.sendPorts ∧ (s.net.ports.get q).cuts (startDev devs q) = true then (s.net.ports.get q).count 7
      else s.net.ports.get q :=
  emitFold_eq s.sendPorts s (sendPorts_nodup s)

end

/-! ### Static slots and minislots (R234, R237) -/

section
variable {s : State}

theorem exec_staticSlotTransmit {slot : Nat} {devs : List (PortId × Int)} {g : Forme} {x : Nat × ImpEntry} (on : s.netOn = true)
    (running : s.net.mode = .running) (sends : s.net.sends = true) (formed : s.forme = some g) (used : g.usesSlot slot = true)
    (owned : s.net.ownEntry slot = some x) : exec (.staticSlotTransmit slot devs) s = .next (s.transmitStatic g x.1 x.2 devs) := by
  show execStaticSlotTransmit slot devs s = _
  unfold execStaticSlotTransmit
  rw [formed, owned]
  exact if_pos ⟨on, running, sends, used⟩

theorem entryWords_of_unknown (unknown : s.net.countKnown = false) (f : Forme) (entry : Nat) (r : ImpEntry) :
    s.entryWords f entry r = List.replicate 8 0 := if_pos (by simp [unknown])

variable {d : Nat} {heard : Option Nat}

theorem exec_minislot (on : s.netOn = true) (running : s.net.mode = .running) : exec (.minislot heard) s = .next (s.minislotStep heard) :=
  if_pos ⟨on, running⟩

theorem minislotStep_of_none {other : Nat} (count : d = (s.net.imp.map (·.minislots)).getD 0) (fills : other = (heard.map minislotsOf).getD 0)
    (within : s.net.minislot ≤ d) (none' : s.ownSegment d s.net.minislot = none) :
    s.minislotStep heard = { s with net := { s.net with minislot := s.net.minislot + max 1 other } } := by
  subst count fills
  unfold State.minislotStep
  dsimp only
  rw [if_neg (by omega), none']

theorem minislotStep_of_some {other : Nat} {g : Segment} {b : Bridge} (count : d = (s.net.imp.map (·.minislots)).getD 0)
    (fills : other = (heard.map minislotsOf).getD 0) (within : s.net.minislot ≤ d) (own : s.ownSegment d s.net.minislot = some (g, b)) {v : State}
    (sent : v = ({ s with bridge := b.send s.me g } : State).emitSegment s.net.minislot) :
    s.minislotStep heard = { v with net := { v.net with minislot := s.net.minislot + max 1 (max other (minislotsOf (Segment.words g))) } } := by
  subst count fills sent
  unfold State.minislotStep
  dsimp only
  rw [if_neg (by omega), own]

/-- The segment as it leaves: its data, kind and destination as they were, with this node as its sender. -/
theorem send_head (b : Bridge) (me : Nat) (g : Segment) : ∃ h, (b.send me g).sent.head? = some h ∧ h.data = g.data ∧ h.kind = g.kind ∧
    h.dest = g.dest ∧ h.sender = me := by
  unfold Bridge.send
  split
  · exact ⟨_, rfl, rfl, rfl, rfl, rfl⟩
  · exact ⟨_, rfl, rfl, rfl, rfl, rfl⟩

theorem emitSegment_of_head {h : Segment} {m : Nat} (head : s.bridge.sent.head? = some h) :
    s.emitSegment m = s.emitOwn (s.ownFrame 4 m s.nodeFlags (segmentBytes h)) [] := by
  unfold State.emitSegment
  rw [head]

theorem ownSegment_of_pick {m : Nat} {g : Segment} {b : Bridge} (on : s.bridge.on = true) (sends : s.net.sends = true) (own : m ∈ s.net.dynamicIds)
    (picked : s.bridge.pick = some (g, b)) : s.ownSegment d m = if fitsSegment d m (Segment.words g) then some (g, b) else none := by
  unfold State.ownSegment
  rw [if_pos ⟨on, sends, by simpa using own⟩, picked]
  cases fits : fitsSegment d m (Segment.words g) <;> simp [Option.filter, fits]

theorem ownSegment_of_other {m : Nat} (other : s.bridge.on = false ∨ s.net.sends = false ∨ m ∉ s.net.dynamicIds ∨ s.bridge.pick = none) :
    s.ownSegment d m = none := by
  unfold State.ownSegment
  obtain off | silent | foreign | idle := other
  · exact if_neg (by simp [off])
  · exact if_neg (by simp [silent])
  · exact if_neg (by simp [foreign])
  · rw [idle]
    exact ite_self _

end

/-! ### Received frames (R240, R248) -/

section
variable {s : State} {p : PortId} {f : Frame}

/-- A forwarded frame reaches the ports' counters and what leaves alone (R236). -/
theorem forward_net (s : State) (p : PortId) (f : Frame) : ∃ ports sent, (s.forward p f).net = { s.net with ports := ports, sent := sent } := by
  unfold State.forward
  dsimp only
  split
  · split
    · exact ⟨s.net.ports, _, rfl⟩
    · split
      · exact ⟨_, _, rfl⟩
      · exact ⟨s.net.ports, _, rfl⟩
  · exact ⟨s.net.ports, s.net.sent, rfl⟩

theorem takeCount_net (s : State) (f : Frame) : ∃ count phase known start adopt slips, (s.takeCount f).net = { s.net with
    count := count, phase := phase, countKnown := known, atStart := start, adopt := adopt, slips := slips } := by
  unfold State.takeCount
  split
  · exact ⟨_, _, _, _, _, _, rfl⟩
  · split
    · exact ⟨_, _, _, _, s.net.adopt, s.net.slips, rfl⟩
    · split
      · exact ⟨s.net.count, s.net.phase, s.net.countKnown, s.net.atStart, _, _, rfl⟩
      · exact ⟨_, _, _, _, _, _, rfl⟩

theorem hear_alone (n : Net) (f : Frame) : n.hear f = { n with arrivals := (n.hear f).arrivals } := by
  unfold Net.hear
  split <;> rfl

/-- The arrival of a sync frame is noted, by this copy or an earlier one (R249). -/
theorem hear_notes {n : Net} (typ : f.typ = 1) (sync : f.flags.testBit 0 = true) : ∃ a ∈ (n.hear f).arrivals, a.1 = f.sender := by
  unfold Net.hear
  by_cases heard : n.arrivals.any (fun h => h.1 == f.sender) = true
  · rw [if_neg (by simp [heard])]
    obtain ⟨a, listed, sender⟩ := List.any_eq_true.1 heard
    exact ⟨a, listed, beq_iff_eq.1 sender⟩
  · rw [if_pos ⟨typ, sync, Bool.not_eq_true' _ ▸ Bool.eq_false_iff.2 heard⟩]
    exact ⟨(f.sender, f.dev), List.mem_append_right _ (List.mem_singleton_self _), rfl⟩

/-- The network after a valid copy has been counted, its count taken and its arrival noted. -/
def noted (s : State) (p : PortId) (f : Frame) : State :=
  let t := ((s.forward p f).setPort p (fun q => q.count 0)).takeCount f
  { t with net := t.net.hear f }

theorem noted_net (s : State) (p : PortId) (f : Frame) : (noted s p f).net.buffers = s.net.buffers ∧ (noted s p f).net.copies = s.net.copies ∧
    (noted s p f).net.imp = s.net.imp ∧ (noted s p f).net.netCycle = s.net.netCycle := by
  obtain ⟨ports, sent, forwarded⟩ := forward_net s p f
  obtain ⟨_, _, _, _, _, _, counted⟩ := takeCount_net ((s.forward p f).setPort p (fun q => q.count 0)) f
  have heard : (noted s p f).net = { ((((s.forward p f).setPort p (fun q => q.count 0)).takeCount f).net) with
      arrivals := (noted s p f).net.arrivals } := hear_alone ..
  have counting : ((s.forward p f).setPort p (fun q => q.count 0)).net = { (s.forward p f).net with
    ports := (s.forward p f).net.ports.upd p (fun q => q.count 0) } := rfl
  rw [heard, counted, counting, forwarded]
  exact ⟨rfl, rfl, rfl, rfl⟩

theorem receive_of_fail {n : Nat} (fails : (s.forward p f).frameFail p f = some n) :
    s.receive p f = (s.forward p f).setPort p (fun q => q.count n) := by
  unfold State.receive
  dsimp only
  rw [fails]

theorem receive_of_good (passes : (s.forward p f).frameFail p f = none) : s.receive p f =
    match (noted s p f).net.entryAt (f.typ == 4) f.slot (noted s p f).net.netCycle with
    | some q => if f.typ = 1 ∧ (noted s p f).readsEntry q.1 then
        { noted s p f with net := { (noted s p f).net with copies := (noted s p f).net.copies ++ [(q.1, p, f.payload)] } } else noted s p f
    | none => noted s p f := by
  unfold State.receive
  dsimp only
  rw [passes]
  rfl

/-- What a valid copy leaves: its arrival, and at most its own copy (R240, R245). -/
theorem receive_notes (passes : (s.forward p f).frameFail p f = none) : (s.receive p f).net.buffers = s.net.buffers ∧
    (f.typ = 1 → f.flags.testBit 0 = true → ∃ a ∈ (s.receive p f).net.arrivals, a.1 = f.sender) ∧
    ((s.receive p f).net.copies = s.net.copies ∨ (s.receive p f).net.copies = s.net.copies ++
      [((s.net.entryAt (f.typ == 4) f.slot s.net.netCycle).map (·.1) |>.getD 0, p, f.payload)]) := by
  obtain ⟨buffers, copies, imp, cycle⟩ := noted_net s p f
  have imposed : (noted s p f).net.entryAt (f.typ == 4) f.slot (noted s p f).net.netCycle = s.net.entryAt (f.typ == 4) f.slot s.net.netCycle := by
    unfold Net.entryAt Net.entries
    rw [imp, cycle]
  have arrival (typ : f.typ = 1) (sync : f.flags.testBit 0 = true) : ∃ a ∈ (noted s p f).net.arrivals, a.1 = f.sender := hear_notes typ sync
  rw [receive_of_good passes, imposed]
  cases found : s.net.entryAt (f.typ == 4) f.slot s.net.netCycle with
  | none => exact ⟨buffers, arrival, Or.inl copies⟩
  | some q =>
    dsimp only
    split
    · exact ⟨buffers, arrival, Or.inr (congrArg (· ++ _) copies)⟩
    · exact ⟨buffers, arrival, Or.inl copies⟩

/-- A frame is taken on a port that is up and has joined, as the state of the network says (R231, R240, Table 12-11). -/
theorem exec_frameReceive (on : s.netOn = true) (up : (s.net.ports.get p).mode = .up) (joined : (s.net.ports.get p).joined = true) :
    exec (.frameReceive p f) s = match s.net.mode with
      | .running => .next (s.receive p f)
      | .integrate => .next (s.receive p f)
      | .listen => .next (let t := s.forward p f; if t.integrates f then t.integrateOn f else t)
      | .links => .next (if s.isBypass then s.forward p f else s)
      | _ => .next s := if_neg (by simp [on, up, joined])

theorem exec_frameReceive_shut (shut : (s.net.ports.get p).mode ≠ .up ∨ (s.net.ports.get p).joined = false) :
    exec (.frameReceive p f) s = .next s := if_pos (by obtain h | h := shut <;> simp [h])

theorem isBypass_links (bypass : s.isBypass = true) : s.net.mode = .links := by
  unfold State.isBypass at bypass
  simp only [Bool.and_eq_true, beq_iff_eq] at bypass
  exact bypass.1.1.1

theorem integrateOn_net (s : State) (f : Frame) : (s.integrateOn f).net.mode = .integrate ∧ (s.integrateOn f).net.netCycle = f.netCycle ∧
    (s.integrateOn f).net.good = 0 := by
  obtain ⟨_, _, _, _, _, _, counted⟩ := takeCount_net
    { s with net := { s.net with mode := .integrate, netCycle := f.netCycle, good := 0, silent := 0, prev := [] } } f
  unfold State.integrateOn
  rw [counted]
  exact ⟨rfl, rfl, rfl⟩

end

/-! ### The comparison of copies (R245) -/

section
variable {s : State} {entry : Nat}

/-- The state in which the copies of an entry are compared: they leave the list. -/
def copiesTaken (s : State) (entry : Nat) : State := { s with net := { s.net with copies := s.net.copies.filter (fun c => c.1 != entry) } }

theorem compareCopies_of_nil (none' : s.usedCopies entry = []) : s.compareCopies entry = copiesTaken s entry := by
  unfold State.compareCopies
  dsimp only
  rw [none']
  rfl

theorem compareCopies_of_cons {c : PortId × List Byte} {l : List (PortId × List Byte)} (used : s.usedCopies entry = c :: l) :
    s.compareCopies entry = if l.all (fun d => d.2 == c.2) then (copiesTaken s entry).refresh entry (payloadWords 8 c.2)
      else ({ copiesTaken s entry with net := { (copiesTaken s entry).net with mismatches := sat32 s.net.mismatches 1 } } : State).recordBatch
        [recCount 0x0608 0] := by
  unfold State.compareCopies
  dsimp only
  rw [used]
  rfl

theorem mem_setBuffer (n : Net) (b : Buffer) : b ∈ (n.setBuffer b).buffers :=
  (sortBy_perm _ _).mem_iff.2 (List.mem_append_right _ (List.mem_singleton_self _))

theorem buffer_entry (n : Net) (entry : Nat) : ((n.buffer entry).getD (Buffer.fresh entry)).entry = entry := by
  unfold Net.buffer
  cases found : n.buffers.find? (fun b => b.entry == entry) with
  | none => rfl
  | some b => exact beq_iff_eq.1 (List.find?_some (p := fun b : Buffer => b.entry == entry) found)

theorem refresh_net (s : State) (entry : Nat) (ws : List Word64) : (s.refresh entry ws).net =
    s.net.setBuffer { (s.net.buffer entry).getD (Buffer.fresh entry) with words := ws, refreshed := true, lost := false } := by
  unfold State.refresh
  dsimp only
  split
  · rw [raise_net]
  · rfl

theorem setBuffer_copies (n : Net) (b : Buffer) : (n.setBuffer b).copies = n.copies := rfl

theorem compareCopies_copies (s : State) (entry : Nat) : (s.compareCopies entry).net.copies = s.net.copies.filter (fun c => c.1 != entry) := by
  cases used : s.usedCopies entry with
  | nil => rw [compareCopies_of_nil used]; rfl
  | cons c l =>
    rw [compareCopies_of_cons used]
    split
    · rw [refresh_net, setBuffer_copies]; rfl
    · rw [recordBatch_net]; rfl

end

/-! ### The boundary (R94, R231, R246, R248) -/

section
variable {s t : State}

theorem nextPhase_congr (net : t.net = s.net) (platen : t.platen = s.platen) (formed : t.forme = s.forme) : t.nextPhase = s.nextPhase := by
  unfold State.nextPhase
  rw [net, platen, formed]

theorem boundary_net (s : State) : ∃ atStart waited since, s.boundary.net = { s.net with
    buffers := s.net.buffers.map Buffer.atBoundary, copies := [], count := s.nextPhase.1, phase := s.nextPhase.2, adopt := none,
    atStart := atStart, netCycle := (s.net.netCycle + 1) % 256, minislot := 1, tx := s.net.txNext.getD s.net.tx, txNext := none, arrivals := [],
    ports := s.net.ports.map (fun q => { q with joined := q.mode == .up, shut := false }), sends := s.net.mode == .running,
    waited := waited, sinceRun := since } := ⟨_, _, _, rfl⟩

theorem duplexBoundary_of_alone (alone : s.isDuplex = false) : s.duplexBoundary = s := if_pos (by simp [alone])

/-- A lost entry is reported once (R256). -/
theorem nodeLost_of_due {entry : Nat} {e : ImpEntry} {b : Buffer} (buffer : b = (s.net.buffer entry).getD (Buffer.fresh entry))
    (due : s.lostDue e b = true) (first : b.lost = false) : s.nodeLost entry e =
      ({ s with net := s.net.setBuffer { b with lost := true } } : State).raise evNodeLost (leBytes 2 e.owner) := by
  subst buffer
  exact if_pos ⟨due, by simp [first]⟩

theorem nodeLost_of_other {entry : Nat} {e : ImpEntry} {b : Buffer} (buffer : b = (s.net.buffer entry).getD (Buffer.fresh entry))
    (other : s.lostDue e b = false ∨ b.lost = true) : s.nodeLost entry e = s := by
  subst buffer
  exact if_neg (by obtain h | h := other <;> simp [h])

theorem exec_nodeLost {entry : Nat} {e : ImpEntry} (on : s.netOn = true) (running : s.net.mode = .running) (master : s.isMaster = true)
    (reads : s.readsEntry entry = true) (imposed : s.net.entries[entry]? = some e) : exec (.nodeLost entry) s = .next (s.nodeLost entry e) := by
  show execNodeLost entry s = _
  unfold execNodeLost
  rw [imposed]
  exact if_pos ⟨on, running, master, reads⟩

end

/-- Settles O40: each row by what it leaves of the network; the frames that leave by the fold over the ports of the node's side. -/
theorem framesSentReceivedAndCompared : Obligations.FramesSentReceivedAndCompared := by
  intro s p fr slot entry on
  refine ⟨fun running sends f x devs formed used owned => ?_, ?_, fun up joined mode => ?_, fun up joined bypass => ?_, exec_frameReceive_shut,
    fun up joined listen => ?_, ?_, ?_, ?_⟩
  · obtain ⟨ports, ran, got⟩ := emitOwn_facts s
      (s.ownFrame 1 x.2.slot (s.frameFlags x.2) ((s.entryWords f x.1 x.2).flatMap (fun w => beBytes 8 w.toNat))) devs
    refine ⟨_, _, fun q => (s.net.ports.get q).cuts (startDev devs q), exec_staticSlotTransmit on running sends formed used owned, rfl,
      fun unknown => entryWords_of_unknown unknown .., fun q => rfl, ?_⟩
    unfold State.transmitStatic
    rw [ran]
    exact ⟨rfl, got, rfl, rfl, rfl, rfl⟩
  · intro running d heard other count fills within
    rw [exec_minislot on running]
    refine ⟨fun none' => ⟨_, rfl, by rw [minislotStep_of_none count fills within none']⟩, fun g b bridge sends own picked => ?_, ownSegment_of_other⟩
    rw [ownSegment_of_pick bridge sends own picked]
    refine ⟨fun fits => ?_, fun late => if_neg (by simp [late])⟩
    obtain ⟨h, head, data, kind, dest, sender⟩ := send_head b s.me g
    refine ⟨_, _, h, _, rfl, head, data, kind, dest, sender, rfl, rfl, ?_⟩
    rw [minislotStep_of_some count fills within ((ownSegment_of_pick bridge sends own picked).trans (if_pos fits))
      (emitSegment_of_head (s := { s with bridge := b.send s.me g }) head).symm]
  · have ran : exec (.frameReceive p fr) s = .next (s.receive p fr) := by
      rw [exec_frameReceive on up joined]
      obtain mode | mode := mode <;> rw [mode]
    have same := receive_same s p fr
    refine ⟨_, ran, same.platen rfl, same.lanes rfl, ?_, fun n fails => receive_of_fail fails, fun passes => (receive_notes passes).2⟩
    cases check : (s.forward p fr).frameFail p fr with
    | none => exact (receive_notes check).1
    | some n =>
      obtain ⟨ports, sent, forwarded⟩ := forward_net s p fr
      rw [receive_of_fail check]
      exact (congrArg Net.buffers forwarded :)
  · rw [exec_frameReceive on up joined, isBypass_links bypass]
    exact congrArg _ (if_pos bypass)
  · refine ⟨_, (exec_frameReceive on up joined).trans (by rw [listen]), fun follows => ?_, fun strange => if_neg (by simp [strange])⟩
    rw [if_pos follows]
    exact integrateOn_net ..
  · refine ⟨_, if_pos on, fun c listed => ?_, (compareCopies_same s entry).lanes rfl, fun none' => ?_, fun c l used differ => ?_,
      fun c l used agree => ?_⟩
    · rw [compareCopies_copies] at listed
      simpa using (List.mem_filter.1 listed).2
    · rw [compareCopies_of_nil none']
      rfl
    · obtain ⟨d, listed, other⟩ := differ
      rw [compareCopies_of_cons used, if_neg (fun all => other (beq_iff_eq.1 (List.all_eq_true.1 all d listed))), recordBatch_net]
      exact ⟨rfl, rfl⟩
    · rw [compareCopies_of_cons used, if_pos (List.all_eq_true.2 fun d listed => beq_iff_eq.2 (agree d listed)), refresh_net]
      exact ⟨_, mem_setBuffer .., buffer_entry .., rfl, rfl, rfl⟩
  · have same := duplexBoundary_same s
    have beyond := boundary_same s.duplexBoundary
    have net := same.net rfl
    obtain ⟨atStart, waited, since, crossed⟩ := boundary_net s.duplexBoundary
    rw [nextPhase_congr net (same.platen rfl) (same_forme same rfl rfl), net] at crossed
    refine ⟨_, if_pos on, ?_⟩
    rw [crossed, beyond.lanes rfl, beyond.platen rfl, beyond.field rfl, beyond.host rfl]
    refine ⟨rfl, rfl, rfl, rfl, rfl, beq_iff_eq, rfl, rfl, rfl, rfl, fun q => ?_, same.lanes rfl, same.platen rfl, same.field rfl,
      fun alone => by rw [duplexBoundary_of_alone alone]⟩
    dsimp only
    rw [port_map_get]
    exact ⟨rfl, rfl⟩
  · intro e b running master reads imposed buffer
    rw [exec_nodeLost on running master reads imposed]
    exact ⟨fun due first => ⟨_, rfl, by rw [nodeLost_of_due buffer due first]⟩, fun other => by rw [nodeLost_of_other buffer other]⟩

end Sys2Proof.Laws
end

section
/-! Update sessions (R345, R348 to R354): the checks of a colophon, the download in parts, verification, abort and expiry. Settles O57. -/

namespace Sys2Proof.Laws
open Sys2Proof Sys2Proof.Machine

/-! ### The colophon (R345, R348, R349) -/

theorem guarded_eq_none {α : Type} {p : Prop} [Decidable p] {x : α} {y : Option α} : (if p then some x else y) = none ↔ ¬ p ∧ y = none := by
  split
  next h => simp [h]
  next h => simp [h]

section
variable {s u : State} {o : Outstanding} {e : Entry} {b : List Byte} {c : Colophon} {h a : Sig} {un : Bool} {q : UpdSession}

/-- No other source and no other colophon has the session. -/
theorem session_own_iff (s : State) (o : Outstanding) (b : List Byte) :
    ¬ (s.foreign o = true ∨ s.update.session.any (fun q => q.colophon.bytes != b) = true) ↔
    ∀ q, s.update.session = some q → q.source = s.sourceOf o ∧ q.colophon.bytes = b := by
  unfold State.foreign
  cases s.update.session with
  | none => simp
  | some q => simp

/-- Every check of Table 17-3 in its order. -/
theorem colophonFail_eq_none_iff : s.colophonFail o b (colophonOf b h a) un = none ↔ b.length = 512 ∧ s.life.state ≠ .retired ∧
    ((colophonOf b h a).typ = 2 → s.xchg.state = .idle) ∧ (∀ q, s.update.session = some q → q.source = s.sourceOf o ∧ q.colophon.bytes = b) ∧
    fieldAt b 0 4 = 0x43585350 ∧ fieldAt b 4 2 = 1 ∧ 1 ≤ (colophonOf b h a).typ ∧ (colophonOf b h a).typ ≤ 4 ∧ s.partFits b = true ∧
    s.shapeFits b (colophonOf b h a) = true ∧ s.verifies s.ident.rootKey h = true ∧
    ((colophonOf b h a).typ = 2 → s.verifies s.life.authority a = true) ∧
    ((colophonOf b h a).typ = 2 ∨ (colophonOf b h a).typ = 3 → (colophonOf b h a).installation = s.life.installation) ∧
    (s.update.record.entry (colophonOf b h a).typ).floor ≤ (colophonOf b h a).rollback ∧ un = true ∧ s.power.cryptoDown = false := by
  have typed : ¬ ((colophonOf b h a).typ = 0 ∨ 4 < (colophonOf b h a).typ) ↔ 1 ≤ (colophonOf b h a).typ ∧ (colophonOf b h a).typ ≤ 4 := by omega
  have signed : (colophonOf b h a).helfinor = h ∧ (colophonOf b h a).approval = a := ⟨rfl, rfl⟩
  unfold State.colophonFail
  simp only [guarded_eq_none, session_own_iff, typed]
  simp only [signed.1, signed.2, colophonMagic, ne_eq, not_or, not_and, not_not, Bool.not_eq_true',
    Bool.not_eq_false, Bool.not_eq_true, Nat.not_lt, and_true, and_assoc]

/-- A colophon that passed has at least one chunk. -/
theorem chunks_pos (passes : s.colophonFail o b c un = none) : 1 ≤ c.chunks := by
  unfold State.colophonFail at passes
  simp only [guarded_eq_none] at passes
  obtain ⟨-, -, -, -, -, -, shape, -⟩ := passes
  unfold State.shapeFits ceilDiv at shape
  simp only [Bool.not_eq_true', Bool.not_eq_false, Bool.and_eq_true, decide_eq_true_eq, beq_iff_eq] at shape
  omega

/-- With nothing held the first chunk is missing. -/
theorem missing_of_none_held (pos : 1 ≤ q.colophon.chunks) (none' : q.held = []) : q.missing = 0 := by
  unfold UpdSession.missing
  rw [none', List.find?_range_eq_some (i := 0) |>.2 ⟨rfl, List.mem_range.2 pos, fun j below => absurd below (Nat.not_lt_zero j)⟩]
  rfl

theorem exec_updBegin_fail (taken : s.accepts 0x1201 true true e u o) {p : Status × Nat}
    (fails : u.colophonFail o (Entry.body e) (colophonOf (Entry.body e) h a) un = some p) :
    exec (.updBegin e h a un) s = .next (u.refuseColophon o p) := by
  refine congrArg Host.Outcome.next ((command_accepts taken _).trans ?_)
  dsimp only
  rw [fails]

theorem exec_updBegin_pass (taken : s.accepts 0x1201 true true e u o)
    (passes : u.colophonFail o (Entry.body e) (colophonOf (Entry.body e) h a) un = none) :
    exec (.updBegin e h a un) s = .next (u.beginSession o (colophonOf (Entry.body e) h a)) := by
  refine congrArg Host.Outcome.next ((command_accepts taken _).trans ?_)
  dsimp only
  rw [passes]

theorem beginSession_of_some (session : s.update.session = some q) : s.beginSession o c =
    ({ s with update := { s.update with idleS := 0 } } : State).answer o .done 0 (s.beginAnswer q) := by
  unfold State.beginSession
  rw [session]

theorem beginSession_of_none (none' : s.update.session = none) (pos : 1 ≤ c.chunks) : ∃ t : State, t = { s with update := { s.update with
      state := 1, session := some { colophon := c, source := s.sourceOf o, held := [], stored := [] }, parts := [], idleS := 0 } } ∧
    s.beginSession o c = (t.answer o .done 0 (leBytes 1 1 ++ leBytes 3 0 ++ leBytes 4 c.chunks ++ leBytes 4 0 ++ leBytes 4 0)).raise
      evUpdBegun (leBytes 1 c.typ) := by
  refine ⟨_, rfl, ?_⟩
  unfold State.beginSession State.beginAnswer
  rw [none']
  dsimp only
  rw [missing_of_none_held (q := { colophon := c, source := s.sourceOf o, held := [], stored := [] }) pos rfl]
  rfl

end

/-! ### The download (R350) -/

section
variable {s u : State} {o : Outstanding} {e : Entry} {b : List Byte} {q : UpdSession} {ok : Bool} {i part : Nat} {data : List Byte}

theorem exec_updChunk (taken : s.accepts 0x1202 true true e u o) (long : 8 ≤ (Entry.body e).length) :
    exec (.updChunk e ok) s = .next (u.withSession o [1] (fun q s => s.chunk o (Entry.body e) ok q)) :=
  congrArg Host.Outcome.next ((command_accepts taken _).trans (if_neg (by omega)))

theorem chunk_of_wrong (index : i = min (fieldAt b 0 4) (q.colophon.chunks - 1)) (half : part = min 1 (fieldAt b 4 1)) (rest : data = b.drop 8)
    (wrong : data.length ≠ q.colophon.partBytes i part) : s.chunk o b ok q = (s.answer o .framing 7 []).recordBatch [recCount 0x0700 7] := by
  subst index half rest
  exact if_pos wrong

theorem chunk_of_right (index : i = min (fieldAt b 0 4) (q.colophon.chunks - 1)) (half : part = min 1 (fieldAt b 4 1)) (rest : data = b.drop 8)
    (right : data.length = q.colophon.partBytes i part) : s.chunk o b ok q = s.chunkPart o q i part data ok := by
  subst index half rest
  exact if_neg (by simp [right])

theorem chunkPart_of_held (session : s.update.session = some q) (held : i ∈ q.held) : s.chunkPart o q i part data ok =
    ({ s with update := { s.update with idleS := 0 } } : State).answer o .done 0 (leBytes 4 i ++ leBytes 4 q.held.length) := by
  refine (if_pos (by simpa using held)).trans ?_
  unfold State.chunkAnswer Update.active
  dsimp only
  rw [session]
  rfl

theorem chunkPart_of_full (missing : i ∉ q.held) (none' : s.update.partsOf i = []) (full : 32 ≤ s.update.staged) :
    s.chunkPart o q i part data ok = (s.answer o .busy 0 []).recordBatch [recCount 0x0108 6] :=
  (if_neg (by simpa using missing)).trans (if_pos ⟨by simp [none'], full⟩)

variable {ps : List (Nat × Nat × List Byte)}

/-- A part that has room: the chunk waits for its other part, or is whole. -/
theorem chunkPart_of_room (missing : i ∉ q.held) (room : s.update.partsOf i ≠ [] ∨ s.update.staged < 32)
    (put : ps = s.update.parts.filter (fun p => !(p.1 == i && p.2.1 == part)) ++ [(i, part, data)]) {t : State}
    (placed : t = { s with update := { s.update with idleS := 0, parts := ps } }) : s.chunkPart o q i part data ok =
    if (ps.filter (fun p => p.1 == i)).length = 2 then t.chunkWhole o i ok else t.answer o .done 0 (t.chunkAnswer i) := by
  subst put placed
  exact (if_neg (by simpa using missing)).trans (if_neg fun ⟨none', full⟩ =>
    room.elim (fun some' => some' (List.isEmpty_iff.1 none')) (fun few => absurd full (Nat.not_le.2 few)))

theorem chunkWhole_of_bad {t : State} (bad : ok = false ∨ t.power.cryptoDown = true) :
    t.chunkWhole o i ok = ({ t with update := t.update.freeParts i } : State).answer o .refused 0x0A [] :=
  if_neg (by obtain h | h := bad <;> simp [h])

theorem chunkWhole_of_good {t : State} (good : ok = true) (up : t.power.cryptoDown = false) : t.chunkWhole o i ok =
    ({ t with update := (t.update.freeParts i).hold i (t.update.chunkData i) } : State).answer o .done 0
      (({ t with update := (t.update.freeParts i).hold i (t.update.chunkData i) } : State).chunkAnswer i) :=
  if_pos (by simp [good, up])

end

/-! ### Verification (R353) -/

section
variable {s u : State} {o : Outstanding} {e : Entry} {q : UpdSession} {reads : List (Nat × List Byte)} {bad : Option Nat} {dg : Digest} {i : Nat}

theorem exec_updVerify (taken : s.accepts 0x1204 true true e u o) :
    exec (.updVerify e) s = .next (u.withSession o [1] (fun q s => s.beginVerify o q)) := congrArg Host.Outcome.next (command_accepts taken _)

theorem exec_verificationComplete (running : s.power.running = true) (up : s.host.stewardUp = true) (verifying : s.update.state = 2)
    (session : s.update.session = some q) : exec (.verificationComplete dg ⟨reads, bad⟩) s = .next (s.verified q dg reads bad) := by
  show execVerificationComplete dg ⟨reads, bad⟩ s = _
  unfold execVerificationComplete
  rw [session]
  exact if_pos ⟨running, up, verifying⟩

/-- A chunk whose tag fails, or whose bytes fail their CRC as they are read. -/
def chunkBad (q : UpdSession) (reads : List (Nat × List Byte)) (bad : Option Nat) (i : Nat) : Bool :=
  bad == some i || !chunkOk ((kvGet reads i).getD (kvGetD q.stored i []))

theorem chunkBad_iff : chunkBad q reads bad i = true ↔ bad = some i ∨ chunkOk ((kvGet reads i).getD (kvGetD q.stored i [])) = false := by
  simp [chunkBad]

theorem not_chunkBad (sound : bad ≠ some i ∧ chunkOk ((kvGet reads i).getD (kvGetD q.stored i [])) = true) : chunkBad q reads bad i = false := by
  simp [chunkBad, sound]

theorem badChunk_first (below : i < q.colophon.chunks) (fails : bad = some i ∨ chunkOk ((kvGet reads i).getD (kvGetD q.stored i [])) = false)
    (first : ∀ j, j < i → bad ≠ some j ∧ chunkOk ((kvGet reads j).getD (kvGetD q.stored j [])) = true) : q.badChunk reads bad = some i :=
  List.find?_range_eq_some.2 ⟨chunkBad_iff.2 fails, List.mem_range.2 below, fun j earlier => congrArg (!·) (not_chunkBad (first j earlier))⟩

theorem badChunk_none (sound : ∀ j, j < q.colophon.chunks → bad ≠ some j ∧ chunkOk ((kvGet reads j).getD (kvGetD q.stored j [])) = true) :
    q.badChunk reads bad = none :=
  List.find?_eq_none.2 fun j below => Bool.eq_false_iff.1 (not_chunkBad (sound j (List.mem_range.1 below)))

theorem verified_of_bad (below : i < q.colophon.chunks) (found : q.badChunk reads bad = some i) : s.verified q dg reads bad =
    ({ s with update := { s.update with
      state := 1, session := some { q with held := removeAll q.held i, stored := q.stored.filter (fun p => p.1 != i) } } } : State).raise
        evUpdVerifyFail (leBytes 4 i) := by
  have last : min i (q.colophon.chunks - 1) = i := by omega
  unfold State.verified
  dsimp only
  rw [found]
  dsimp only
  rw [last]

theorem verified_of_sound (found : q.badChunk reads bad = none) : s.verified q dg reads bad =
    if dg = q.colophon.digest then
      ({ s with update := { s.update.setNand q.colophon.typ (s.update.freeSlotOf q.colophon.typ)
        { verified := true, colophon := some q.colophon, chunks := q.stored } with state := 3 } } : State).raise evUpdVerified (leBytes 1 q.colophon.typ)
    else ({ s with update := s.update.endSession } : State).raise evUpdVerifyFail (leBytes 4 0xFFFFFFFF) := by
  unfold State.verified
  dsimp only
  rw [found]

end

/-! ### Abort and expiry (R352, R354) -/

section
variable {s u : State} {o : Outstanding} {e : Entry} {q : UpdSession} {sig : Sig} {b : List Byte}

theorem exec_updAbort_own (taken : s.accepts 0x1207 true true e u o) (bare : Entry.body e = []) :
    exec (.updAbort e sig) s = .next (u.withSession o [1, 2, 3] (fun q s => s.abortUpdate o q)) :=
  congrArg Host.Outcome.next ((command_accepts taken _).trans (if_pos (by rw [bare]; rfl)))

theorem exec_updAbort_token (taken : s.accepts 0x1207 true true e u o) (present : Entry.body e ≠ []) (sized : tokSized (Entry.body e) = true)
    (passes : u.tokenFail [0x09] (Entry.body e) sig = 0) :
    exec (.updAbort e sig) s = .next ((u.countToken (Entry.body e)).abortToken o (Entry.body e)) :=
  congrArg Host.Outcome.next ((command_accepts taken _).trans ((if_neg (by rwa [List.isEmpty_iff])).trans
    (withToken_of_pass (run := fun s => s.abortToken o (Entry.body e)) sized passes)))

theorem abortToken_of_state (session : s.update.session = some q) (other : s.update.state ∉ [1, 2, 3]) :
    s.abortToken o b = s.answer o .state 0 [] := by
  unfold State.abortToken
  rw [session]
  exact if_pos (by simpa using other)

theorem abortToken_of_running (session : s.update.session = some q) (running : s.update.state ∈ [1, 2, 3]) : s.abortToken o b =
    if fieldAt (tokBody b) 0 1 ≠ q.colophon.typ then s.answer o .auth 0 [] else s.abortUpdate o q := by
  unfold State.abortToken
  rw [session]
  exact if_neg (by rw [List.contains_iff_mem.2 running]; decide)

theorem exec_updExpired (session : s.update.session = some q) : exec .updExpired s =
    if s.power.running ∧ s.host.stewardUp ∧ s.update.state ≠ 4 ∧ 2592000 ≤ s.update.idleS then
      .next (({ s with update := s.update.endSession } : State).raiseWith evUpdExpired (leBytes 1 q.colophon.typ) [updKeep 4 q.colophon.typ 0])
    else .next s := by
  show execUpdExpired s = _
  unfold execUpdExpired
  rw [session]

end

/-! ### A command of a session -/

section
variable {s u : State} {o : Outstanding} {e : Entry} {q : UpdSession}

/-- The commands of a session run in the states named for them. -/
theorem exec_of_session {c : Instr} {op : Nat} {at' : List Nat} (row : (∃ ok, c = .updChunk e ok ∧ op = 0x1202 ∧ at' = [1] ∧ 8 ≤ (Entry.body e).length) ∨
      (c = .updVerify e ∧ op = 0x1204 ∧ at' = [1]) ∨ (∃ f, c = .updActivate e f ∧ op = 0x1205 ∧ at' = [3]) ∨
      (∃ sig, c = .updAbort e sig ∧ op = 0x1207 ∧ at' = [1, 2, 3] ∧ Entry.body e = [])) (taken : s.accepts op true true e u o) :
    ∃ run, exec c s = .next (u.withSession o at' run) := by
  obtain ⟨ok, rfl, rfl, rfl, long⟩ | ⟨rfl, rfl, rfl⟩ | ⟨f, rfl, rfl, rfl⟩ | ⟨sig, rfl, rfl, rfl, bare⟩ := row
  · exact ⟨_, exec_updChunk taken long⟩
  · exact ⟨_, exec_updVerify taken⟩
  · exact ⟨_, exec_updActivate taken f⟩
  · exact ⟨_, exec_updAbort_own taken bare⟩

end

/-- Settles O57: the colophon by its checks in order, the other commands by what their session lets them do. -/
theorem updateSessionRuns : Obligations.UpdateSessionRuns := by
  rintro s u o e b q rfl
  refine ⟨?_, fun taken => ?_, fun c op at' row taken => ?_, fun session => ⟨?_, fun taken own state => ?_, fun dg reads bad running up verifying =>
    ⟨fun i below fails first => ?_, fun sound => ⟨fun differs => ?_, ?_⟩⟩, ?_, ?_⟩⟩
  · rintro h a un c rfl taken
    refine ⟨?_, fun st d fails => exec_updBegin_fail taken fails, fun passes none' => ?_, fun passes session => ⟨_, rfl, ?_⟩⟩
    · rw [colophonFail_eq_none_iff]
      obtain ⟨l, rfl⟩ := accepts_host taken
      exact Iff.rfl
    · obtain ⟨t, began, ran⟩ := beginSession_of_none (s := u) (o := o) ((congrArg Update.session (accepts_update taken)).trans none')
        (chunks_pos passes)
      refine ⟨_, t, rfl, ?_, (exec_updBegin_pass taken passes).trans (congrArg _ ran)⟩
      rw [began, accepts_update taken]
    · rw [exec_updBegin_pass taken passes, beginSession_of_some ((congrArg Update.session (accepts_update taken)).trans session)]
      unfold State.beginAnswer
      rw [accepts_update taken]
      rfl
  · refine ⟨match s.update.session with | some q => leBytes 4 q.colophon.chunks ++ q.bitmap | none => leBytes 4 0, fun none' => by rw [none'],
      fun session => by rw [session], congrArg Host.Outcome.next ((command_accepts taken _).trans ?_)⟩
    obtain ⟨l, rfl⟩ := accepts_host taken
    rfl
  · obtain ⟨run, ran⟩ := exec_of_session row taken
    rw [ran, ← accepts_update taken]
    exact ⟨fun none' => by rw [withSession_of_none none'], fun session other => by rw [withSession_of_foreign session other],
      fun session own state => by rw [withSession_of_state session own state]⟩
  · intro ok i part data index half rest long taken own state
    have runs (run : UpdSession → State → State) : u.withSession o [1] run = run q u :=
      withSession_runs ((congrArg Update.session (accepts_update taken)).trans session) own (by rw [accepts_update taken, state]; decide)
    rw [exec_updChunk taken long, runs]
    refine ⟨fun wrong => by rw [chunk_of_wrong index half rest wrong], fun right held => ⟨_, rfl, ?_⟩, fun right missing => ⟨fun none' full => ?_,
      fun room => ⟨_, rfl, ?_⟩⟩⟩
    · rw [chunk_of_right index half rest right,
        chunkPart_of_held ((congrArg Update.session (accepts_update taken)).trans session) held, accepts_update taken]
    · rw [chunk_of_right index half rest right]
      rw [← accepts_update taken] at none' full
      rw [chunkPart_of_full missing none' full]
    · obtain ⟨l, rfl⟩ := accepts_host taken
      rw [chunk_of_right index half rest right, chunkPart_of_room (s := { s with host := l }) missing room rfl rfl]
      refine ⟨fun part' => ⟨_, rfl, ?_⟩, fun whole refused => ⟨_, rfl, ?_⟩, fun whole good up => ?_⟩
      · rw [if_neg part']
        unfold State.chunkAnswer
        dsimp only
        rw [session]
        rfl
      · refine congrArg Host.Outcome.next ((if_pos whole).trans ((chunkWhole_of_bad ?_).trans rfl))
        exact refused
      · refine ⟨sortBy (fun a b => decide (a ≤ b)) (insertOnce q.held i), _, _, _, rfl, fun j => ?_, rfl, rfl,
          congrArg Host.Outcome.next ((if_pos whole).trans ((chunkWhole_of_good good ?_).trans ?_))⟩
        · rw [(sortBy_perm _ _).mem_iff, mem_insertOnce, or_comm]
        · exact up
        · unfold Update.hold State.chunkAnswer Update.freeParts
          dsimp only
          rw [session]
          rfl
  · rw [exec_updVerify taken, withSession_runs ((congrArg Update.session (accepts_update taken)).trans session) own
      (by rw [accepts_update taken, state]; decide)]
    obtain ⟨l, rfl⟩ := accepts_host taken
    exact ⟨fun few => congrArg _ (if_pos few), fun all => ⟨_, rfl, congrArg _ (if_neg (Nat.not_lt.2 all))⟩⟩
  · exact ⟨_, _, rfl, rfl, (exec_verificationComplete running up verifying session).trans
      (congrArg _ (verified_of_bad below (badChunk_first below fails first)))⟩
  · refine ⟨_, rfl, ?_⟩
    rw [exec_verificationComplete running up verifying session, verified_of_sound (badChunk_none sound), if_neg differs]
    rfl
  · rintro same
    refine ⟨_, rfl, ?_⟩
    rw [exec_verificationComplete running up verifying session, verified_of_sound (badChunk_none sound), if_pos same]
    rfl
  · rintro x rfl
    refine ⟨fun sig taken bare own state => ?_, fun sig v taken present sized passes counted => ?_⟩
    · rw [exec_updAbort_own taken bare, withSession_runs ((congrArg Update.session (accepts_update taken)).trans session) own
        (by rwa [accepts_update taken])]
      obtain ⟨l, rfl⟩ := accepts_host taken
      rfl
    · have update : v.update = s.update := by
        obtain ⟨l, r, parts⟩ := counted_parts taken (Entry.body e)
        rw [counted, parts]
      rw [exec_updAbort_token taken present sized passes, ← counted, ← update]
      have held : v.update.session = some q := by rw [update]; exact session
      refine ⟨fun other => by rw [abortToken_of_state held other], fun running other => ?_, fun running same => ?_⟩
      · rw [abortToken_of_running held running, if_pos other]
      · rw [abortToken_of_running held running, if_neg (by simp [same])]
        rfl
  · rintro x rfl running up
    rw [exec_updExpired session]
    refine ⟨fun ⟨live, long⟩ => (if_pos ⟨running, up, live, long⟩).trans rfl, fun stays => if_neg fun ⟨_, _, live, long⟩ => ?_⟩
    exact stays.elim live (fun short => by omega)

end Sys2Proof.Laws
end

section
/-! The commands of the bridge (R326, R333, R342) and the entries of the tunnel transmit queues (R329, R330, R335 to R337). Settles O55. -/

namespace Sys2Proof.Laws
open Sys2Proof Sys2Proof.Machine

/-! ### What the end of a read or write leaves (R335, R336) -/

section
variable (s : State) (x : Txn) (d : Nat)

/-- Of the bridge, the delivery of an entry that spent no credit reaches what waits, the drops and the counts of delivered frames. -/
theorem deliverEntry_bridge (ch peer : Nat) (e : OutEntry) : ∃ reasm drops frames, (s.deliverEntry ch peer false e).bridge =
    { s.bridge with reasm := reasm, drops := drops, rxFrames := frames } := by
  unfold State.deliverEntry
  dsimp only
  split
  · refine ⟨s.bridge.reasm, sat32 s.bridge.drops 1, s.bridge.rxFrames, ?_⟩
    unfold State.discard
    rw [raiseWith_bridge]
    rfl
  · split
    · refine ⟨s.bridge.reasm, s.bridge.drops, updNth s.bridge.rxFrames ch 0 (fun n => sat32 n 1), ?_⟩
      have written : (s.enqueue (56 + ch) e).bridge = s.bridge := (enqueue_same ..).bridge rfl
      exact congrArg (fun b : Bridge => b.delivered ch) written
    · exact ⟨_, s.bridge.drops, s.bridge.rxFrames, rfl⟩

/-- A read or write that ends leaves its table, and of the bridge only what a delivery reaches changes beside. -/
theorem endTxn_bridge : ∃ reasm drops frames, (s.endTxn d x).bridge =
    { s.bridge with txns := s.bridge.txns.erase x, reasm := reasm, drops := drops, rxFrames := frames } := by
  unfold State.endTxn
  split
  · exact deliverEntry_bridge (s.updBridge (fun b => b.retire x)) ..
  · refine ⟨s.bridge.reasm, s.bridge.drops, s.bridge.rxFrames, ?_⟩
    unfold State.endWrite
    dsimp only
    split
    · rfl
    · rw [raise_bridge]
      rfl

theorem endTxns_bridge (l : List Txn) : ∀ s : State, ∃ reasm drops frames, (l.foldl (State.endTxn · d ·) s).bridge =
    { s.bridge with txns := l.foldl List.erase s.bridge.txns, reasm := reasm, drops := drops, rxFrames := frames } := by
  induction l with
  | nil => exact fun s => ⟨s.bridge.reasm, s.bridge.drops, s.bridge.rxFrames, rfl⟩
  | cons x l ih =>
    intro s
    obtain ⟨_, _, _, ended⟩ := endTxn_bridge s x d
    obtain ⟨reasm, drops, frames, rest⟩ := ih (s.endTxn d x)
    exact ⟨reasm, drops, frames, by rw [List.foldl_cons, rest, ended]; rfl⟩

section
variable {α : Type} [BEq α] [LawfulBEq α]

theorem foldl_erase_cons {x : α} : ∀ (r l : List α), x ∉ r → r.foldl List.erase (x :: l) = x :: r.foldl List.erase l
  | [], _, _ => rfl
  | y :: r, l, other => by
    have ne : x ≠ y := fun same => other (same ▸ List.mem_cons_self)
    rw [List.foldl_cons, List.erase_cons_tail (by simpa using ne), foldl_erase_cons r _ fun rest => other (List.mem_cons_of_mem _ rest), List.foldl_cons]

/-- Erasing every member of a kind leaves the others, repeated members included. -/
theorem foldl_erase_filter (p : α → Bool) : ∀ l : List α, (l.filter p).foldl List.erase l = l.filter (fun x => !p x)
  | [] => rfl
  | x :: l => by
    cases hx : p x with
    | true => rw [List.filter_cons_of_pos hx, List.foldl_cons, List.erase_cons_head, foldl_erase_filter p l, List.filter_cons_of_neg (by simp [hx])]
    | false =>
      rw [List.filter_cons_of_neg (by simp [hx]), foldl_erase_cons _ _ (by simp [hx]), foldl_erase_filter p l, List.filter_cons_of_pos (by simp [hx])]

theorem foldl_erase_self (l : List α) : l.foldl List.erase l = [] := by
  simpa using foldl_erase_filter (fun _ => true) l

end

end

/-! ### The commands (R342) -/

section
variable {s u : State} {o : Outstanding} {e : Entry} {n : Nat}

theorem exec_brgStart (taken : s.accepts 0x1001 true true e u o) (sized : Entry.size e 1 = true) :
    exec (.brgStart e) s = .next (u.brgStart o (Entry.field e 0 1)) := congrArg Host.Outcome.next ((command_accepts taken _).trans (if_pos sized))

theorem brgStart_of_none (none' : s.net.dynamicIds = []) : s.brgStart o n = s.answer o .state 0 [] := if_pos (by rw [none']; rfl)

/-- The parameters with which the bridge starts. -/
def bridgeParamsTaken (s : State) (p : Nat) : State := (if p = 1 then s.defaultParams isBridgeParam else s).applyParams isBridgeParam

theorem brgStart_of_some (some' : s.net.dynamicIds ≠ []) {p : Nat} (profile : p = if n = 0 then 0 else 1) : s.brgStart o n =
    ((bridgeParamsTaken s p).updBridge (fun b => { b with on := true, paused := [], credit := [], seconds := [], replies := [],
                                                          credits := (bridgeParamsTaken s p).resetSegments })).answer o .done 0 (leBytes 1 p) := by
  subst profile
  exact if_neg (by simpa using some')

theorem mem_resetSegments {g : Segment} : g ∈ s.resetSegments ↔ ∃ ch < 8, ∃ p ∈ s.peers ch, g = { segment 7 ch p 0 0 [] with reset := true } := by
  unfold State.resetSegments
  simp only [List.mem_flatMap, List.mem_range, List.mem_map, List.mem_eraseDups, eq_comm]

theorem exec_brgPollStatus (taken : s.accepts 0x1004 false true e u o) (sized : Entry.size e 2 = true) :
    exec (.brgPollStatus e) s = .next (u.pollReport o (Entry.field e 0 2)) :=
  congrArg Host.Outcome.next ((command_accepts taken _).trans (if_pos sized))

theorem pollReport_of_none (none' : n = 0 ∨ ∀ k, k < 64 → s.inUse (0x2C00 + k) ≠ n) : s.pollReport o n = s.answer o .state 0 [] := by
  unfold State.pollReport
  rw [List.find?_eq_none.2]
  intro k below
  obtain zero | other := none'
  · simp [zero]
  · simp [other k (List.mem_range.1 below)]

theorem pollReport_of_slot {k : Nat} (named : n ≠ 0) (below : k < 64) (slot : s.inUse (0x2C00 + k) = n)
    (first : ∀ j, j < k → s.inUse (0x2C00 + j) ≠ n) : s.pollReport o n = s.answer o .done 0
      (leBytes 2 n ++ leBytes 2 (s.bridge.poll k).fails ++ leBytes 4 ((s.bridge.poll k).ageNs / 1000000) ++ (s.bridge.poll k).block) := by
  unfold State.pollReport
  rw [List.find?_range_eq_some.2 ⟨by simp [slot, named], List.mem_range.2 below, fun j earlier => by simp [first j earlier]⟩]

end

/-! ### The checks of a transmit entry (R329) -/

section
variable {s v : State} {ch : Nat} {t : TunnelEntry}

theorem guarded_eq_zero {p : Prop} [Decidable p] {k n : Nat} (step : k ≠ 0) : (if p then k else n) = 0 ↔ ¬ p ∧ n = 0 := by
  split
  next h => simp [h, step]
  next h => simp [h]

theorem tunnelFail_eq_zero_iff : s.tunnelFail ch t = 0 ↔ t.length ≤ 4080 ∧ t.length + 20 ≤ (s.host.queue (48 + ch)).entryBytes ∧
    t.payload.length = t.length ∧ crc32c t.payload = t.crc.toNat ∧ tunnelLength t.typ t.length = true ∧ 1 ≤ t.typ ∧ t.typ ≤ 4 ∧
    (t.peer ∈ s.peers ch ∨ (t.peer = 0xFFFF ∧ t.typ = 1)) ∧ s.bridge.on = true := by
  unfold State.tunnelFail
  dsimp only
  rw [guarded_eq_zero (by decide), guarded_eq_zero (by decide), guarded_eq_zero (by decide), guarded_eq_zero (by decide),
    guarded_eq_zero (by decide)]
  have typed : ¬ (t.typ = 0 ∨ 4 < t.typ) ↔ 1 ≤ t.typ ∧ t.typ ≤ 4 := by omega
  rw [typed]
  simp only [not_or, not_not, Nat.not_lt, ne_eq, Bool.not_eq_true', Bool.not_eq_false, Bool.or_eq_true, Bool.and_eq_true, beq_iff_eq,
    List.contains_iff_mem, and_true, and_assoc]
  refine and_congr_right fun _ => and_congr_right fun _ => and_congr_right fun sized => ?_
  rw [sized]

theorem tunnelIn_of_paused (off : s.bridge.on = false) (paused : ch ∈ s.bridge.paused) : s.tunnelIn ch t = s :=
  if_pos (by simp [off, paused])

/-- When the bridge looks at the entry at the head of a transmit queue. -/
def takesEntry (s : State) (ch : Nat) : Prop :=
  s.netOn = true ∧ ch < 8 ∧ s.host.moves (48 + ch) = true ∧ (s.host.queue (48 + ch)).used ≠ 0 ∧ (s.bridge.on = true ∨ ch ∉ s.bridge.paused)

theorem not_waits_of_takesEntry (takes : takesEntry s ch) : ¬ (!s.netOn ∨ 8 ≤ ch ∨ !s.host.moves (48 + ch) ∨ (s.host.queue (48 + ch)).used = 0 ∨
    (!s.bridge.on ∧ s.bridge.paused.contains ch)) := by
  obtain ⟨on, below, moves, used, runs⟩ := takes
  have held : ¬ (s.bridge.on = false ∧ ch ∈ s.bridge.paused) := fun ⟨off, paused⟩ => by
    obtain h | h := runs
    · exact Bool.false_ne_true (off.symm.trans h)
    · exact h paused
  simp only [on, moves, used, Bool.not_true, Bool.not_eq_true', List.contains_iff_mem, Bool.false_eq_true, false_or, held, or_false]
  omega

theorem tunnelIn_of_fail {k : Nat} (takes : takesEntry s ch) (detail : s.tunnelFail ch t = k) (fails : k ≠ 0) :
    s.tunnelIn ch t = (s.takeTunnel ch).raise evBrgRefused (leBytes 2 t.tag ++ leBytes 1 ch ++ leBytes 1 k) := by
  unfold State.tunnelIn
  dsimp only
  rw [if_neg (not_waits_of_takesEntry takes)]
  split
  next passes => exact absurd (detail.symm.trans passes) fails
  next => rw [detail]

theorem tunnelIn_of_pass (takes : takesEntry s ch) (passes : s.tunnelFail ch t = 0) : s.tunnelIn ch t =
    if t.typ = 4 ∧ 256 ≤ s.bridge.writes.length then s.stallQueue (48 + ch) else (s.takeTunnel ch).tunnelAccept ch t := by
  unfold State.tunnelIn
  dsimp only
  rw [if_neg (not_waits_of_takesEntry takes)]
  split
  next => rfl
  next fails => exact absurd passes fails

/-! ### What an entry that passed does -/

theorem tunnelAccept_frame (typ : t.typ = 1) : v.tunnelAccept ch t =
    { v with bridge := { v.bridge with tx := v.bridge.tx ++ [ethernetReq ch t.peer v.bridge.seq t.payload], seq := (v.bridge.seq + 1) % 65536 } } := by
  unfold State.tunnelAccept
  dsimp only
  rw [typ]
  rfl

theorem tunnelAccept_telegram (typ : t.typ = 2) : v.tunnelAccept ch t =
    if t.peer = v.me then v.sendTelegram (min t.port 1) (telegramOf (t.addr % 256) t.payload)
    else { v with bridge := { v.bridge with
      tx := v.bridge.tx ++ [plainReq ch t.peer (segment 2 ch t.peer v.bridge.seq (min t.port 1) (Telegram.bytes (telegramOf (t.addr % 256) t.payload)))],
      seq := (v.bridge.seq + 1) % 65536 } } := by
  unfold State.tunnelAccept
  dsimp only
  rw [typ]
  rfl

theorem tunnelAccept_read (typ : t.typ = 3) : v.tunnelAccept ch t =
    if 256 ≤ v.bridge.reads.length then
      (v.deliverEntry ch t.peer false (v.tunnelEntry 0x0083 t.tag t.peer 0xFF .busy 5 [])).recordBatch [recCount 0x0108 2]
    else { v with bridge := { v.bridge with
      tx := v.bridge.tx ++ [plainReq ch t.peer (segment 3 ch t.peer t.tag 0 (beBytes 4 t.addr ++ beBytes 4 (readCount (leNat t.payload))))],
      txns := v.bridge.txns ++ [{ tag := t.tag, channel := ch, peer := t.peer, addr := t.addr, isRead := true }] } } := by
  unfold State.tunnelAccept
  dsimp only
  rw [typ]
  rfl

theorem tunnelAccept_write (typ : t.typ = 4) : v.tunnelAccept ch t = { v with bridge := { v.bridge with
    tx := v.bridge.tx ++ [plainReq ch t.peer (segment 5 ch t.peer t.tag 0 (beBytes 4 t.addr ++ t.payload))],
    txns := v.bridge.txns ++ [{ tag := t.tag, channel := ch, peer := t.peer, addr := t.addr, isRead := false }] } } := by
  unfold State.tunnelAccept
  dsimp only
  rw [typ]
  rfl

/-- The entry that is taken moves the index of its own queue, and the channel is not paused any more. -/
theorem takeTunnel_eq : ∃ q l, s.takeTunnel ch = { s with host := { s.host with queues := q }, bridge := { s.bridge with paused := l } } ∧ ch ∉ l ∧
    ∀ m, m ≠ 48 + ch → ∀ g, g = { s.host with queues := q } → g.queue m = s.host.queue m := by
  refine ⟨_, _, rfl, not_mem_removeAll _ _, ?_⟩
  rintro m other g rfl
  exact (nthD_setNth ..).trans (if_neg fun ⟨same, _⟩ => other same)

end

/-! ### The stop of the bridge (R342) -/

/-- Once all reads and writes have ended with detail 0x04, the bridge is off, with the entries that its queues still hold. -/
theorem stopBridge_eq (s : State) : ∃ t : State, t.bridge.txns = [] ∧ s.stopBridge = t.updBridge (fun b => { b with
    on := false, paused := (List.range 8).filter (fun ch => (t.host.queue (48 + ch)).used != 0), tx := [], replies := [], seconds := [], credits := [],
    reasm := b.reasm.filter (·.whole) }) := by
  obtain ⟨_, _, _, ended⟩ := endTxns_bridge 4 s.bridge.txns s
  exact ⟨_, (congrArg Bridge.txns ended).trans (foldl_erase_self _), rfl⟩

section
variable (s : State)

/-- Taking an entry leaves the node, and the reads and writes under way. -/
theorem takeTunnel_txns (ch : Nat) : (s.takeTunnel ch).me = s.me ∧ (s.takeTunnel ch).bridge.reads = s.bridge.reads := ⟨rfl, rfl⟩

end

/-- Settles O55: a read or write that ends touches of the bridge its table, what waits and the counts, so a stop leaves no
transaction; the checks of a transmit entry and what each type does are read off as equations. -/
theorem bridgeCommandsAndTransmitEntries : Obligations.BridgeCommandsAndTransmitEntries := by
  unfold Obligations.BridgeCommandsAndTransmitEntries
  intro s u o e ch n t
  refine ⟨fun taken sized => ?_, fun taken => ?_, fun taken => ?_, fun taken sized named => ?_, tunnelFail_eq_zero_iff, fun on below moves used => ?_,
    takeTunnel_eq⟩
  · refine ⟨fun none' => ?_, fun some' p profile => ?_⟩
    · obtain ⟨h, host⟩ := accepts_host taken
      exact (exec_brgStart taken sized).trans (congrArg _ (brgStart_of_none (by rw [host]; exact none')))
    · obtain ⟨h, host⟩ := accepts_host taken
      have started := (exec_brgStart taken sized).trans (congrArg _ (brgStart_of_some (by rw [host]; exact some') profile))
      have kept : (bridgeParamsTaken u p).bridge = s.bridge := by
        unfold bridgeParamsTaken
        rw [host]
        split <;> rfl
      refine ⟨bridgeParamsTaken u p, _, rfl, started, rfl, rfl, rfl, rfl, rfl, (congrArg Bridge.tx kept :), (congrArg Bridge.txns kept :), fun g due => ?_,
        fun c peer below listed => ?_⟩
      · obtain ⟨c, below, peer, listed, rfl⟩ := mem_resetSegments.1 due
        exact ⟨rfl, rfl, below, listed⟩
      · exact ⟨_, mem_resetSegments.2 ⟨c, below, peer, listed, rfl⟩, rfl, rfl⟩
  · obtain ⟨h, host⟩ := accepts_host taken
    obtain ⟨t, none', stopped⟩ := stopBridge_eq u
    have lanes : u.stopBridge.lanes = s.lanes := ((stopBridge_same u).lanes rfl).trans (by rw [host])
    refine ⟨u.stopBridge, congrArg Host.Outcome.next (command_accepts taken _), ?_⟩
    rw [stopped] at lanes ⊢
    exact ⟨rfl, none', rfl, rfl, rfl, fun r kept => (List.mem_filter.1 kept).2, lanes, fun c =>
      List.mem_filter.trans (and_congr List.mem_range bne_iff_ne)⟩
  · obtain ⟨h, host⟩ := accepts_host taken
    subst host
    exact congrArg Host.Outcome.next (command_accepts taken _)
  · obtain ⟨h, host⟩ := accepts_host taken
    subst host named
    exact ⟨fun none' => (exec_brgPollStatus taken sized).trans (congrArg _ (pollReport_of_none none')),
      fun k nonzero below slot first => (exec_brgPollStatus taken sized).trans (congrArg _ (pollReport_of_slot nonzero below slot first))⟩
  · refine ⟨fun off paused => congrArg Host.Outcome.next (tunnelIn_of_paused off paused), ?_⟩
    rintro v runs rfl
    have takes : takesEntry s ch := ⟨on, below, moves, used, runs⟩
    obtain ⟨me, reads⟩ := takeTunnel_txns s ch
    refine ⟨fun k detail fails => congrArg Host.Outcome.next (tunnelIn_of_fail takes detail fails), fun passes => ?_⟩
    · have ready := tunnelIn_of_pass takes passes
      have accepted (other : ¬ (t.typ = 4 ∧ 256 ≤ s.bridge.writes.length)) :
          exec (.tunnelTransmitEntry ch t) s = .next ((s.takeTunnel ch).tunnelAccept ch t) := congrArg _ (ready.trans (if_neg other))
      refine ⟨fun typ => ⟨_, rfl, (accepted (by omega)).trans (congrArg _ (tunnelAccept_frame typ))⟩, ?_, fun typ => ⟨fun full => ?_, fun room => ?_⟩,
        fun typ => ⟨fun full => congrArg Host.Outcome.next (ready.trans (if_pos ⟨typ, full⟩)), fun room => ?_⟩⟩
      · rintro g typ rfl
        have sent := (accepted (by omega)).trans (congrArg _ (tunnelAccept_telegram typ))
        rw [me] at sent
        refine ⟨fun own => sent.trans (congrArg _ (if_pos own)), fun other => ⟨_, _, rfl, rfl, sent.trans (congrArg _ (if_neg other))⟩⟩
      · exact (accepted (by omega)).trans (congrArg _ ((tunnelAccept_read typ).trans (if_pos (by rw [reads]; exact full))))
      · exact ⟨_, _, _, rfl, rfl, rfl, (accepted (by omega)).trans (congrArg _ ((tunnelAccept_read typ).trans (if_neg (by rw [reads]; omega))))⟩
      · exact ⟨_, _, _, rfl, rfl, rfl, (accepted (by omega)).trans (congrArg _ (tunnelAccept_write typ))⟩

end Sys2Proof.Laws
end

section
/-! Segments from the network, credits, reassembly and time-outs (R331 to R338), telegrams of the serial ports (R339, R340) and the
polls of the neighbours (R341). Settles O56. -/

namespace Sys2Proof.Laws
open Sys2Proof Sys2Proof.Machine

/-! ### Credits (R332) -/

section
variable (b : Bridge)

theorem creditOf_setCredit (c : Credit) : (b.setCredit c).creditOf c.channel c.peer = c := by
  unfold Bridge.creditOf Bridge.setCredit
  dsimp only
  rw [find?_sortBy, List.find?_append, List.find?_eq_none.2]
  · simp
  · intro d kept
    simpa [not_and_or, imp_iff_not_or] using (List.mem_filter.1 kept).2
  · intro x y hx hy
    simp only [Bool.and_eq_true, beq_iff_eq] at hx hy
    simp [hx, hy]

theorem credited_credit (g : Segment) : ∃ credit, b.credited g = { b with credit := credit } := by
  unfold Bridge.credited
  split
  · exact ⟨_, rfl⟩
  · exact ⟨b.credit, rfl⟩

end

/-! ### Segments (R331 to R333, R335, R336) -/

section
variable {s w : State} {g : Segment} {x : Txn}

theorem segmentFor_of (on : s.bridgeOn = true) (below : g.channel < 8) (listed : g.sender ∈ s.peers g.channel)
    (here : g.dest = s.me ∨ g.dest = 0xFFFF) : s.segmentFor g = true := by
  simpa [State.segmentFor, on, below, listed] using here

theorem exec_tunnelSegment (mine : s.segmentFor g = true) (plain : g.reset = false) :
    exec (.tunnelSegment g) s = .next (State.segmentIn { s with bridge := s.bridge.credited g } g) := by
  refine (if_pos mine).trans ?_
  rw [plain]
  rfl

theorem segmentIn_frame (kind : g.kind = 1) : w.segmentIn g = w.ethernetSegment g := by
  simp only [State.segmentIn, kind]

theorem ethernetSegment_of_full (first : g.index = 0) (full : 4 ≤ w.bridge.buffers g.channel g.sender) :
    w.ethernetSegment g = { w with bridge := w.bridge.drop } := (if_pos first).trans (if_pos full)

/-- The buffer that the first segment of a frame starts. -/
def frameBegun (g : Segment) : Reassembly :=
  { channel := g.channel, peer := g.sender, tag := g.tag, data := g.data, credited := g.dest != 0xFFFF, whole := false, entry := none }

theorem ethernetSegment_of_part (first : g.index = 0) (room : w.bridge.buffers g.channel g.sender < 4) (part : g.last = false) :
    w.ethernetSegment g = { w with bridge := { w.bridge with reasm := w.bridge.reasm ++ [frameBegun g] } } :=
  (if_pos first).trans ((if_neg (by omega)).trans (if_neg (by simp [part])))

theorem ethernetSegment_of_whole (first : g.index = 0) (room : w.bridge.buffers g.channel g.sender < 4) (whole : g.last = true) :
    w.ethernetSegment g = w.ethernetIn g.channel g.sender g.tag (g.dest != 0xFFFF) g.data :=
  (if_pos first).trans ((if_neg (by omega)).trans (if_pos whole))

theorem ethernetSegment_of_missing (later : g.index ≠ 0)
    (missing : ∀ q ∈ w.bridge.reasm, ¬ (q.channel = g.channel ∧ q.peer = g.sender ∧ q.tag = g.tag ∧ q.whole = false)) : w.ethernetSegment g = w := by
  refine (if_neg later).trans ?_
  rw [List.find?_eq_none.2 fun q held => by simpa [and_assoc] using missing q held]

theorem segmentIn_telegram (kind : g.kind = 2) : w.segmentIn g =
    ({ w with bridge := (w.bridge.consume g.channel g.sender).delivered g.channel } : State).telegramOut (min g.detail 1) (telegramIn g.data) := by
  unfold State.segmentIn
  rw [kind]
  rfl

/-- A read or write of this node is answered with detail 0x02. -/
theorem segmentIn_ask (kind : g.kind = 3 ∨ g.kind = 5) : w.segmentIn g = { w with bridge := { w.bridge.consume g.channel g.sender with
    replies := (w.bridge.consume g.channel g.sender).replies ++ [segment (g.kind + 1) g.channel g.sender g.tag 0x02 []] } } := by
  unfold State.segmentIn
  obtain read | write := kind
  · rw [read]
    rfl
  · rw [write]
    rfl

theorem segmentIn_readReply (kind : g.kind = 4) (found : w.bridge.reads.find? (fun t => t.tag == g.tag && t.channel == g.channel && t.peer == g.sender) = some x) :
    w.segmentIn g = w.endRead x g.detail (if g.detail = 0 then g.data else []) := by
  simp only [State.segmentIn, kind, found]

theorem segmentIn_readReply_of_none (kind : g.kind = 4)
    (none' : w.bridge.reads.find? (fun t => t.tag == g.tag && t.channel == g.channel && t.peer == g.sender) = none) :
    w.segmentIn g = { w with bridge := w.bridge.drop } := by
  simp only [State.segmentIn, kind, none'] <;> rfl

theorem segmentIn_writeReply (kind : g.kind = 6)
    (found : w.bridge.writes.find? (fun t => t.tag == g.tag && t.channel == g.channel && t.peer == g.sender) = some x) :
    w.segmentIn g = w.endWrite x g.detail := by
  simp only [State.segmentIn, kind, found]

/-! ### The reset of a peer (R333) -/

/-- A reset ends every read and write with its peer on its channel and starts their counts anew. -/
theorem exec_peerReset (mine : s.segmentFor g = true) (reset : g.reset = true) : ∃ v : State,
    exec (.peerReset g) s = .next (v.raise evBrgPeerReset (leBytes 1 g.channel ++ leBytes 2 g.sender)) ∧
    (∀ t ∈ v.bridge.txns, ¬ (t.channel = g.channel ∧ t.peer = g.sender)) ∧ v.bridge.creditOf g.channel g.sender = .fresh g.channel g.sender ∧
    v.lanes = s.lanes := by
  let cleared := s.updBridge fun b =>
    let b := b.setCredit (.fresh g.channel g.sender)
    { b with reasm := b.reasm.filter (fun r => !(r.channel == g.channel && r.peer == g.sender && !r.whole)),
             seconds := b.seconds.filter (fun h => !(h.channel == g.channel && h.dest == g.sender)) }
  obtain ⟨_, _, _, ended⟩ := endTxns_bridge 4 (s.bridge.txns.filter (fun t => t.channel == g.channel && t.peer == g.sender)) cleared
  have left := (congrArg Bridge.txns ended).trans (foldl_erase_filter _ s.bridge.txns)
  have credit := congrArg (Bridge.creditOf · g.channel g.sender) ended
  refine ⟨_, if_pos ⟨mine, reset⟩, fun t here => ?_, credit.trans (creditOf_setCredit s.bridge (.fresh g.channel g.sender)), ?_⟩
  · have other := (List.mem_filter.1 (left ▸ here)).2
    simpa [not_and_or, imp_iff_not_or, Bool.and_eq_false_iff] using other
  · exact (raise_lanes ..).symm.trans ((peerReset_same s g.channel g.sender).lanes rfl)

end

/-! ### Reports and time-outs (R332, R335, R336, R338) -/

section
variable {s : State} {ch peer tag d : Nat} {r : Reassembly} {x : Txn}

theorem exec_creditReport (on : s.bridgeOn = true) (below : ch < 8) (listed : peer ∈ s.peers ch)
    (fresh : ∀ q ∈ s.bridge.credits, ¬ (q.channel = ch ∧ q.dest = peer)) : exec (.creditReport ch peer) s =
    .next { s with bridge := { s.bridge with credits := s.bridge.credits ++ [segment 7 ch peer 0 0 []] } } := by
  refine if_pos ⟨on, below, by simpa using listed, ?_⟩
  rw [Bool.not_eq_true', List.any_eq_false]
  exact fun q queued => by simpa using fresh q queued

/-- What waited in a buffer is dropped; where it had spent a credit, it counts as consumed. -/
def bufferDropped (b : Bridge) (r : Reassembly) (ch peer : Nat) : Bridge :=
  (if r.credited then Bridge.consume { b with reasm := b.reasm.erase r } ch peer else { b with reasm := b.reasm.erase r }).drop

theorem exec_brgReasmTimeout (on : s.bridgeOn = true) (found : s.bridge.reasm.find? (fun r => r.channel == ch && r.peer == peer && !r.whole) = some r) :
    exec (.brgReasmTimeout ch peer) s =
      .next (({ s with bridge := bufferDropped s.bridge r ch peer } : State).raise evBrgReasmTimeout (leBytes 1 ch ++ leBytes 2 peer)) := by
  show execBrgReasmTimeout ch peer s = _
  unfold execBrgReasmTimeout
  rw [found]
  exact if_pos on

theorem exec_brgDiscard (running : s.power.running = true) (found : s.bridge.reasm.find? (fun r => r.channel == ch && r.entry.isSome) = some r) :
    exec (.brgDiscard ch) s = .next (({ s with bridge := bufferDropped s.bridge r ch r.peer } : State).raiseWith evBrgDiscard
      (leBytes 2 r.tag ++ leBytes 1 ch) [recCount 0x0750 0]) := by
  show execBrgDiscard ch s = _
  unfold execBrgDiscard
  rw [found]
  exact if_pos running

theorem exec_readTimeout (running : s.power.running = true) (found : s.bridge.reads.find? (fun t => t.tag == tag) = some x) :
    exec (.readTimeout tag) s = .next (s.endRead x 0x01 []) := by
  show execReadTimeout tag s = _
  unfold execReadTimeout
  rw [found]
  exact if_pos running

theorem exec_brgWriteError (running : s.power.running = true) (found : s.bridge.writes.find? (fun t => t.tag == tag) = some x) (failed : d ≠ 0) :
    exec (.brgWriteError tag d) s = .next (s.endWrite x d) := by
  show execBrgWriteError tag d s = _
  unfold execBrgWriteError
  rw [found]
  exact if_pos ⟨running, failed⟩

theorem endWrite_of_error (failed : d ≠ 0) : s.endWrite x d =
    ({ s with bridge := { s.bridge with txns := s.bridge.txns.erase x } } : State).raise evBrgWriteError
      (leBytes 1 x.channel ++ leBytes 1 d ++ leBytes 2 x.tag ++ leBytes 2 x.peer ++ leBytes 4 x.addr) := if_neg failed

end

/-! ### Telegrams of the serial ports (R339, R340) -/

section
variable {s : State} {p : Nat} {tel : Telegram}

theorem exec_telegramReceive (on : s.bridgeOn = true) (below : p < 2) (used : s.portMode p ≠ 0) :
    exec (.telegramReceive p tel) s = .next (s.telegramOn p tel) := if_pos ⟨on, below, used⟩

theorem telegramOn_of_bad (bad : telegramBad tel = true) : s.telegramOn p tel = s.raise evBrgSerialError (leBytes 1 p) := if_pos bad

theorem telegramOn_of_host (good : telegramBad tel = false) (host : s.portMode p = 1) : s.telegramOn p tel =
    s.deliverEntry (6 + p) s.me false (s.tunnelEntry 0x0082 0 s.me p .done 0 tel.data) := (if_neg (by simp [good])).trans (if_pos host)

theorem telegramOn_of_tunnel (good : telegramBad tel = false) (tunnel : s.portMode p ≠ 1) : s.telegramOn p tel =
    if s.inUse (0x1008 + p) ∈ s.peers (6 + p) then { s with bridge := { s.bridge with
      seq := (s.bridge.seq + 1) % 65536
      tx := s.bridge.tx ++ [plainReq (6 + p) (s.inUse (0x1008 + p))
        (segment 2 (6 + p) (s.inUse (0x1008 + p)) s.bridge.seq (s.inUse (0x100A + p)) (Telegram.bytes tel))] } }
    else { s with bridge := s.bridge.drop } :=
  (if_neg (by simp [good])).trans ((if_neg tunnel).trans (if_congr List.contains_iff_mem rfl rfl))

theorem exec_telegramSent (on : s.bridgeOn = true) (below : p < 2) (sending : (s.serial p).sending = true) :
    exec (.telegramSent p) s = .next (s.telegramDone p) := if_pos ⟨on, below, sending⟩

/-- A port whose telegram has left. -/
def portAfter (q : Serial) : Serial :=
  match q.waiting with
  | t :: rest => { q with sending := true, waiting := rest, out := t :: q.out }
  | [] => { q with sending := false }

theorem portAfter_of_waiting {q : Serial} {a : Telegram} {l : List Telegram} (waits : q.waiting = a :: l) :
    portAfter q = { sending := true, waiting := l, out := a :: q.out } := by
  unfold portAfter
  rw [waits]

theorem portAfter_of_empty {q : Serial} (empty : q.waiting = []) : portAfter q = { sending := false, waiting := [], out := q.out } := by
  unfold portAfter
  rw [empty]

theorem telegramDone_eq : s.telegramDone p = s.setSerial p (portAfter (s.serial p)) := by
  cases waits : (s.serial p).waiting with
  | nil =>
    rw [portAfter_of_empty waits]
    simp only [State.telegramDone, waits]
  | cons a l =>
    rw [portAfter_of_waiting waits]
    simp only [State.telegramDone, waits]

end

/-! ### The polls of neighbours (R341) -/

section
variable {s : State} {k : Nat}

theorem exec_sideBandPoll (on : s.bridgeOn = true) (below : k < 64) (named : s.inUse (0x2C00 + k) ≠ 0) (blk : Option (List Byte)) :
    exec (.sideBandPoll k blk) s = .next (s.pollStep k (s.inUse (0x2C00 + k)) blk) := if_pos ⟨on, below, named⟩

/-- A poll without answer reports the neighbour as lost at the third in a row. -/
theorem pollStep_none (node : Nat) : s.pollStep k node none =
    let w := s.bridge.poll k
    let v := { s with bridge := s.bridge.setPoll { w with fails := w.fails + 1, lost := w.lost || decide (2 ≤ w.fails) } }
    if w.lost = false ∧ 2 ≤ w.fails then v.raise evBrgPollLost (leBytes 2 node) else v := by
  have third : decide (3 ≤ (s.bridge.poll k).fails + 1) = decide (2 ≤ (s.bridge.poll k).fails) := decide_eq_decide.2 (by omega)
  unfold State.pollStep
  dsimp only
  rw [third]
  refine if_congr ?_ rfl rfl
  cases (s.bridge.poll k).lost <;> simp

end

/-- Settles O56: one equation for each kind of segment, time-out, telegram and poll; a reset is the fold that ends the reads and
writes of its peer. -/
theorem segmentsTelegramsAndPolls : Obligations.SegmentsTelegramsAndPolls := by
  unfold Obligations.SegmentsTelegramsAndPolls
  intro s g ch peer tag d x r tel
  refine ⟨fun on below listed here => ?_, fun on below listed fresh => ⟨_, rfl, exec_creditReport on below listed fresh⟩,
    fun on found => ⟨_, rfl, exec_brgReasmTimeout on found⟩, fun running => ⟨fun found => ⟨_, rfl, exec_brgDiscard running found⟩,
      fun found => ⟨_, rfl, exec_readTimeout running found⟩,
      fun found failed => ⟨_, rfl, (exec_brgWriteError running found failed).trans (congrArg _ (endWrite_of_error failed))⟩⟩,
    fun p on below => ?_, fun p => rfl, ?_⟩
  · have mine := segmentFor_of on below listed here
    refine ⟨?_, exec_peerReset mine⟩
    rintro w rfl plain
    have taken := exec_tunnelSegment mine plain
    obtain ⟨credit, kept⟩ := credited_credit s.bridge g
    rw [kept] at taken ⊢
    refine ⟨fun kind first full => ?_, fun kind first room => ⟨fun part => ⟨_, _, rfl, rfl, ?_⟩, fun whole => ?_⟩, fun kind later missing => ?_, fun kind => ?_,
      fun kind => ⟨_, rfl, ?_⟩, fun kind found => ?_, fun kind none' => ?_, fun kind found => ?_⟩
    · exact taken.trans (congrArg _ ((segmentIn_frame kind).trans (ethernetSegment_of_full first full)))
    · exact taken.trans (congrArg _ ((segmentIn_frame kind).trans (ethernetSegment_of_part first room part)))
    · exact taken.trans (congrArg _ ((segmentIn_frame kind).trans (ethernetSegment_of_whole first room whole)))
    · exact taken.trans (congrArg _ ((segmentIn_frame kind).trans (ethernetSegment_of_missing later missing)))
    · exact taken.trans (congrArg _ (segmentIn_telegram kind))
    · exact taken.trans (congrArg _ (segmentIn_ask kind))
    · exact taken.trans (congrArg _ (segmentIn_readReply kind found))
    · exact taken.trans (congrArg _ (segmentIn_readReply_of_none kind none'))
    · exact taken.trans (congrArg _ (segmentIn_writeReply kind found))
  · refine ⟨fun used bad => (exec_telegramReceive on below used).trans (congrArg _ (telegramOn_of_bad bad)),
      fun host good => (exec_telegramReceive on below (by omega)).trans (congrArg _ (telegramOn_of_host good host)), ?_,
      fun sending => ⟨portAfter (s.serial p), (exec_telegramSent on below sending).trans (congrArg _ telegramDone_eq),
        fun a l waits => portAfter_of_waiting waits, portAfter_of_empty⟩⟩
    rintro q used tunnel good rfl
    have received := (exec_telegramReceive on below used).trans (congrArg _ (telegramOn_of_tunnel good tunnel))
    exact ⟨fun listed => ⟨_, rfl, received.trans (congrArg _ (if_pos listed))⟩, fun other => received.trans (congrArg _ (if_neg other))⟩
  · rintro k node w on below rfl named rfl
    exact ⟨fun blk => ⟨_, _, rfl, rfl, exec_sideBandPoll on below named (some blk)⟩,
      ⟨_, _, rfl, rfl, (exec_sideBandPoll on below named none).trans (congrArg _ (pollStep_none _))⟩⟩

end Sys2Proof.Laws
end
